-- ==== Sys2Proof/Word.lean ====
section
/-! DEFINITION. The word types of the machine: 64-bit registers (R63), bytes, and the Tab, a table by number in
which an absent entry stands for a default. -/
set_option Elab.async false
namespace Sys2Proof

abbrev Word := BitVec 64
abbrev Byte := BitVec 8

/-- A table by key, rising; an absent key reads as the table's default. -/
abbrev Tab (α : Type) := List (Nat × α)

end Sys2Proof
end

