-- ==== Sys2Proof/Syntax.lean ====
section
/-! DEFINITION. The commands of the block: one constructor of `Instr` for each row of
spec/opcode_table.json, with the row's operands, and the data those operands carry (packets,
measurements, what an array's check found).  R12 to R14 fix how units are numbered:
`th` is a 23-bit global thread number, `die` is package (8 bits) then die (3 bits), `cl` is
package, die, cluster, and `port` is package, die, port. -/
set_option Elab.async false
namespace Sys2Proof

/-- What a read of an ECC-protected DRAM or yard SRAM word found (R129). -/
inductive EccFinding where
  | clean | corrected | uncorrectable
  deriving DecidableEq, Repr

/-- What the arrays of a Depot cache report during one access (R147 to R151). -/
inductive DepotFinding where
  | clean
  /-- R147: a single-bit data error, corrected and counted. -/
  | dataCE
  /-- R147: an uncorrectable data error in the accessed sector. -/
  | dataUE
  /-- R148, R149: a tag parity error on the accessed line. -/
  | tagParity
  /-- R151: the owner entries listed (set * 8 + way, or 2048 + Siding place) cannot be read; `counts` says the
  dirty-line counts of R150 cannot be read either. -/
  | ownerUE (entries : List Nat) (counts : Bool)
  deriving DecidableEq, Repr

/-- One ring command of one VI: package, VI, ring, command index (R483). -/
structure CmdRef where
  pkg : BitVec 8
  vi : BitVec 5
  ring : BitVec 4
  idx : BitVec 32
  deriving DecidableEq, Repr

/-- Who waits on a signal: a thread (R328) or a SIG_WAIT command (R327). -/
inductive WaiterRef where
  | thread (th : BitVec 23)
  | cmd (c : CmdRef)
  deriving DecidableEq, Repr

/-- A hardware ledger's unit on a die (R413): ledgers 2, 3 and 6. -/
inductive LedgerUnit where
  | lane (cl : BitVec 5) (lane : BitVec 4)
  | miss (cl : BitVec 5)
  | ctx (cl : BitVec 5) (tp : BitVec 2)
  /-- Ledger 1 at the sending end of a junction: its number and the virtual channel. -/
  | junction (j : BitVec 2) (vc : BitVec 3)
  deriving DecidableEq, Repr

/-- What CREDIT_SYNC and CREDIT_AUDIT flits carry (R365, R418): free shared slots of VC0 to VC6,
the occupied escape spaces (VC, HOPS), and ACKSEQ. -/
structure CreditReport where
  free : List Nat
  esc : List (Nat × Nat)
  ackseq : BitVec 12
  deriving DecidableEq, Repr

/-- What a CTRL flit carries (R365, R366, R418): a receiver's report, or a width and the SEQ at which it applies. -/
inductive CtrlFlit where
  | creditSync (rep : CreditReport)
  | creditAudit (rep : CreditReport)
  | width (w : Nat) (seq : BitVec 12)
  deriving DecidableEq, Repr

/-- A junction beat as its receiver finds it (R367): the junction, and the one-of-four code words of each slot. -/
structure JBeat where
  j : BitVec 2
  slots : List (List (BitVec 4))
  deriving DecidableEq, Repr

/-- What DETECT finds on one lane (R348). -/
inductive LaneObs where
  | farEnd | isOpen | short
  deriving DecidableEq, Repr

/-- A position record (R349). -/
structure PosRec where
  machine : BitVec 16
  pkg : BitVec 8
  die : BitVec 3
  port : BitVec 2
  pepoch : BitVec 16
  deriving DecidableEq, Repr

/-- What one training attempt meets on its wires (R345 to R350): DETECT per lane, the lanes that pass
the steps CANCEL to EQUALISE at both ends, whether POSITION and LOCK go through, the far end's record,
for each physical lane the far end's physical lane whose pattern ORDER finds on it, and the inverted lanes. -/
structure TrainObs where
  lanes : List LaneObs
  passed : BitVec 4
  lockOk : Bool
  far : PosRec
  order : List Nat
  inverted : BitVec 4
  deriving DecidableEq, Repr

/-- Projections the power manager works from at an interval boundary (R436 to R443, R446):
floors and demands of the 24 domains (die * 3 + 0 link, 1 memory, 2 compute) in 0.1 W; the projected
compute power of each die at each OP; the pacing rate that meets the cap; the projected input power with
the last lever released; and each die's hottest reading over the interval, mean and largest, in degrees. -/
structure PowerProj where
  floors : List Nat
  demands : List Nat
  opPower : List (List Nat)
  pace : Nat
  released : Nat
  hotMean : List Nat
  hotMax : List Nat
  deriving DecidableEq, Repr

inductive AtomicKind where
  | swap | cas128 | yardFetchadd | yardCas
  deriving DecidableEq, Repr

/-- A station pin's level at a strap sample (R573). -/
inductive PinLevel where
  | low | mid | high
  deriving DecidableEq, Repr

/-- What a firmware image carries (R537) and whether it passes its check against the key in ROM (R536). -/
structure ImageInfo where
  ok : Bool
  machine : BitVec 16
  racks : Nat
  x8x8 : Bool
  /-- 0: 1 KiB, 1: 2 KiB, 2: 4 KiB (R67). -/
  rhCode : BitVec 2
  major : BitVec 8
  minor : BitVec 8
  /-- Window B size of a virtual function: 0: 1, 1: 4, 2: 16, 3: 64 GiB (R464). -/
  wbCode : BitVec 2
  deriving DecidableEq, Repr

/-- The outcome of COMMIT's check of the staged image (R527). -/
structure ImageCheck where
  info : ImageInfo
  deriving DecidableEq, Repr

/-- The 256-byte ticket of a travelling thread (R80): t0 to t14, the current frame, COND and RESUME_PC. -/
structure Ticket where
  cond : BitVec 8
  resumePc : BitVec 48
  l : List (BitVec 64)
  p : List (BitVec 64)
  t : List (BitVec 64)
  deriving DecidableEq, Repr

/-- The envelope slot of a ticket (R81). -/
structure Envelope where
  deadline : BitVec 64
  travelNo : BitVec 32
  origin : BitVec 23
  cls : BitVec 2
  deriving DecidableEq, Repr

/-- The function of a SIG packet (R358): the SIG functions of R114, a slot's status-word read (R320), and the
write that a FREE of a pool signal makes is firmware's own. -/
inductive SigFn where
  | add | set | read | wait | take
  deriving DecidableEq, Repr

/-- EPOCH payload (R550). -/
structure EpochMsg where
  isPkg : Bool
  /-- 0 RESETTING, 1 IN_SERVICE, 2 OUT_OF_SERVICE -/
  state : BitVec 2
  pkg : BitVec 8
  die : BitVec 3
  old : BitVec 16
  new : BitVec 16
  tick : BitVec 64
  deriving DecidableEq, Repr

/-- A registration (R540). `ports` are the trained ports (die * 4 + port), `fencedJ` the fenced junctions
(die * 3 + j). -/
structure Registration where
  pkg : BitVec 8
  silicon : BitVec 64
  pepoch : BitVec 16
  depochs : List (BitVec 8)
  lead : Bool
  ports : List Nat
  fencedJ : List Nat
  deriving DecidableEq, Repr

/-- A link-state map (R374, R542): version, and each registered package's registration. -/
structure LinkMap where
  version : BitVec 32
  pkgs : List Registration
  deriving DecidableEq, Repr

/-- Turja-to-Turja messages (MGMT packets, R358): relayed requests and responses (R503), registrations (R540),
HOLD (R541), the tick count (R543), bind registration and its answer (R403), and reports of port and junction
changes (R374). -/
inductive MgmtMsg where
  | relayReq (mb : Nat) (req : List (BitVec 8))
  | relayRsp (mb : Nat) (rsp : List (BitVec 8))
  | register (r : Registration)
  | hold (pkg : BitVec 8)
  | tick (count : BitVec 64) (halfTrip : BitVec 64)
  | bindAsk (vi : BitVec 5) (tenant : BitVec 12)
  | bindAnswer (vi : BitVec 5) (tenant : BitVec 12) (ok : Bool)
  | unbound (vi : BitVec 5) (tenant : BitVec 12)
  deriving DecidableEq, Repr

/-- What a packet carries after its header (R358, R359). -/
inductive Payload where
  | rd (pa : BitVec 52) (sectors : BitVec 4)
  | wr (pa : BitVec 52) (bmask : BitVec 128) (data : List (BitVec 8)) (wb : Bool)
  /-- A WR of sub-byte elements: for each byte of the line, the bits that are written (R204, log 83). -/
  | wrBits (pa : BitVec 52) (mask : List (BitVec 8)) (data : List (BitVec 8))
  | amo (pa : BitVec 52) (fn : BitVec 3) (wide : Bool) (order : BitVec 2) (a b : BitVec 64)
  | sig (addr : BitVec 52) (fn : SigFn) (value : BitVec 32) (src : BitVec 8) (writer : BitVec 23) (deadline : BitVec 64)
      (vi : BitVec 5)
  | cancel (wtag : BitVec 12) (addr : BitVec 52)
  | ticket (env : Envelope) (t : Ticket)
  | tquery (origin : BitVec 23) (oepoch : BitVec 8) (no : BitVec 32)
  | mgmt (m : MgmtMsg)
  | epoch (e : EpochMsg)
  | map (m : LinkMap)
  | ack
  | data (pa : BitVec 52) (sectors : BitVec 4) (bytes : List (BitVec 8))
  | amorsp (old : BitVec 64)
  | sigrsp (status : BitVec 64) (count : BitVec 32)
  | trsp (origin : BitVec 23) (no : BitVec 32)
  deriving DecidableEq, Repr

/-- What a home die tells the requester of a memory fault met by its request, so that the requester's die can record it
(R23, R131, R152): KIND, physical address and DETAIL of the memory fault record. The model carries it beside the response. -/
structure MemFlt where
  kind : BitVec 4
  pa : BitVec 52
  detail : BitVec 64
  deriving DecidableEq, Repr

/-- A packet: the header of R358 (OPC and LEN follow from the payload and are not held apart) and its payload. -/
structure Packet where
  vc : BitVec 3
  hops : BitVec 5
  dpkg : BitVec 8
  ddie : BitVec 3
  spkg : BitVec 8
  sdie : BitVec 3
  tenant : BitVec 12
  depoch : BitVec 8
  pepoch : BitVec 16
  tag : BitVec 12
  dl : BitVec 26
  /-- Response status: 0 OK, 1 GONE, 2 ERROR, 3 FOREIGN, 4 NOROOM, 5 FULL, 6 ARRIVED, 7 NOT_SEEN, 8 CANCELLED. -/
  status : BitVec 4
  sepoch : BitVec 8
  body : Payload
  flt : Option MemFlt
  deriving DecidableEq, Repr

/-- The commands: one constructor for each row of spec/opcode_table.json, in its order. -/
inductive Instr where
  /-- ADD (R102): Integer add of two registers, wrapping modulo 2^64, optionally setting flags. -/
  | add (th : BitVec 23) (rd : BitVec 6) (ra : BitVec 6) (rb : BitVec 6) (sf : Bool)
  /-- SUB (R102): Integer subtract of two registers, wrapping, optionally setting flags. -/
  | sub (th : BitVec 23) (rd : BitVec 6) (ra : BitVec 6) (rb : BitVec 6) (sf : Bool)
  /-- AND (R102): Bitwise AND of two registers. -/
  | and (th : BitVec 23) (rd : BitVec 6) (ra : BitVec 6) (rb : BitVec 6) (sf : Bool)
  /-- OR (R102): Bitwise OR of two registers. -/
  | or (th : BitVec 23) (rd : BitVec 6) (ra : BitVec 6) (rb : BitVec 6) (sf : Bool)
  /-- XOR (R102): Bitwise XOR of two registers. -/
  | xor (th : BitVec 23) (rd : BitVec 6) (ra : BitVec 6) (rb : BitVec 6) (sf : Bool)
  /-- ANDN (R102): ra AND NOT rb. -/
  | andn (th : BitVec 23) (rd : BitVec 6) (ra : BitVec 6) (rb : BitVec 6) (sf : Bool)
  /-- SHL (R102): Shift left by the low 6 bits of rb. -/
  | shl (th : BitVec 23) (rd : BitVec 6) (ra : BitVec 6) (rb : BitVec 6) (sf : Bool)
  /-- SHR (R102): Logical shift right by the low 6 bits of rb. -/
  | shr (th : BitVec 23) (rd : BitVec 6) (ra : BitVec 6) (rb : BitVec 6) (sf : Bool)
  /-- SAR (R102): Arithmetic shift right by the low 6 bits of rb. -/
  | sar (th : BitVec 23) (rd : BitVec 6) (ra : BitVec 6) (rb : BitVec 6) (sf : Bool)
  /-- ROR (R102): Rotate right by the low 6 bits of rb. -/
  | ror (th : BitVec 23) (rd : BitVec 6) (ra : BitVec 6) (rb : BitVec 6) (sf : Bool)
  /-- MIN (R102): Signed minimum of two registers. -/
  | min (th : BitVec 23) (rd : BitVec 6) (ra : BitVec 6) (rb : BitVec 6) (sf : Bool)
  /-- MAX (R102): Signed maximum of two registers. -/
  | max (th : BitVec 23) (rd : BitVec 6) (ra : BitVec 6) (rb : BitVec 6) (sf : Bool)
  /-- MINU (R102): Unsigned minimum of two registers. -/
  | minu (th : BitVec 23) (rd : BitVec 6) (ra : BitVec 6) (rb : BitVec 6) (sf : Bool)
  /-- MAXU (R102): Unsigned maximum of two registers. -/
  | maxu (th : BitVec 23) (rd : BitVec 6) (ra : BitVec 6) (rb : BitVec 6) (sf : Bool)
  /-- SLT (R102): Writes 1 if ra < rb signed, else 0. -/
  | slt (th : BitVec 23) (rd : BitVec 6) (ra : BitVec 6) (rb : BitVec 6) (sf : Bool)
  /-- SLTU (R102): Writes 1 if ra < rb unsigned, else 0. -/
  | sltu (th : BitVec 23) (rd : BitVec 6) (ra : BitVec 6) (rb : BitVec 6) (sf : Bool)
  /-- CLZ (R102): Count leading zeros of ra, 64 for zero. -/
  | clz (th : BitVec 23) (rd : BitVec 6) (ra : BitVec 6) (sf : Bool)
  /-- CTZ (R102): Count trailing zeros of ra, 64 for zero. -/
  | ctz (th : BitVec 23) (rd : BitVec 6) (ra : BitVec 6) (sf : Bool)
  /-- POPC (R102): Population count of ra. -/
  | popc (th : BitVec 23) (rd : BitVec 6) (ra : BitVec 6) (sf : Bool)
  /-- BSWAP (R102): Byte-reverse ra. -/
  | bswap (th : BitVec 23) (rd : BitVec 6) (ra : BitVec 6) (sf : Bool)
  /-- MUL (R102): Low 64 bits of the 128-bit product. -/
  | mul (th : BitVec 23) (rd : BitVec 6) (ra : BitVec 6) (rb : BitVec 6) (sf : Bool)
  /-- MULH (R102): High 64 bits of the signed 128-bit product. -/
  | mulh (th : BitVec 23) (rd : BitVec 6) (ra : BitVec 6) (rb : BitVec 6) (sf : Bool)
  /-- MULHU (R102): High 64 bits of the unsigned 128-bit product. -/
  | mulhu (th : BitVec 23) (rd : BitVec 6) (ra : BitVec 6) (rb : BitVec 6) (sf : Bool)
  /-- DIV (R103): Signed division truncated toward zero, with defined results for zero divisor and overflow. -/
  | div (th : BitVec 23) (rd : BitVec 6) (ra : BitVec 6) (rb : BitVec 6) (sf : Bool)
  /-- DIVU (R103): Unsigned division, all ones for a zero divisor. -/
  | divu (th : BitVec 23) (rd : BitVec 6) (ra : BitVec 6) (rb : BitVec 6) (sf : Bool)
  /-- REM (R103): Signed remainder with the sign of ra, ra for a zero divisor. -/
  | rem (th : BitVec 23) (rd : BitVec 6) (ra : BitVec 6) (rb : BitVec 6) (sf : Bool)
  /-- REMU (R103): Unsigned remainder, ra for a zero divisor. -/
  | remu (th : BitVec 23) (rd : BitVec 6) (ra : BitVec 6) (rb : BitVec 6) (sf : Bool)
  /-- MADD (R102): rd = ra × rb + rc, low 64 bits. -/
  | madd (th : BitVec 23) (rd : BitVec 6) (ra : BitVec 6) (rb : BitVec 6) (rc : BitVec 6) (sf : Bool)
  /-- ALUI (R102): Integer operation of ra with a sign-extended immediate, FN6 selecting the operation. -/
  | alui (th : BitVec 23) (rd : BitVec 6) (ra : BitVec 6) (fn6 : BitVec 6) (imm : BitVec 32)
  /-- LI (R102): Load a sign-extended 32-bit immediate. -/
  | li (th : BitVec 23) (rd : BitVec 6) (imm : BitVec 32)
  /-- LIH (R102): Load the immediate into bits 63:32, keeping bits 31:0. -/
  | lih (th : BitVec 23) (rd : BitVec 6) (imm : BitVec 32)
  /-- CMP (R99): Set flags from ra − rb without writing a register. -/
  | cmp (th : BitVec 23) (ra : BitVec 6) (rb : BitVec 6)
  /-- CMPI (R99): Set flags from ra − sext(imm). -/
  | cmpi (th : BitVec 23) (ra : BitVec 6) (imm : BitVec 32)
  /-- SEL (R102): Select ra or rb by a flag condition coded in RC. -/
  | sel (th : BitVec 23) (rd : BitVec 6) (ra : BitVec 6) (rb : BitVec 6) (rc : BitVec 6) (sf : Bool)
  /-- FADD (R104): F32 addition rounded once. -/
  | fadd (th : BitVec 23) (rd : BitVec 6) (ra : BitVec 6) (rb : BitVec 6) (md : BitVec 8)
  /-- FSUB (R104): F32 subtraction rounded once. -/
  | fsub (th : BitVec 23) (rd : BitVec 6) (ra : BitVec 6) (rb : BitVec 6) (md : BitVec 8)
  /-- FMUL (R104): F32 multiplication rounded once. -/
  | fmul (th : BitVec 23) (rd : BitVec 6) (ra : BitVec 6) (rb : BitVec 6) (md : BitVec 8)
  /-- FFMA (R104): F32 fused multiply-add rounded once. -/
  | ffma (th : BitVec 23) (rd : BitVec 6) (ra : BitVec 6) (rb : BitVec 6) (rc : BitVec 6) (md : BitVec 8)
  /-- FMIN (R105): F32 minimum with signed-zero and NaN rules. -/
  | fmin (th : BitVec 23) (rd : BitVec 6) (ra : BitVec 6) (rb : BitVec 6) (md : BitVec 8)
  /-- FMAX (R105): F32 maximum with signed-zero and NaN rules. -/
  | fmax (th : BitVec 23) (rd : BitVec 6) (ra : BitVec 6) (rb : BitVec 6) (md : BitVec 8)
  /-- FABS (R104): Clear the F32 sign bit, no flags. -/
  | fabs (th : BitVec 23) (rd : BitVec 6) (ra : BitVec 6) (md : BitVec 8)
  /-- FNEG (R104): Invert the F32 sign bit, no flags. -/
  | fneg (th : BitVec 23) (rd : BitVec 6) (ra : BitVec 6) (md : BitVec 8)
  /-- FDIV (R104): F32 division. -/
  | fdiv (th : BitVec 23) (rd : BitVec 6) (ra : BitVec 6) (rb : BitVec 6) (md : BitVec 8)
  /-- FSQRT (R104): F32 square root. -/
  | fsqrt (th : BitVec 23) (rd : BitVec 6) (ra : BitVec 6) (md : BitVec 8)
  /-- FCMP (R100): Compare two F32 values and set Z, N, V and NV. -/
  | fcmp (th : BitVec 23) (ra : BitVec 6) (rb : BitVec 6)
  /-- CVT (R106): Convert a single value between storage and integer formats. -/
  | cvt (th : BitVec 23) (rd : BitVec 6) (ra : BitVec 6) (fn : BitVec 8) (md : BitVec 8)
  /-- PADD (R107): Packed lane-wise add on active lanes. -/
  | padd (th : BitVec 23) (rd : BitVec 6) (ra : BitVec 6) (rb : BitVec 6) (rc : BitVec 6) (md : BitVec 8) (sf : Bool)
  /-- PSUB (R107): Packed lane-wise subtract on active lanes. -/
  | psub (th : BitVec 23) (rd : BitVec 6) (ra : BitVec 6) (rb : BitVec 6) (rc : BitVec 6) (md : BitVec 8) (sf : Bool)
  /-- PMIN (R107): Packed signed minimum on active lanes. -/
  | pmin (th : BitVec 23) (rd : BitVec 6) (ra : BitVec 6) (rb : BitVec 6) (rc : BitVec 6) (md : BitVec 8) (sf : Bool)
  /-- PMAX (R107): Packed signed maximum on active lanes. -/
  | pmax (th : BitVec 23) (rd : BitVec 6) (ra : BitVec 6) (rb : BitVec 6) (rc : BitVec 6) (md : BitVec 8) (sf : Bool)
  /-- PMINU (R107): Packed unsigned minimum on active lanes. -/
  | pminu (th : BitVec 23) (rd : BitVec 6) (ra : BitVec 6) (rb : BitVec 6) (rc : BitVec 6) (md : BitVec 8) (sf : Bool)
  /-- PMAXU (R107): Packed unsigned maximum on active lanes. -/
  | pmaxu (th : BitVec 23) (rd : BitVec 6) (ra : BitVec 6) (rb : BitVec 6) (rc : BitVec 6) (md : BitVec 8) (sf : Bool)
  /-- PCMP (R107): Packed lane compare producing a mask. -/
  | pcmp (th : BitVec 23) (fn : BitVec 8) (rd : BitVec 6) (ra : BitVec 6) (rb : BitVec 6) (rc : BitVec 6) (md : BitVec 8) (sf : Bool)
  /-- MPOP (R107): Count set bits of a lane mask. -/
  | mpop (th : BitVec 23) (rd : BitVec 6) (ra : BitVec 6) (sf : Bool)
  /-- MFIRST (R107): Index of the lowest set mask bit, 8 if none. -/
  | mfirst (th : BitVec 23) (rd : BitVec 6) (ra : BitVec 6) (sf : Bool)
  /-- MLAST (R107): Index of the highest set mask bit, 8 if none. -/
  | mlast (th : BitVec 23) (rd : BitVec 6) (ra : BitVec 6) (sf : Bool)
  /-- MRANGE (R107): Mask of the first ra lanes. -/
  | mrange (th : BitVec 23) (rd : BitVec 6) (ra : BitVec 6) (sf : Bool)
  /-- LD (R108): Load from memory, blocking the thread until the reply. -/
  | ld (th : BitVec 23) (rd : BitVec 6) (ra : BitVec 6) (imm : BitVec 32) (mod6 : BitVec 6) (dep : DepotFinding)
  /-- ST (R108): Posted store to memory, plain or release. -/
  | st (th : BitVec 23) (ra : BitVec 6) (rb : BitVec 6) (imm : BitVec 32) (mod6 : BitVec 6) (dep : DepotFinding)
  /-- GLD (R110): Masked 8-lane gather checked in full before any lane is performed. -/
  | gld (th : BitVec 23) (rd : BitVec 6) (ra : BitVec 6) (rb : BitVec 6) (rc : BitVec 6) (md : BitVec 8) (dep : List DepotFinding)
  /-- SST (R111): Masked 8-lane posted scatter in ascending lane order. -/
  | sst (th : BitVec 23) (rd : BitVec 6) (ra : BitVec 6) (rb : BitVec 6) (rc : BitVec 6) (md : BitVec 8) (dep : List DepotFinding)
  /-- AMO_ADD (R112): Near-memory atomic integer add returning the old value. -/
  | amoAdd (th : BitVec 23) (rd : BitVec 6) (ra : BitVec 6) (rb : BitVec 6) (md : BitVec 8)
  /-- AMO_FADD32 (R166): Near-memory atomic F32 add. -/
  | amoFadd32 (th : BitVec 23) (rd : BitVec 6) (ra : BitVec 6) (rb : BitVec 6) (md : BitVec 8)
  /-- AMO_MIN (R112): Near-memory atomic signed minimum. -/
  | amoMin (th : BitVec 23) (rd : BitVec 6) (ra : BitVec 6) (rb : BitVec 6) (md : BitVec 8)
  /-- AMO_MAX (R112): Near-memory atomic signed maximum. -/
  | amoMax (th : BitVec 23) (rd : BitVec 6) (ra : BitVec 6) (rb : BitVec 6) (md : BitVec 8)
  /-- AMO_MINU (R112): Near-memory atomic unsigned minimum. -/
  | amoMinu (th : BitVec 23) (rd : BitVec 6) (ra : BitVec 6) (rb : BitVec 6) (md : BitVec 8)
  /-- AMO_MAXU (R112): Near-memory atomic unsigned maximum. -/
  | amoMaxu (th : BitVec 23) (rd : BitVec 6) (ra : BitVec 6) (rb : BitVec 6) (md : BitVec 8)
  /-- AMO_OR (R112): Near-memory atomic OR. -/
  | amoOr (th : BitVec 23) (rd : BitVec 6) (ra : BitVec 6) (rb : BitVec 6) (md : BitVec 8)
  /-- AMO_CAS (R112): Near-memory compare-and-swap. -/
  | amoCas (th : BitVec 23) (rd : BitVec 6) (ra : BitVec 6) (rb : BitVec 6) (rc : BitVec 6) (md : BitVec 8)
  /-- SIG_ADD (R114): Posted saturating add to a signal count with release. -/
  | sigAdd (th : BitVec 23) (ra : BitVec 6) (rb : BitVec 6) (md : BitVec 8)
  /-- SIG_SET (R114): Posted write of a signal count with release. -/
  | sigSet (th : BitVec 23) (ra : BitVec 6) (rb : BitVec 6) (md : BitVec 8)
  /-- SIG_READ (R114): Read a signal count with acquire. -/
  | sigRead (th : BitVec 23) (rd : BitVec 6) (ra : BitVec 6) (md : BitVec 8)
  /-- SIG_WAIT (R115): Wait until a signal reaches a threshold or times out. -/
  | sigWait (th : BitVec 23) (rd : BitVec 6) (ra : BitVec 6) (rb : BitVec 6) (rc : BitVec 6) (md : BitVec 8)
  /-- SIG_TAKE (R115): Wait and atomically subtract the threshold on success. -/
  | sigTake (th : BitVec 23) (rd : BitVec 6) (ra : BitVec 6) (rb : BitVec 6) (rc : BitVec 6) (md : BitVec 8)
  /-- BC (R117): Branch on a flag condition. -/
  | bc (th : BitVec 23) (cc : BitVec 6) (imm : BitVec 32)
  /-- BR (R117): Branch on a register comparison. -/
  | br (th : BitVec 23) (cc : BitVec 6) (ra : BitVec 6) (rb : BitVec 6) (imm : BitVec 32)
  /-- JMP (R117): PC-relative jump. -/
  | jmp (th : BitVec 23) (imm : BitVec 32)
  /-- JMPR (R117): Jump to the address in ra. -/
  | jmpr (th : BitVec 23) (ra : BitVec 6)
  /-- CALL (R64): Make a new call frame and jump PC-relative. -/
  | call (th : BitVec 23) (imm : BitVec 32)
  /-- CALLR (R117): Make a new call frame and jump to ra read in the caller frame. -/
  | callr (th : BitVec 23) (ra : BitVec 6)
  /-- RET (R65): Leave the current frame, or end the thread in the bottom frame. -/
  | ret (th : BitVec 23)
  /-- EXIT (R117): Drain posted writes and free the context. -/
  | exit (th : BitVec 23)
  /-- TRAVEL (R119): Drain, then pack a ticket and move the thread to the die owning an address. -/
  | travel (th : BitVec 23) (ra : BitVec 6)
  /-- BRK (R117): Raise BREAK with the immediate as TRAP_ADDR. -/
  | brk (th : BitVec 23) (imm : BitVec 32)
  /-- NOP (R117): Do nothing. -/
  | nop (th : BitVec 23)
  /-- FENCE_FULL (R118): Order every earlier access before every later one. -/
  | fenceFull (th : BitVec 23)
  /-- FENCE_ACQUIRE (R118): Acquire fence ordering earlier loads before later accesses. -/
  | fenceAcquire (th : BitVec 23)
  /-- FENCE_RELEASE (R118): Release fence ordering earlier accesses before later stores and signals. -/
  | fenceRelease (th : BitVec 23)
  /-- FENCE_DRAIN (R118): Complete only when every earlier store and atomic is acknowledged. -/
  | fenceDrain (th : BitVec 23)
  /-- MFS (R120): Read a special register. -/
  | mfs (th : BitVec 23) (rd : BitVec 6) (imm : BitVec 32)
  /-- MTS (R120): Write a special register with its access rules. -/
  | mts (th : BitVec 23) (ra : BitVec 6) (imm : BitVec 32)
  /-- TRET (R74): Return from the trap window and re-execute the trapping instruction. -/
  | tret (th : BitVec 23)
  /-- RHOUT (R122): Move the oldest Roundhouse records out to tenant memory. -/
  | rhout (th : BitVec 23) (ra : BitVec 6) (rb : BitVec 6)
  /-- RHIN (R122): Move Roundhouse records back in from tenant memory. -/
  | rhin (th : BitVec 23) (ra : BitVec 6) (rb : BitVec 6)
  /-- INSTRUCTION_FETCH (R592): Fetch a 32-byte sector into a thread's fetch buffer through port A. -/
  | instructionFetch (th : BitVec 23) (dep : DepotFinding)
  /-- MISS_REGISTER_GRANT (R143): A request waiting aside takes a freed miss register by class, deadline and age. -/
  | missRegisterGrant (cl : BitVec 16)
  /-- PLATFORM_QUEUE_GRANT (R182): A stalled gather, scatter or Shunter fetch takes a Platform queue entry. -/
  | platformQueueGrant (cl : BitVec 16) (lane : BitVec 4)
  /-- PATROL_SCRUB (R153): Patrol scrubber reads and corrects memory words on its schedule. -/
  | patrolScrub (die : BitVec 11) (yard : Bool) (off : BitVec 37) (ecc : EccFinding)
  /-- DRAM_REFRESH (R589): A DRAM bank is refreshed, closing its row. -/
  | dramRefresh (die : BitVec 11) (pc : BitVec 5) (bank : Nat)
  /-- LAUNCH_PLACE_THREAD (R79): A waiting launch places its next thread when a context becomes FREE. -/
  | launchPlaceThread (die : BitVec 11)
  /-- ARRIVAL_QUEUE_ENTER (R83): A queued ticket enters a context that has become FREE. -/
  | arrivalQueueEnter (die : BitVec 11)
  /-- TRAVEL_QUERY_TIMER (R381): An origin with no TRSP after 1 ms sends TQUERY on the present route. -/
  | travelQueryTimer (th : BitVec 23)
  /-- TICKET_HELD_TIMER (R381): A travel held for 10 ms raises EV_TICKET_HELD. -/
  | ticketHeldTimer (th : BitVec 23)
  /-- NOT_SEEN_RECORD_EXPIRE (R381): A target's 10 ms record of a NOT_SEEN travel expires. -/
  | notSeenRecordExpire (die : BitVec 11)
  /-- TRAVEL_RESET_WAIT_EXPIRE (R553): With no TRSP 1 ms after the target reset, the travel ends with FLT_TICKET_LOST. -/
  | travelResetWaitExpire (th : BitVec 23)
  /-- CORE_UNDERVOLTAGE (R42): Core voltage below 0.50 V for over 1 µs freezes the die, records FLT_CORE_UV and resets it. -/
  | coreUndervoltage (die : BitVec 11) (mv : Nat) (us : Nat)
  /-- MONITOR_MEASURE (R46): A ring monitor measures the relative beat rate of its region every 1 µs. -/
  | monitorMeasure (die : BitVec 11) (m : BitVec 3) (rate : BitVec 16) (temp : BitVec 8)
  /-- MONITOR_STALE (R48): A monitor with no measurement for 10 µs becomes stale and leaves the live rate. -/
  | monitorStale (die : BitVec 11) (m : BitVec 3)
  /-- GOVERNOR_TICK (R50): Each 10 ns reference tick credits admission tokens to every consumer. -/
  | governorTick (pkg : BitVec 8)
  /-- RATE_SHORTFALL (R56): Live rate below the fixed rate for over 1 µs counts a shortfall and may raise EV_RATE_SHORT. -/
  | rateShortfall (die : BitVec 11)
  /-- SHUNTER_ROW_START (R201): A Shunter starts the next position's row by class, deadline and command order. -/
  | shunterRowStart (cl : BitVec 16)
  /-- HUB_SEGMENT_DISPATCH (R194): A hub segment is dispatched when a partial slot is free. -/
  | hubSegmentDispatch (cl : BitVec 16)
  /-- PARTIAL_COMBINE (R191): An arrived segment partial is combined in fixed order. -/
  | partialCombine (cl : BitVec 16)
  /-- SHUNT_COMPLETE (R197): After every output write is acknowledged the SHUNT completes and raises its signal. -/
  | shuntComplete (cmd : CmdRef)
  /-- MU_TAKE_ENTRY (R231): A free matrix unit takes the next untaken Timetable entry. -/
  | muTakeEntry (die : BitVec 11) (mu : BitVec 2)
  /-- MU_TILE_START (R253): Between tiles a matrix unit picks the next tile by class, deadline and order. -/
  | muTileStart (die : BitVec 11) (mu : BitVec 2)
  /-- MU_RUN_COMPLETE (R252): After all writes are acknowledged the status record is written and the signal raised. -/
  | muRunComplete (cmd : CmdRef)
  /-- CONSIST_TILE_PASS (R275): One CHAIN-mode tile pass over slot 0 writing slot 2. -/
  | consistTilePass (die : BitVec 11) (mu : BitVec 2)
  /-- CONSIST_ITERATION_START (R276): A SINGLE-mode iteration starts with P set to all ones. -/
  | consistIterationStart (die : BitVec 11) (mu : BitVec 2)
  /-- CONSIST_LD (R277): Load and decode a slot tile into a tile register. -/
  | consistLd (die : BitVec 11) (mu : BitVec 2)
  /-- CONSIST_ST (R277): Encode and store active elements of a tile register to a slot. -/
  | consistSt (die : BitVec 11) (mu : BitVec 2)
  /-- CONSIST_FN (R277): Apply a menu function to the active elements of a tile register. -/
  | consistFn (die : BitVec 11) (mu : BitVec 2)
  /-- CONSIST_RED (R279): Reduce a tile register along rows or columns. -/
  | consistRed (die : BitVec 11) (mu : BitVec 2)
  /-- CONSIST_CST (R280): Append active elements to a slot at its running count. -/
  | consistCst (die : BitVec 11) (mu : BitVec 2)
  /-- CONSIST_XLD (R277): Expand packed slot elements back into predicated positions. -/
  | consistXld (die : BitVec 11) (mu : BitVec 2)
  /-- CONSIST_LDP (R277): AND the predicate plane with nonzero slot elements. -/
  | consistLdp (die : BitVec 11) (mu : BitVec 2)
  /-- CONSIST_STP (R277): Store the predicate plane to a slot. -/
  | consistStp (die : BitVec 11) (mu : BitVec 2)
  /-- CONSIST_RUN_COMPLETE (R283): A CONSIST_RUN writes its result word and raises its signal after all writes are acknowledged. -/
  | consistRunComplete (cmd : CmdRef)
  /-- ROUTE_SELECT (R294): Compute expert routing, gate weights, the route block and Timetable rewrites. -/
  | routeSelect (cmd : CmdRef)
  /-- ROUTE_DISPATCH (R299): Copy token rows into expert order and optionally write tags. -/
  | routeDispatch (cmd : CmdRef)
  /-- ROUTE_COMBINE (R301): Combine expert output rows back into token order. -/
  | routeCombine (cmd : CmdRef)
  /-- POINTS_BLOCK_START (R305): The Points chooses its next block by class, deadline and order. -/
  | pointsBlockStart (die : BitVec 11)
  /-- ROUTE_COMPLETE (R298): A ROUTE raises its signal after all writes and rewrites are acknowledged. -/
  | routeComplete (cmd : CmdRef)
  /-- ROUTE_TABLE_REVISION (R303): At each revision interval firmware revises replica counts and halves histograms. -/
  | routeTableRevision (pkg : BitVec 8)
  /-- SIGNAL_ADD_APPLY (R311): The home Signal box applies a SIG.ADD and releases satisfied waiters. -/
  | signalAddApply (die : BitVec 11)
  /-- SIGNAL_SET_APPLY (R311): The home Signal box applies a SIG.SET and releases satisfied waiters. -/
  | signalSetApply (die : BitVec 11)
  /-- SIGNAL_READ_APPLY (R321): The home Signal box answers a signal read after the tenant check. -/
  | signalReadApply (die : BitVec 11)
  /-- SIGNAL_WAIT_ARRIVE (R328): A wait or take reaches the home Signal box and is satisfied or joins the list. -/
  | signalWaitArrive (die : BitVec 11)
  /-- WAIT_TIMEOUT_EXPIRE (R332): A wait's timeout expires and the waiter's Signal box evaluates or sends CANCEL. -/
  | waitTimeoutExpire (w : WaiterRef)
  /-- REMOTE_WAIT_RETRY (R330): A remote wait answered NOROOM is sent again every 1 µs. -/
  | remoteWaitRetry (w : WaiterRef)
  /-- CORE_SIGNAL_RELEASE (R313): A core signal returns to unowned when no owner context and no waiter remain. -/
  | coreSignalRelease (die : BitVec 11) (idx : BitVec 16)
  /-- BLOCK_SECTION_SCAN (R341): At each scan period the detector checks stalled scopes and posts a report. -/
  | blockSectionScan (die : BitVec 11)
  /-- TRAINING_ATTEMPT (R345): A port runs DETECT through LOCK to come up, drop or fence lanes, or refuse the link. -/
  | trainingAttempt (port : BitVec 13) (obs : TrainObs)
  /-- TRAINING_RETRY_TIMER (R350): A failed or dark port is retried after 10 ms or every 10 s. -/
  | trainingRetryTimer (port : BitVec 13)
  /-- FLIT_RECEIVED (R354): A flit is decoded, checked, accepted in sequence or NAKed. -/
  | flitReceived (port : BitVec 13) (lanes : List (List (BitVec 10)))
  /-- NAK_RECEIVED (R355): A NAK makes the sender replay from ACKSEQ + 1. -/
  | nakReceived (port : BitVec 13) (ackseq : BitVec 12)
  /-- LINK_RETRAIN_TRIGGER (R356): Repeated NAKs or too many replays retrain the port. -/
  | linkRetrainTrigger (port : BitVec 13)
  /-- CANCELLER_LOCK_LOST (R356): Loss of canceller or FEC lock retrains the port. -/
  | cancellerLockLost (port : BitVec 13)
  /-- CREDIT_SYNC (R365): A CREDIT_SYNC flit after LOCK resynchronises credits. -/
  | creditSync (port : BitVec 13) (rep : CreditReport)
  /-- WIDTH_STEP (R366): A WIDTH flit narrows or widens a port at a named SEQ. -/
  | widthStep (port : BitVec 13) (w : Nat) (seq : BitVec 12)
  /-- CREDIT_AUDIT (R418): A CREDIT_AUDIT flit on a quiet channel audits link credits. -/
  | creditAudit (port : BitVec 13) (rep : CreditReport)
  /-- JUNCTION_BEAT_NAK (R367): A junction beat with a bad code or CRC is NAKed and replayed. -/
  | junctionBeatNak (die : BitVec 11) (beat : JBeat)
  /-- RD_PACKET (R131): A read request is checked at the home die and answered. -/
  | rdPacket (pk : Packet) (ecc : EccFinding)
  /-- WR_PACKET (R156): A write or write-back is checked and merged at the home die. -/
  | wrPacket (pk : Packet) (ecc : EccFinding)
  /-- AMO_PACKET (R165): An atomic is performed by the home DRAM controller's atomic unit. -/
  | amoPacket (pk : Packet)
  /-- SIG_PACKET (R310): A signal request arrives at the home Signal box. -/
  | sigPacket (pk : Packet)
  /-- CANCEL_PACKET (R333): A CANCEL removes a waiter or finds it already released. -/
  | cancelPacket (pk : Packet)
  /-- TICKET_PACKET (R83): A ticket is accepted, queued, or refused at the target die. -/
  | ticketPacket (pk : Packet)
  /-- TQUERY_PACKET (R381): A target answers a travel query ARRIVED or NOT_SEEN. -/
  | tqueryPacket (pk : Packet)
  /-- MGMT_PACKET (R503): A Turja-to-Turja management message, including relayed requests, is consumed. -/
  | mgmtPacket (pk : Packet)
  /-- EPOCH_PACKET (R551): An EPOCH announcement changes how a die treats a target die or package. -/
  | epochPacket (pk : Packet)
  /-- MAP_PACKET (R374): A die installs a newer link-state map and recomputes its route table. -/
  | mapPacket (pk : Packet)
  /-- ACK_PACKET (R377): A write acknowledgement is matched or dropped as stale. -/
  | ackPacket (pk : Packet)
  /-- DATA_PACKET (R144): Returned data fills a miss register or serves its requester. -/
  | dataPacket (pk : Packet)
  /-- AMORSP_PACKET (R377): An atomic's old value returns to its requester. -/
  | amorspPacket (pk : Packet)
  /-- SIGRSP_PACKET (R333): A signal response ends a remote read or wait with its status. -/
  | sigrspPacket (pk : Packet)
  /-- TRSP_PACKET (R87): A travel response ends the travel as ARRIVED, FULL, GONE or NOT_SEEN. -/
  | trspPacket (pk : Packet)
  /-- MAP_SEND (R374): The central station sends a new link-state map within 1 ms of a change. -/
  | mapSend (pkg : BitVec 8)
  /-- DMA (R383): A DMA command offers a chain to a die, waiting for a descriptor token. -/
  | dma (cmd : CmdRef)
  /-- DMA_CHAIN_ACCEPT (R383): A waiting DMA command is accepted when its VI's token returns. -/
  | dmaChainAccept (cmd : CmdRef)
  /-- DMA_CHAIN_START (R384): A queued chain goes to an engine with a free slot of its class. -/
  | dmaChainStart (die : BitVec 11)
  /-- DMA_DESCRIPTOR_START (R385): An engine reads and starts the next descriptor of a chain. -/
  | dmaDescriptorStart (die : BitVec 11) (eng : BitVec 3)
  /-- DMA_COPY (R392): Copy rows of bytes unchanged. -/
  | dmaCopy (die : BitVec 11) (eng : BitVec 3)
  /-- DMA_FILL (R392): Fill rows with a 32-bit pattern. -/
  | dmaFill (die : BitVec 11) (eng : BitVec 3)
  /-- DMA_PRUNE (R394): Keep the k largest elements per group and write edge format. -/
  | dmaPrune (die : BitVec 11) (eng : BitVec 3)
  /-- DMA_COMPRESS (R393): Write every nonzero element as an edge. -/
  | dmaCompress (die : BitVec 11) (eng : BitVec 3)
  /-- DMA_BIN (R395): Bin rows by degree into 33 bins. -/
  | dmaBin (die : BitVec 11) (eng : BitVec 3)
  /-- DMA_BLOCK_START (R386): At each 4 KiB boundary an engine chooses its next block. -/
  | dmaBlockStart (die : BitVec 11) (eng : BitVec 3)
  /-- DMA_DESCRIPTOR_SIGNAL (R397): A descriptor's signal is raised once its and earlier writes are acknowledged. -/
  | dmaDescriptorSignal (die : BitVec 11) (eng : BitVec 3)
  /-- DMA_CHAIN_COMPLETE (R398): A chain completes, returns its result word and releases token and slot. -/
  | dmaChainComplete (cmd : CmdRef)
  /-- VI_RESET (R406): A VI reset gates, discards, drains and releases the VI's work. -/
  | viReset (pkg : BitVec 8) (vi : BitVec 5) (scrub : BitVec 2)
  /-- VI_RESET_ZERO_OUTSTANDING (R406): Once every unit reports zero outstanding the reset releases, scrubs and returns. -/
  | viResetZeroOutstanding (pkg : BitVec 8) (vi : BitVec 5)
  /-- VI_RESET_FORCE_TIMER (R407): After 2 ms unacknowledged writes are retired by force with EV_RESET_FORCED. -/
  | viResetForceTimer (pkg : BitVec 8) (vi : BitVec 5)
  /-- TAG_QUARANTINE_END (R407): A force-retired tag becomes reusable after 100 ms. -/
  | tagQuarantineEnd (die : BitVec 11) (tag : BitVec 12)
  /-- VI_SCRUB_COMPLETE (R408): The reset scrub's last write is acknowledged and the VI returns. -/
  | viScrubComplete (pkg : BitVec 8) (vi : BitVec 5)
  /-- VF_ENABLE_SET (R401): Setting VF Enable makes virtual functions FREE. -/
  | vfEnableSet (pkg : BitVec 8) (pf16 : Bool)
  /-- VF_ENABLE_CLEAR (R410): Clearing VF Enable resets, unbinds and disables virtual functions. -/
  | vfEnableClear (pkg : BitVec 8) (pf16 : Bool)
  /-- FUNCTION_LEVEL_RESET (R466): A PCIe function-level reset performs the VI or physical-function reset. -/
  | functionLevelReset (pkg : BitVec 8) (vi : BitVec 5)
  /-- HARDWARE_LEDGER_AUDIT (R418): A quiescent beat audits a lane, cluster or thread-processor ledger. -/
  | hardwareLedgerAudit (die : BitVec 11) (led : LedgerUnit)
  /-- FORCED_LEDGER_AUDIT (R419): With no quiescent beat for 1 ms a grant is withheld and the ledger audited. -/
  | forcedLedgerAudit (die : BitVec 11) (led : LedgerUnit)
  /-- SHARE_LEDGER_AUDIT (R418): Token and pool-signal ledgers are audited every 100 ms. -/
  | shareLedgerAudit (die : BitVec 11) (ledger : BitVec 4)
  /-- SUBSTATION_START (R425): A Substation begins its 2 ms soft-start ramp. -/
  | substationStart (die : BitVec 11)
  /-- SOFT_START_CHECKPOINT (R426): A 250 µs checkpoint tests the ramp envelope for a short. -/
  | softStartCheckpoint (die : BitVec 11) (mv : Nat) (ocUs : Nat)
  /-- SOFT_START_RETRY (R426): 100 ms after a short shutdown a new soft-start attempt begins, or the Substation latches off. -/
  | softStartRetry (die : BitVec 11)
  /-- SUBSTATION_OVERCURRENT (R428): 200 A for 20 µs in service shuts the Substation down and resets the die. -/
  | substationOvercurrent (die : BitVec 11) (amps : Nat) (us : Nat)
  /-- POWER_MEASURE (R424): Domain and input power are measured every 1 µs. -/
  | powerMeasure (pkg : BitVec 8) (input : Nat) (doms : List Nat)
  /-- VOLTAGE_COMMAND (R430): A voltage command starts or retargets a slew under the safe-rate ceiling. -/
  | voltageCommand (die : BitVec 11) (op : BitVec 4)
  /-- SLEW_SETTLED (R431): A slew settles, the ceiling is removed and a pin replies OK. -/
  | slewSettled (die : BitVec 11) (mv : Nat)
  /-- POWER_INTERVAL (R434): Each 1 ms boundary recomputes grants, applies levers and moves thermal ceilings. -/
  | powerInterval (pkg : BitVec 8) (proj : PowerProj)
  /-- HARD_LIMIT_TRIP (R445): Input power above 1,500 W over 10 µs throttles hard. -/
  | hardLimitTrip (pkg : BitVec 8)
  /-- HARD_THROTTLE_RELEASE (R445): Power below 95% of the limit for 100 µs releases hard throttling. -/
  | hardThrottleRelease (pkg : BitVec 8)
  /-- THERMAL_HARD (R448): A reading of 105 °C paces the die to 512/4,096 and raises EV_THERMAL_HARD. -/
  | thermalHard (die : BitVec 11)
  /-- THERMAL_HARD_RELEASE (R448): Below 100 °C for 100 µs the thermal pacing ends. -/
  | thermalHardRelease (die : BitVec 11)
  /-- THERMAL_TRIP (R449): 112 °C for 100 µs shuts every Substation down and enters beacon phase. -/
  | thermalTrip (die : BitVec 11) (m : BitVec 3)
  /-- STACK_TEMP_REPORT (R450): A DRAM stack reports its temperature and refresh or bandwidth limits follow. -/
  | stackTempReport (die : BitVec 11) (temp : BitVec 8)
  /-- WATERMARK_COMPARE (R453): Every 1 µs a watermark is compared, crossing or re-arming. -/
  | watermarkCompare (pkg : BitVec 8) (k : BitVec 4)
  /-- HINT_WINDOW_START (R457): A hinted window begins on a die. -/
  | hintWindowStart (die : BitVec 11)
  /-- HINT_WINDOW_END (R458): A hinted window ends and the next overlapping window governs. -/
  | hintWindowEnd (die : BitVec 11)
  /-- ENERGY_SLICE (R460): Each 1 ms slice charges energy to VIs and UNATTRIBUTED. -/
  | energySlice (pkg : BitVec 8)
  /-- MAILBOX_GO (R473): Writing GO hands the request buffer to firmware. -/
  | mailboxGo (pkg : BitVec 8) (vi : BitVec 5)
  /-- DROPPED_CLEAR (R472): Writing 1 to DROPPED clears it. -/
  | droppedClear (pkg : BitVec 8) (vi : BitVec 5)
  /-- RING_DOORBELL_WRITE (R485): A TAIL write posts commands or is dropped as an overrun. -/
  | ringDoorbellWrite (pkg : BitVec 8) (vi : BitVec 5) (ring : BitVec 4) (tail : BitVec 32)
  /-- REGISTER_WRITE (R469): A write to a window A location with no behaviour of its own. -/
  | registerWrite (pkg : BitVec 8) (vi : BitVec 5) (off : BitVec 14) (size : Nat) (val : BitVec 64)
  /-- WINDOW_B_READ (R481): A window B read translates and reads home memory or returns all ones. -/
  | windowBRead (pkg : BitVec 8) (vi : BitVec 5) (woff : BitVec 36) (len : Nat)
  /-- WINDOW_B_WRITE (R481): A window B write translates and writes home memory or is dropped. -/
  | windowBWrite (pkg : BitVec 8) (vi : BitVec 5) (woff : BitVec 36) (bytes : List (BitVec 8))
  /-- ATOMIC_FETCHADD (R467): A PCIe FetchAdd through window B is performed as AMO ADD. -/
  | atomicFetchadd (pkg : BitVec 8) (vi : BitVec 5) (woff : BitVec 36) (wide : Bool) (val : BitVec 64)
  /-- ATOMIC_CAS (R467): A PCIe CAS through window B is performed as AMO CAS. -/
  | atomicCas (pkg : BitVec 8) (vi : BitVec 5) (woff : BitVec 36) (wide : Bool) (cmp : BitVec 64) (val : BitVec 64)
  /-- ATOMIC_UNSUPPORTED (R467): A Swap, 128-bit CAS or yard-SRAM AtomicOp receives Unsupported Request. -/
  | atomicUnsupported (pkg : BitVec 8) (vi : BitVec 5) (woff : BitVec 36) (kind : AtomicKind)
  /-- RING_FETCH (R487): The ring fetcher reads posted commands, accepting them up to 8 held per ring. -/
  | ringFetch (pkg : BitVec 8) (pdie : Bool)
  /-- COALESCE_TIMER (R499): The coalescing time passes and the ring's MSI-X vector is sent. -/
  | coalesceTimer (pkg : BitVec 8) (vi : BitVec 5) (ring : BitVec 4)
  /-- NOP_COMMAND (R492): A ring NOP completes at once. -/
  | nopCommand (cmd : CmdRef)
  /-- LAUNCH (R492): Start COUNT threads and complete when all have ended. -/
  | launch (cmd : CmdRef)
  /-- TRAVEL_POLICY (R492): Set the VI's arrival-queue limit on the named dies. -/
  | travelPolicy (cmd : CmdRef)
  /-- MU_RUN (R233): Start a Timetable walk on the masked matrix units or refuse it. -/
  | muRun (cmd : CmdRef)
  /-- CONSIST_RUN (R274): Start a standalone Consist run or refuse it. -/
  | consistRun (cmd : CmdRef)
  /-- SHUNT (R187): Start a neighbour walk over the die mask or refuse it. -/
  | shunt (cmd : CmdRef)
  /-- SIG_SET_COMMAND (R326): Perform SIG.ADD or SIG.SET on a handle after earlier commands of the ring. -/
  | sigSetCommand (cmd : CmdRef)
  /-- SIG_WAIT_COMMAND (R327): Hold the ring while waiting or taking on a signal. -/
  | sigWaitCommand (cmd : CmdRef)
  /-- HINT_PHASE (R457): Record a phase hint window for the named dies. -/
  | hintPhase (cmd : CmdRef)
  /-- HINT_PHASE_END (R457): Close the VI's open hint windows on the named dies. -/
  | hintPhaseEnd (cmd : CmdRef)
  /-- SET_OP (R455): Record a preferred OP for a phase on the named dies. -/
  | setOp (cmd : CmdRef)
  /-- FENCE_COMMAND (R492): Complete when every earlier command of the ring, or the VI, has completed. -/
  | fenceCommand (cmd : CmdRef)
  /-- PERST0_ASSERT (R582): A PERST0# low of 100 µs resets the package without PRESERVE. -/
  | perst0Assert (pkg : BitVec 8) (us : Nat)
  /-- PERST1_ASSERT (R582): A PERST1# low of 100 µs resets VI 16's function. -/
  | perst1Assert (pkg : BitVec 8) (us : Nat)
  /-- SMBUS_GO (R502): A send-byte 0x08 hands the tray-controller request buffer to firmware. -/
  | smbusGo (pkg : BitVec 8)
  /-- SMBUS_CLEAR_DROPPED (R502): A send-byte 0x09 clears DROPPED. -/
  | smbusClearDropped (pkg : BitVec 8)
  /-- IDENTIFY (R518): Return package identity, state, epochs and central station. -/
  | identify (pkg : BitVec 8) (mb : BitVec 6)
  /-- POSITION (R518): Return strapped position, boot and port mode. -/
  | position (pkg : BitVec 8) (mb : BitVec 6)
  /-- VI_BIND (R402): Bind a FREE VI to a tenant with ceiling and shares. -/
  | viBind (pkg : BitVec 8) (mb : BitVec 6)
  /-- VI_UNBIND (R406): Reset a VI and return it to FREE. -/
  | viUnbind (pkg : BitVec 8) (mb : BitVec 6)
  /-- VI_RESET_MESSAGE (R519): Request a VI reset with a scrub choice. -/
  | viResetMessage (pkg : BitVec 8) (mb : BitVec 6)
  /-- VI_MOVE (R415): Repartition token or pool-signal shares between VIs. -/
  | viMove (pkg : BitVec 8) (mb : BitVec 6)
  /-- VI_CEILING (R519): Set a VI's class ceiling. -/
  | viCeiling (pkg : BitVec 8) (mb : BitVec 6)
  /-- VI_WINDOW (R479): Set the window B base. -/
  | viWindow (pkg : BitVec 8) (mb : BitVec 6)
  /-- VI_TRAP (R121): Set the VI's trap entry for arriving threads. -/
  | viTrap (pkg : BitVec 8) (mb : BitVec 6)
  /-- VI_QUERY (R519): Return a VI's state, shares and layout values. -/
  | viQuery (pkg : BitVec 8) (mb : BitVec 6)
  /-- SECTION_MAP (R135): Map sections in all copies and wait for old translations to drain. -/
  | sectionMap (pkg : BitVec 8) (mb : BitVec 6)
  /-- SECTION_UNMAP (R138): Unmap sections and wait for old translations to drain. -/
  | sectionUnmap (pkg : BitVec 8) (mb : BitVec 6)
  /-- SECTION_READ (R520): Return section entries. -/
  | sectionRead (pkg : BitVec 8) (mb : BitVec 6)
  /-- SECTION_TABLES (R520): Return free and held level-2 table counts. -/
  | sectionTables (pkg : BitVec 8) (mb : BitVec 6)
  /-- RING_CONFIGURE (R483): Configure a ring and make it RUNNING. -/
  | ringConfigure (pkg : BitVec 8) (mb : BitVec 6)
  /-- RING_RESUME (R495): Return a STOPPED ring to RUNNING. -/
  | ringResume (pkg : BitVec 8) (mb : BitVec 6)
  /-- RING_ABORT (R495): Refuse every waiting command and return the ring to RUNNING. -/
  | ringAbort (pkg : BitVec 8) (mb : BitVec 6)
  /-- RING_DISABLE (R522): Disable an idle ring. -/
  | ringDisable (pkg : BitVec 8) (mb : BitVec 6)
  /-- RING_COALESCE (R522): Set a ring's coalescing count and time. -/
  | ringCoalesce (pkg : BitVec 8) (mb : BitVec 6)
  /-- RING_QUERY (R522): Return a ring's state and pointers. -/
  | ringQuery (pkg : BitVec 8) (mb : BitVec 6)
  /-- SIGNAL_ALLOC (R314): Allocate pool signals from the tenant's share. -/
  | signalAlloc (pkg : BitVec 8) (mb : BitVec 6)
  /-- SIGNAL_FREE (R315): Free pool signals, ending their waits. -/
  | signalFree (pkg : BitVec 8) (mb : BitVec 6)
  /-- SIGNAL_TIMEOUT (R331): Set the VI's default wait timeout. -/
  | signalTimeout (pkg : BitVec 8) (mb : BitVec 6)
  /-- SIGNAL_EVENTS (R337): Read and remove signal event records. -/
  | signalEvents (pkg : BitVec 8) (mb : BitVec 6)
  /-- SIGNAL_REPORTS (R342): Read and remove a block-section report. -/
  | signalReports (pkg : BitVec 8) (mb : BitVec 6)
  /-- SIGNAL_SCAN (R339): Set the block-section scan period. -/
  | signalScan (pkg : BitVec 8) (mb : BitVec 6)
  /-- SIGNAL_STATUS (R523): Return a signal's count and status word. -/
  | signalStatus (pkg : BitVec 8) (mb : BitVec 6)
  /-- POWER_CAP (R433): Set the host or tray cap and wait until it is met. -/
  | powerCap (pkg : BitVec 8) (mb : BitVec 6)
  /-- POWER_PIN (R431): Pin or unpin dies to an OP and wait for settling. -/
  | powerPin (pkg : BitVec 8) (mb : BitVec 6)
  /-- POWER_PRIORITY (R435): Set the domain priority order and link minimum width. -/
  | powerPriority (pkg : BitVec 8) (mb : BitVec 6)
  /-- POWER_FIXED (R54): Set or clear fixed-rate mode. -/
  | powerFixed (pkg : BitVec 8) (mb : BitVec 6)
  /-- POWER_WATERMARK (R452): Set, arm or disable a watermark. -/
  | powerWatermark (pkg : BitVec 8) (mb : BitVec 6)
  /-- POWER_NOTICES (R454): Return the 16 watermark notices. -/
  | powerNotices (pkg : BitVec 8) (mb : BitVec 6)
  /-- POWER_ACK (R454): Acknowledge the sender's watermark notices. -/
  | powerAck (pkg : BitVec 8) (mb : BitVec 6)
  /-- POWER_READINGS (R524): Return power, cap, levers, ceilings and targets. -/
  | powerReadings (pkg : BitVec 8) (mb : BitVec 6)
  /-- POWER_MONITORS (R47): Return ring monitor records, re-arming RATE_MIN and EV_RATE_SHORT. -/
  | powerMonitors (pkg : BitVec 8) (mb : BitVec 6)
  /-- POWER_FUSES (R524): Return a die's fused voltage table and coefficients. -/
  | powerFuses (pkg : BitVec 8) (mb : BitVec 6)
  /-- POWER_ENERGY (R461): Return energy counts. -/
  | powerEnergy (pkg : BitVec 8) (mb : BitVec 6)
  /-- BOOKS_LEDGER (R416): Return share, held and withdraw counts of a ledger. -/
  | booksLedger (pkg : BitVec 8) (mb : BitVec 6)
  /-- BOOKS_FAULTS (R420): Read and remove ledger fault records. -/
  | booksFaults (pkg : BitVec 8) (mb : BitVec 6)
  /-- BOOKS_DEADLINES (R35): Return missed-deadline counts per class. -/
  | booksDeadlines (pkg : BitVec 8) (mb : BitVec 6)
  /-- FAULT_EVENTS (R514): Read and remove entries of the mailbox's event queue. -/
  | faultEvents (pkg : BitVec 8) (mb : BitVec 6)
  /-- FAULT_THREADS (R90): Read and remove thread fault records. -/
  | faultThreads (pkg : BitVec 8) (mb : BitVec 6)
  /-- FAULT_MEMORY (R154): Read and remove memory fault records. -/
  | faultMemory (pkg : BitVec 8) (mb : BitVec 6)
  /-- FAULT_RELEASE (R76): Free a HALTED thread of the VI. -/
  | faultRelease (pkg : BitVec 8) (mb : BitVec 6)
  /-- FAULT_PACKAGE (R526): Return beacon and per-die service causes. -/
  | faultPackage (pkg : BitVec 8) (mb : BitVec 6)
  /-- RESET_PACKAGE (R548): Reset the package with or without PRESERVE. -/
  | resetPackage (pkg : BitVec 8) (mb : BitVec 6)
  /-- FIRMWARE_QUERY (R527): Return firmware revisions and staging state. -/
  | firmwareQuery (pkg : BitVec 8) (mb : BitVec 6)
  /-- FIRMWARE_STAGE (R527): Append image bytes to the staging area. -/
  | firmwareStage (pkg : BitVec 8) (mb : BitVec 6)
  /-- FIRMWARE_STAGE_HOST (R527): Stage an image by reading host memory. -/
  | firmwareStageHost (pkg : BitVec 8) (mb : BitVec 6)
  /-- FIRMWARE_COMMIT (R559): Check the staged image and swap each Turja core, die 0 last. -/
  | firmwareCommit (pkg : BitVec 8) (mb : BitVec 6) (chk : ImageCheck)
  /-- FIRMWARE_DISCARD (R527): Return staging to idle. -/
  | firmwareDiscard (pkg : BitVec 8) (mb : BitVec 6)
  /-- TURJA_SWAP_TIMEOUT (R559): A core whose new image does not start in 20 ms resumes the earlier one. -/
  | turjaSwapTimeout (die : BitVec 11)
  /-- LINK_PORT (R529): Return a port's state and counts. -/
  | linkPort (pkg : BitVec 8) (mb : BitVec 6)
  /-- LINK_RETRAIN (R350): Retrain a port and wait for the attempts. -/
  | linkRetrain (pkg : BitVec 8) (mb : BitVec 6)
  /-- LINK_UNFENCE (R348): Clear lane or junction fences, then retrain. -/
  | linkUnfence (pkg : BitVec 8) (mb : BitVec 6)
  /-- LINK_ROUTES (R371): Return half of a die's route table. -/
  | linkRoutes (pkg : BitVec 8) (mb : BitVec 6)
  /-- LINK_JUNCTIONS (R529): Return junction states and replay counts. -/
  | linkJunctions (pkg : BitVec 8) (mb : BitVec 6)
  /-- POINTS_GRANT (R302): Grant or release a route table to a VI. -/
  | pointsGrant (pkg : BitVec 8) (mb : BitVec 6)
  /-- POINTS_INTERVAL (R303): Set the replica revision interval. -/
  | pointsInterval (pkg : BitVec 8) (mb : BitVec 6)
  /-- POINTS_PIN (R530): Pin or unpin an expert's replica count. -/
  | pointsPin (pkg : BitVec 8) (mb : BitVec 6)
  /-- POINTS_READ (R530): Return histograms and replica counts. -/
  | pointsRead (pkg : BitVec 8) (mb : BitVec 6)
  /-- POINTS_CLEAR (R530): Clear a route table's histograms. -/
  | pointsClear (pkg : BitVec 8) (mb : BitVec 6)
  /-- DIAG_COUNTERS (R154): Return corrected-event counters. -/
  | diagCounters (pkg : BitVec 8) (mb : BitVec 6)
  /-- DIAG_UNITS (R532): Return hardware gates and unit table. -/
  | diagUnits (pkg : BitVec 8) (mb : BitVec 6)
  /-- DIAG_SET_UNIT (R558): Take a unit out of service or return it after test. -/
  | diagSetUnit (pkg : BitVec 8) (mb : BitVec 6)
  /-- DIAG_ECHO (R532): Return the request data. -/
  | diagEcho (pkg : BitVec 8) (mb : BitVec 6)
  /-- WAITED_MESSAGE_REPLY (R512): A message that named a wait is answered when its wait ends. -/
  | waitedMessageReply (pkg : BitVec 8) (mb : BitVec 6)
  /-- POWER_GOOD (R568): Power-good rises and strap phase and start-up begin. -/
  | powerGood (pkg : BitVec 8)
  /-- POWER_GOOD_LOSS (R569): Power-good falls and all package state is lost. -/
  | powerGoodLoss (pkg : BitVec 8)
  /-- VIN_OVERVOLTAGE (R570): VIN above 13.5 V for 10 µs is package-fatal. -/
  | vinOvervoltage (pkg : BitVec 8) (mv : Nat) (us : Nat)
  /-- STRAP_SAMPLE (R573): Strap pins are sampled at their scheduled times. -/
  | strapSample (pkg : BitVec 8) (levels : List PinLevel)
  /-- STRAP_TEST (R573): A strap pin is tested for shorts and opens for 200 µs. -/
  | strapTest (pkg : BitVec 8) (pin : BitVec 4) (shiftMv : Nat) (crosses : Bool)
  /-- STRAP_LATCH (R573): At 10 ms straps are latched or safe defaults taken. -/
  | strapLatch (pkg : BitVec 8)
  /-- IMAGE_LOADED (R536): The boot image read completes and is checked, starting run phase. -/
  | imageLoaded (pkg : BitVec 8) (img : ImageInfo)
  /-- HEARTBEAT_TOGGLE (R577): STN3 heartbeat toggles every 500 ms while the head Turja checks in. -/
  | heartbeatToggle (pkg : BitVec 8)
  /-- BEACON_QUARTER (R578): Every 250 ms the beacon shows the next quarter of its code. -/
  | beaconQuarter (pkg : BitVec 8)
  /-- REGISTRATION (R540): A head Turja registers with the lead candidates when its first port is up. -/
  | registration (pkg : BitVec 8)
  /-- JOIN_WINDOW_EXPIRE (R542): Map version 1 is issued when all racks register or after 2 s. -/
  | joinWindowExpire (pkg : BitVec 8)
  /-- TICK_ALIGN (R543): The central station sends its reference tick count every 1 s. -/
  | tickAlign (pkg : BitVec 8)
  /-- CENTRAL_STATION_TAKEOVER (R544): The next lead candidate becomes central station and rebuilds the roster. -/
  | centralStationTakeover (pkg : BitVec 8)
  /-- DIE_RESET (R546): A die reset increments its epoch and restores the die to service. -/
  | dieReset (die : BitVec 11)
  /-- DIE_RESET_TIMEOUT (R547): A die not back within 50 ms is held out of service. -/
  | dieResetTimeout (die : BitVec 11)
  /-- DIE_RESET_COMPLETE (R546): The reset die returns and EPOCH IN_SERVICE is sent. -/
  | dieResetComplete (die : BitVec 11)
  /-- PACKAGE_RESET_COMPLETE (R549): A package reset ends with package and die EPOCH announcements. -/
  | packageResetComplete (pkg : BitVec 8)
  /-- PACKAGE_RESET_TIMEOUT (R549): A package reset not complete in 200 ms enters beacon phase. -/
  | packageResetTimeout (pkg : BitVec 8)
  /-- RECONCILE_PASS (R556): Every 5 ms the Turja core compares hardware gates with its unit table. -/
  | reconcilePass (die : BitVec 11) (selfTest : List Nat)
  /-- DRAIN_TIMEOUT (R557): Work still on a drained unit after 2 ms completes as ERROR. -/
  | drainTimeout (die : BitVec 11) (unit : BitVec 9)
  /-- UNASSIGNED_OP (R95): A thread issues an instruction word whose OP is unassigned, such as an all-zero word, and raises ILLEGAL. -/
  | unassignedOp (th : BitVec 23) (word : BitVec 64)
  /-- SMBUS_BLOCK_WRITE (R502): A management-bus block write stores 32 request bytes, or is dropped and sets DROPPED on a bad check or while OWNED. -/
  | smbusBlockWrite (pkg : BitVec 8) (k : BitVec 3) (bytes : List (BitVec 8)) (pecOk : Bool)
  /-- PERST0_DEASSERT (R582): PERST0# rises and the die 0 PCIe port leaves reset and retrains. -/
  | perst0Deassert (pkg : BitVec 8)
  /-- PERST1_DEASSERT (R582): PERST1# rises and the die 4 PCIe port retrains. -/
  | perst1Deassert (pkg : BitVec 8)
  /-- TURJA_SWAP_DONE (R559): A Turja core's new image starts within 20 ms, and the die resumes deferred reconciliation, audits and event delivery before the next core swaps. -/
  | turjaSwapDone (die : BitVec 11)
  /-- PSEUDO_CHANNEL_POWER_DOWN (R440): Under the DRAM power-down lever, a pseudo-channel that has been idle for 100 ns enters power-down. -/
  | pseudoChannelPowerDown (die : BitVec 11) (pc : BitVec 5)
  deriving DecidableEq, Repr

end Sys2Proof
end

