-- ==== Sys2Proof/WellFormed.lean ====
section
/-! DEFINITION. Which commands are well formed: operands that name a unit or carry bytes name one that the spec gives (R14, R41, R344,
R353, R472, R502, R516, R573, R589) and carry as many bytes as it says. -/
set_option Elab.async false
namespace Sys2Proof

/-- The payload's byte strings have the lengths of R358, R359. -/
def Payload.wf : Payload → Bool
  | .wr _ _ b _ => b.length == 128
  | .wrBits _ m b => m.length == 128 && b.length == 128
  | .data _ _ b => b.length == 128
  | .ticket _ t => t.l.length == 8 && t.p.length == 8 && t.t.length == 15
  | .mgmt (.relayReq mb req) => decide (mb ≤ 32) && req.length == 256
  | .mgmt (.relayRsp mb rsp) => decide (mb ≤ 32) && rsp.length == 256
  | _ => true

/-- R360: seven channels carry packets. -/
def Packet.wf (p : Packet) : Bool := decide (p.vc.toNat < 7) && p.body.wf

/-- A mailbox: 32 of the virtual interfaces, and the tray controller's (R472, R502). -/
def mailboxOk (mb : BitVec 6) : Bool := decide (mb.toNat ≤ 32)

/-- R14, R413: a ledger's unit exists. -/
def LedgerUnit.wf : LedgerUnit → Bool
  | .lane _ _ => true
  | .miss _ => true
  | .ctx _ _ => true
  | .junction j vc => decide (j.toNat < 3) && decide (vc.toNat < 7)

/-- A command that names units and lengths the spec gives. -/
def Instr.wf : Instr → Bool
  | .flitReceived _ lanes => lanes.length == 4 && (lanes.map (·.length)).foldl (· + ·) 0 == 220
  | .junctionBeatNak _ b => decide (b.j.toNat < 3) && decide (b.slots.length ≤ 64)
  | .smbusBlockWrite _ _ bytes _ => bytes.length == 32
  | .strapSample _ levels => levels.length == 10
  | .strapTest _ pin _ _ => decide (2 ≤ pin.toNat) && decide (pin.toNat ≤ 11)
  | .dramRefresh _ pc _ => decide (pc.toNat < 32)
  | .registerWrite _ _ _ size _ => size == 1 || size == 2 || size == 4 || size == 8
  | .trainingAttempt _ obs => obs.lanes.length == 4
  | .widthStep _ w _ => decide (1 ≤ w) && decide (w ≤ 4)
  | .drainTimeout _ unit => decide (unit.toNat < 64)
  | .rdPacket p _ => p.wf
  | .wrPacket p _ => p.wf
  | .amoPacket p => p.wf
  | .sigPacket p => p.wf
  | .cancelPacket p => p.wf
  | .ticketPacket p => p.wf
  | .tqueryPacket p => p.wf
  | .mgmtPacket p => p.wf
  | .epochPacket p => p.wf
  | .mapPacket p => p.wf
  | .ackPacket p => p.wf
  | .dataPacket p => p.wf
  | .amorspPacket p => p.wf
  | .sigrspPacket p => p.wf
  | .trspPacket p => p.wf
  | .identify _ mb => mailboxOk mb
  | .position _ mb => mailboxOk mb
  | .viBind _ mb => mailboxOk mb
  | .viUnbind _ mb => mailboxOk mb
  | .viResetMessage _ mb => mailboxOk mb
  | .viMove _ mb => mailboxOk mb
  | .viCeiling _ mb => mailboxOk mb
  | .viWindow _ mb => mailboxOk mb
  | .viTrap _ mb => mailboxOk mb
  | .viQuery _ mb => mailboxOk mb
  | .sectionMap _ mb => mailboxOk mb
  | .sectionUnmap _ mb => mailboxOk mb
  | .sectionRead _ mb => mailboxOk mb
  | .sectionTables _ mb => mailboxOk mb
  | .ringConfigure _ mb => mailboxOk mb
  | .ringResume _ mb => mailboxOk mb
  | .ringAbort _ mb => mailboxOk mb
  | .ringDisable _ mb => mailboxOk mb
  | .ringCoalesce _ mb => mailboxOk mb
  | .ringQuery _ mb => mailboxOk mb
  | .signalAlloc _ mb => mailboxOk mb
  | .signalFree _ mb => mailboxOk mb
  | .signalTimeout _ mb => mailboxOk mb
  | .signalEvents _ mb => mailboxOk mb
  | .signalReports _ mb => mailboxOk mb
  | .signalScan _ mb => mailboxOk mb
  | .signalStatus _ mb => mailboxOk mb
  | .powerCap _ mb => mailboxOk mb
  | .powerPin _ mb => mailboxOk mb
  | .powerPriority _ mb => mailboxOk mb
  | .powerFixed _ mb => mailboxOk mb
  | .powerWatermark _ mb => mailboxOk mb
  | .powerNotices _ mb => mailboxOk mb
  | .powerAck _ mb => mailboxOk mb
  | .powerReadings _ mb => mailboxOk mb
  | .powerMonitors _ mb => mailboxOk mb
  | .powerFuses _ mb => mailboxOk mb
  | .powerEnergy _ mb => mailboxOk mb
  | .booksLedger _ mb => mailboxOk mb
  | .booksFaults _ mb => mailboxOk mb
  | .booksDeadlines _ mb => mailboxOk mb
  | .faultEvents _ mb => mailboxOk mb
  | .faultThreads _ mb => mailboxOk mb
  | .faultMemory _ mb => mailboxOk mb
  | .faultRelease _ mb => mailboxOk mb
  | .faultPackage _ mb => mailboxOk mb
  | .resetPackage _ mb => mailboxOk mb
  | .firmwareQuery _ mb => mailboxOk mb
  | .firmwareStage _ mb => mailboxOk mb
  | .firmwareStageHost _ mb => mailboxOk mb
  | .firmwareCommit _ mb _ => mailboxOk mb
  | .firmwareDiscard _ mb => mailboxOk mb
  | .linkPort _ mb => mailboxOk mb
  | .linkRetrain _ mb => mailboxOk mb
  | .linkUnfence _ mb => mailboxOk mb
  | .linkRoutes _ mb => mailboxOk mb
  | .linkJunctions _ mb => mailboxOk mb
  | .pointsGrant _ mb => mailboxOk mb
  | .pointsInterval _ mb => mailboxOk mb
  | .pointsPin _ mb => mailboxOk mb
  | .pointsRead _ mb => mailboxOk mb
  | .pointsClear _ mb => mailboxOk mb
  | .diagCounters _ mb => mailboxOk mb
  | .diagUnits _ mb => mailboxOk mb
  | .diagSetUnit _ mb => mailboxOk mb
  | .diagEcho _ mb => mailboxOk mb
  | .waitedMessageReply _ mb => mailboxOk mb
  | .windowBWrite _ _ _ bytes => decide (0 < bytes.length)
  | .windowBRead _ _ _ len => decide (0 < len)
  | _ => true

end Sys2Proof
end

