-- ==== Sys2Proof/Decode.lean ====
section
/-! DEFINITION. Command words: no row of spec/opcode_table.json gives bits, so no word spells a command (log 17). The words that a thread
fetches (R91) are decoded here: their fields (R92), and the instruction that each word spells by the opcode tables. -/
set_option Elab.async false
namespace Sys2Proof

/-- The command that a word spells by the table's bits: none. -/
def decodeTableWord (_nbits _w : Nat) : Option Instr := none

/-! ### Fields of an instruction word (R92) -/

def wOp (w : BitVec 64) : Nat := (w.extractLsb' 56 8).toNat
def wRd (w : BitVec 64) : BitVec 6 := w.extractLsb' 50 6
def wRa (w : BitVec 64) : BitVec 6 := w.extractLsb' 44 6
/-- RB; FN6 in immediate forms. -/
def wRb (w : BitVec 64) : BitVec 6 := w.extractLsb' 38 6
/-- RC; MOD6 in M forms. -/
def wRc (w : BitVec 64) : BitVec 6 := w.extractLsb' 32 6
def wImm (w : BitVec 64) : BitVec 32 := w.extractLsb' 0 32
def wFn (w : BitVec 64) : Nat := (w.extractLsb' 24 8).toNat
def wMod (w : BitVec 64) : BitVec 8 := w.extractLsb' 16 8
def wSf (w : BitVec 64) : Bool := w.getLsbD 0

/-! ### The opcode tables (R102, R104, R107, R108, R112, R114, R117) -/

/-- OP 0x01. -/
def decodeAlu (th : BitVec 23) (w : BitVec 64) : Option Instr :=
  let d := wRd w
  let a := wRa w
  let b := wRb w
  let f := wSf w
  match wFn w with
  | 0x00 => some (.add th d a b f)
  | 0x01 => some (.sub th d a b f)
  | 0x02 => some (.and th d a b f)
  | 0x03 => some (.or th d a b f)
  | 0x04 => some (.xor th d a b f)
  | 0x05 => some (.andn th d a b f)
  | 0x06 => some (.shl th d a b f)
  | 0x07 => some (.shr th d a b f)
  | 0x08 => some (.sar th d a b f)
  | 0x09 => some (.ror th d a b f)
  | 0x0A => some (.min th d a b f)
  | 0x0B => some (.max th d a b f)
  | 0x0C => some (.minu th d a b f)
  | 0x0D => some (.maxu th d a b f)
  | 0x0E => some (.slt th d a b f)
  | 0x0F => some (.sltu th d a b f)
  | 0x10 => some (.clz th d a f)
  | 0x11 => some (.ctz th d a f)
  | 0x12 => some (.popc th d a f)
  | 0x13 => some (.bswap th d a f)
  | _ => none

/-- OP 0x02. -/
def decodeMul (th : BitVec 23) (w : BitVec 64) : Option Instr :=
  let d := wRd w
  let a := wRa w
  let b := wRb w
  let f := wSf w
  match wFn w with
  | 0x00 => some (.mul th d a b f)
  | 0x01 => some (.mulh th d a b f)
  | 0x02 => some (.mulhu th d a b f)
  | 0x03 => some (.div th d a b f)
  | 0x04 => some (.divu th d a b f)
  | 0x05 => some (.rem th d a b f)
  | 0x06 => some (.remu th d a b f)
  | 0x07 => some (.madd th d a b (wRc w) f)
  | _ => none

/-- OP 0x10. -/
def decodeFp (th : BitVec 23) (w : BitVec 64) : Option Instr :=
  let d := wRd w
  let a := wRa w
  let b := wRb w
  let m := wMod w
  match wFn w with
  | 0x00 => some (.fadd th d a b m)
  | 0x01 => some (.fsub th d a b m)
  | 0x02 => some (.fmul th d a b m)
  | 0x03 => some (.ffma th d a b (wRc w) m)
  | 0x04 => some (.fmin th d a b m)
  | 0x05 => some (.fmax th d a b m)
  | 0x06 => some (.fabs th d a m)
  | 0x07 => some (.fneg th d a m)
  | 0x08 => some (.fdiv th d a b m)
  | 0x09 => some (.fsqrt th d a m)
  | _ => none

/-- OP 0x18. -/
def decodePacked (th : BitVec 23) (w : BitVec 64) : Option Instr :=
  let d := wRd w
  let a := wRa w
  let b := wRb w
  let c := wRc w
  let m := wMod w
  let f := wSf w
  match wFn w with
  | 0x00 => some (.padd th d a b c m f)
  | 0x01 => some (.psub th d a b c m f)
  | 0x02 => some (.pmin th d a b c m f)
  | 0x03 => some (.pmax th d a b c m f)
  | 0x04 => some (.pminu th d a b c m f)
  | 0x05 => some (.pmaxu th d a b c m f)
  | _ => none

/-- OP 0x1A. -/
def decodeMask (th : BitVec 23) (w : BitVec 64) : Option Instr :=
  let d := wRd w
  let a := wRa w
  let f := wSf w
  match wFn w with
  | 0x00 => some (.mpop th d a f)
  | 0x01 => some (.mfirst th d a f)
  | 0x02 => some (.mlast th d a f)
  | 0x03 => some (.mrange th d a f)
  | _ => none

/-- OP 0x28. -/
def decodeAmo (th : BitVec 23) (w : BitVec 64) : Option Instr :=
  let d := wRd w
  let a := wRa w
  let b := wRb w
  let m := wMod w
  match wFn w with
  | 0x00 => some (.amoAdd th d a b m)
  | 0x01 => some (.amoFadd32 th d a b m)
  | 0x02 => some (.amoMin th d a b m)
  | 0x03 => some (.amoMax th d a b m)
  | 0x04 => some (.amoMinu th d a b m)
  | 0x05 => some (.amoMaxu th d a b m)
  | 0x06 => some (.amoOr th d a b m)
  | 0x07 => some (.amoCas th d a b (wRc w) m)
  | _ => none

/-- OP 0x30. -/
def decodeSig (th : BitVec 23) (w : BitVec 64) : Option Instr :=
  let d := wRd w
  let a := wRa w
  let b := wRb w
  let m := wMod w
  match wFn w with
  | 0x00 => some (.sigAdd th a b m)
  | 0x01 => some (.sigSet th a b m)
  | 0x02 => some (.sigRead th d a m)
  | 0x03 => some (.sigWait th d a b (wRc w) m)
  | 0x04 => some (.sigTake th d a b (wRc w) m)
  | _ => none

/-- OP 0x50. -/
def decodeFence (th : BitVec 23) (w : BitVec 64) : Option Instr :=
  match wFn w with
  | 0x00 => some (.fenceFull th)
  | 0x01 => some (.fenceAcquire th)
  | 0x02 => some (.fenceRelease th)
  | 0x03 => some (.fenceDrain th)
  | _ => none

/-- R91 to R95: the instruction that a word spells for a thread, if the opcode tables assign its OP and FN (a condition or format code, and
ALUI's FN6, are the instruction's own). A Depot cache finding is no part of a word. -/
def decodeWord (th : BitVec 23) (w : BitVec 64) : Option Instr :=
  let d := wRd w
  let a := wRa w
  let b := wRb w
  let imm := wImm w
  match wOp w with
  | 0x01 => decodeAlu th w
  | 0x02 => decodeMul th w
  | 0x03 => some (.alui th d a b imm)
  | 0x04 => some (.li th d imm)
  | 0x05 => some (.lih th d imm)
  | 0x06 => some (.cmp th a b)
  | 0x07 => some (.cmpi th a imm)
  | 0x08 => some (.sel th d a b (wRc w) (wSf w))
  | 0x10 => decodeFp th w
  | 0x11 => some (.fcmp th a b)
  | 0x12 => some (.cvt th d a (BitVec.ofNat 8 (wFn w)) (wMod w))
  | 0x18 => decodePacked th w
  | 0x19 => some (.pcmp th (BitVec.ofNat 8 (wFn w)) d a b (wRc w) (wMod w) (wSf w))
  | 0x1A => decodeMask th w
  | 0x20 => some (.ld th d a imm (wRc w) .clean)
  | 0x21 => some (.st th a b imm (wRc w) .clean)
  | 0x22 => some (.gld th d a b (wRc w) (wMod w) [])
  | 0x23 => some (.sst th d a b (wRc w) (wMod w) [])
  | 0x28 => decodeAmo th w
  | 0x30 => decodeSig th w
  | 0x40 => some (.bc th d imm)
  | 0x41 => some (.br th d a b imm)
  | 0x42 => some (.jmp th imm)
  | 0x43 => some (.jmpr th a)
  | 0x44 => some (.call th imm)
  | 0x45 => some (.callr th a)
  | 0x46 => some (.ret th)
  | 0x47 => some (.exit th)
  | 0x48 => some (.travel th a)
  | 0x49 => some (.brk th imm)
  | 0x4F => some (.nop th)
  | 0x50 => decodeFence th w
  | 0x51 => some (.mfs th d imm)
  | 0x52 => some (.mts th a imm)
  | 0x58 => some (.tret th)
  | 0x59 => some (.rhout th a b)
  | 0x5A => some (.rhin th a b)
  | _ => none

/-- An instruction without what the arrays of the Depot cache find as it runs. -/
def Instr.plain : Instr → Instr
  | .ld th rd ra imm m _ => .ld th rd ra imm m .clean
  | .st th ra rb imm m _ => .st th ra rb imm m .clean
  | .gld th rd ra rb rc md _ => .gld th rd ra rb rc md []
  | .sst th rd ra rb rc md _ => .sst th rd ra rb rc md []
  | i => i

/-- A word at a thread's PC spells an instruction of that thread (R91, R92). -/
def spells (th : BitVec 23) (w : BitVec 64) (i : Instr) : Bool := decodeWord th w == some i.plain

end Sys2Proof
end

