-- ==== Sys2Proof/Config.lean ====
section
/-! DEFINITION. What an implementation fixes and the spec does not state, and the free values.
Every constant here is opaque: no proof can see its value, so a claim holds whatever it is. -/
set_option Elab.async false
namespace Sys2Proof.Config

/-- A value the spec leaves open: the n-th that a run meets (State.free counts them); the hardware random source of R538 too. -/
opaque freeValue : Nat → BitVec 64

/-- The 64-bit fused silicon identifier of a package (R540). -/
opaque siliconId : Nat → BitVec 64

/-- Package assembly revision and die stepping of a package, fused (R470). -/
opaque assembly : Nat → BitVec 8
opaque stepping : Nat → BitVec 8

/-- What the fuses of a die (package * 8 + die) choose for an OP among the voltages and rates that R429 allows. -/
opaque fuseVolt : Nat → Nat → Nat
opaque fuseRate : Nat → Nat → Nat

/-- The die's fused static power L70 in mW (R460) and its ten activity coefficients in fJ. -/
opaque fuseL70 : Nat → Nat
opaque fuseCoeff : Nat → Nat → Nat

/-- The fused maximum power, in 0.1 W, of a domain (die, 0 link 1 memory 2 compute) at an OP (R436). -/
opaque fuseMax : Nat → Nat → Nat → Nat

/-- The way a fill replaces when all eight ways of its set are valid (the spec names no replacement order). -/
opaque victimWay : Nat → Fin 8

/-- The bank and row of an offset within its pseudo-channel (R589: fixed for each stepping, not published). -/
opaque dramBank : Nat → Nat
opaque dramRow : Nat → Nat

/-- The SECDED syndrome, less 1, of a word as read, by die stepping (R594: never 0, fixed for each stepping, coding not published). -/
opaque syndrome : BitVec 8 → BitVec 64 → Fin 255

/-- The revision of the ROM firmware (R527). -/
opaque romRevision : BitVec 16

/-- A special function's correctly rounded result where the model's enclosure does not decide it (R260):
function number and operand. -/
opaque specialResult : Nat → BitVec 32 → BitVec 32

/-- The dimension-0 stride that states a sub-byte format's packing in a tensor descriptor (R274: a stride in bytes, and the spec does
not write the value), by format code. -/
opaque packStride : Nat → BitVec 40

/-- The words of the unit control blocks at reset, by offset (R517: the running firmware image defines them). -/
opaque controlWord : Nat → BitVec 64

/-- Payload slot k of a packet whose layout the spec does not give (R358), the k-th slot of a CTRL flit, and the 16-bit CRC of a junction slot
(R367: its polynomial is not given). -/
opaque payloadSlot : Payload → Nat → BitVec 128
opaque ctrlSlot : CtrlFlit → Nat → BitVec 128
opaque slotCrc : BitVec 128 → BitVec 16

end Sys2Proof.Config
end

