-- ==== Sys2Proof/Machine/State.lean ====
section
/-! DEFINITION. The state of a Dareb machine as plain data: everything the spec names, from the clusters of each
die to the mailboxes of each package, the packets in flight and the commands that wait.  Each field's
docstring names its rule; its default value is its value in State.reset (logs 3, 45). -/
set_option Elab.async false
namespace Sys2Proof.Machine

/-- Service classes, most urgent first (R30): 0 Express, 1 Stopping, 2 Freight. -/
abbrev Cls := Nat

/-! ### Threads (03_threads, 04_instruction_set) -/

/-- R62: the states of a thread context. -/
inductive TState where
  | free | running | trap | travelling | halted
  deriving DecidableEq, Repr

/-- R157, R323: an operation of a thread that waits for its release conditions before it leaves. -/
inductive Held where
  /-- A posted SIG.ADD or SIG.SET: function, handle (0 for a core signal), slot key, value. -/
  | sig (fn : SigFn) (handle : Word) (dpkg ddie key : Nat) (value : BitVec 32)
  /-- A store: physical address, bytes, whether its section is UNCACHED or STABLE, and whether it is a release; one that is none waits only for
  earlier operations on its lines (R155). -/
  | store (pa : Nat) (bytes : List Byte) (uncached stable rel : Bool)
  /-- A release AMO: physical address, function, size, order, operands; `rd` when a value returns; `va` for errors. -/
  | amo (pa : Nat) (fn : Nat) (wide : Bool) (order : Nat) (a b : Word) (posted : Bool)
  deriving DecidableEq, Repr

/-- What a drain leads to (R117 to R119). -/
inductive After where
  /-- FENCE RELEASE (neither), FULL and DRAIN (both): whether it acquires and whether it awaits earlier signals. -/
  | fence (acquire signals : Bool)
  | exit
  | travel (va : Word)
  deriving DecidableEq, Repr

/-- One lane of a gather (R110, R111): physical and virtual address, and its bytes once returned. -/
structure GLane where
  lane : Nat
  va : Word
  pa : Nat
  uncached : Bool
  queued : Bool := false
  done : Option Word := none
  err : Bool := false
  deriving DecidableEq, Repr

/-- What a thread waits on (R62: only a thread that waits on nothing is ready). -/
inductive Wait where
  | none
  | load (rd : Nat) (size : Nat) (sx acquire : Bool) (va : Word) (pa : Nat)
  | gather (rd size : Nat) (sx : Bool) (lanes : List GLane)
  | scatter (size : Nat) (lanes : List GLane)
  | amo (rd : Option Nat) (fn : Nat) (wide acquire : Bool) (va : Word)
  | sigRead (rd : Nat) (handle : Word)
  /-- SIG.WAIT or SIG.TAKE: the handle, its home die and key, the threshold, the timeout and the tick at which it expires;
  `retry` is the tick of a send after NOROOM (R330). -/
  | sig (rd : Nat) (take : Bool) (handle : Word) (dpkg ddie key : Nat) (threshold : BitVec 32) (timeoutUs : Nat) (due : Nat) (retry : Option Nat)
  | drain (after : After)
  | fetch (va : Word)
  /-- R155: an access whose lines an operation of the thread that has not left yet will write. -/
  | behind
  deriving DecidableEq, Repr

/-- The window a trap leaves (R72, R74). -/
structure Window where
  l : List Word
  p : List Word
  q : List Word
  deriving DecidableEq, Repr

abbrev zeros8 : List Word := [0, 0, 0, 0, 0, 0, 0, 0]

/-- A 32-byte sector in a fetch buffer (R592). -/
structure FetchSector where
  va : Nat
  bytes : List Byte
  deriving DecidableEq, Repr

/-- A thread context (R62 to R75, R98, R120). -/
structure Thread where
  /-- R62. -/
  st : TState := .free
  /-- R29, R120: tenant of the thread. -/
  tenant : Nat := 0
  /-- Its VI on this package (R90). -/
  vi : Nat := 0
  /-- R31, R120 CLASS. -/
  cls : Cls := 2
  /-- R61, R120 DEADLINE. -/
  deadline : Nat := 0
  /-- R91. -/
  pc : BitVec 48 := 0
  /-- R98 COND. -/
  cond : BitVec 8 := 0
  /-- R63: t0 to t15. -/
  t : List Word := zeros8 ++ zeros8
  /-- R63: l0 to l7 of the current window. -/
  l : List Word := zeros8
  p : List Word := zeros8
  /-- R63, R64: the caller's p0 to p7; zero and unwritable in the bottom frame and the trap window. -/
  q : List Word := zeros8
  /-- The locals of the resident caller frames, newest first (R66); FRAMES is one more than their number. -/
  stack : List (List Word) := []
  /-- R70. -/
  rhUsed : Nat := 0
  rhExt : Nat := 0
  /-- R72. -/
  trapEpc : BitVec 48 := 0
  trapCause : BitVec 8 := 0
  trapAddr : Word := 0
  trapPc : BitVec 48 := 0
  /-- The frame that was current when the trap window was entered (R74). -/
  saved : Option Window := none
  /-- R81: the context's travel count, 0 after die reset. -/
  travelCount : BitVec 32 := 0
  wait : Wait := .none
  /-- R157, R323: operations that wait for release conditions, oldest first. -/
  held : List Held := []
  /-- The launch the thread counts in (R593). -/
  launch : Option CmdRef := none
  /-- The travel that brought the thread here: origin context, origin die's epoch and travel number (R81, R593). -/
  origin : Option (BitVec 23 × BitVec 8 × BitVec 32) := none
  /-- R592: the fetch buffer. -/
  fetch : List FetchSector := []
  /-- R81, R381: the travel in progress: target package and die, target epoch, its address, the start tick, and whether
  EV_TICKET_HELD was raised, and the tick at which its target entered RESETTING (R553). -/
  tPkg : Nat := 0
  tDie : Nat := 0
  tEpoch : BitVec 8 := 0
  tVa : Word := 0
  tPc : BitVec 48 := 0
  tStart : Nat := 0
  tQuery : Nat := 0
  tHeld : Bool := false
  tReset : Option Nat := none
  deriving DecidableEq, Repr

/-! ### Clusters: the Depot cache, its miss registers and Platform queues (05_memory, 06_gathers) -/

/-- R134: a section entry, as its 64 bits. -/
abbrev SectionEntry := BitVec 64

/-- R137: a lookaside entry. -/
structure LaEntry where
  tenant : Nat
  section_ : Nat
  entry : SectionEntry
  deriving DecidableEq, Repr

/-- R139 to R141: one line, in the eight ways or the Siding. -/
structure Line where
  /-- Physical address of the line divided by 128. -/
  line : Nat
  tenant : Nat
  valid : BitVec 4 := 0
  dirty : BitVec 4 := 0
  written : BitVec 128 := 0
  data : List Byte := []
  /-- The line lies in a STABLE section (R158). -/
  stable : Bool := false
  /-- The tenant's VI on this package (R150 counts by VI). -/
  vi : Nat := 0
  deriving DecidableEq, Repr

/-- Who a fill answers (R144). -/
inductive Merge where
  | load (th : BitVec 23)
  | lane (th : BitVec 23) (lane : Nat)
  | fetch (th : BitVec 23) (va : Nat)
  /-- A sector of a Shunter's work: its cluster, the work's number, and the sector's key. -/
  | walk (cl no key : Nat)
  deriving DecidableEq, Repr

/-- R143, R144, R158: a miss register. -/
structure MissReg where
  id : Nat
  line : Nat
  tenant : Nat
  vi : Nat
  cls : Cls
  deadline : Nat
  asked : BitVec 4
  got : BitVec 4 := 0
  err : Bool := false
  gone : Bool := false
  merges : List (Merge × BitVec 4) := []
  install : Bool := true
  stable : Bool := false
  data : List Byte := []
  /-- Bytes of the line written back or dropped from the cache while the fetch is out: they win over what it returns
  (R155, log 14). -/
  ovMask : BitVec 128 := 0
  ovData : List Byte := []
  deriving DecidableEq, Repr

/-- R143: a request that waits aside for a miss register. -/
structure Aside where
  who : Merge
  line : Nat
  need : BitVec 4
  tenant : Nat
  vi : Nat
  cls : Cls
  deadline : Nat
  stable : Bool
  deriving DecidableEq, Repr

/-- R146: a write-combining buffer. -/
structure WcBuf where
  line : Nat
  mask : BitVec 128
  data : List Byte
  deriving DecidableEq, Repr

/-- R146: a stream tracker in use; the cluster lists them most recently used first. -/
structure Tracker where
  tp : Nat
  tenant : Nat
  vi : Nat
  cls : Cls
  stream : Bool := false
  count : Nat := 0
  /-- The bytes written so far of each line being filled, and the line of the last store. -/
  masks : Tab (BitVec 128) := []
  curLine : Nat
  lastFull : Option Nat := none
  firstLine : Nat
  next : Nat
  bufs : List WcBuf := []
  deriving DecidableEq, Repr

/-- R181: what a Platform queue entry fetches for. -/
inductive PqWho where
  | thread (th : BitVec 23) (lane : Nat)
  /-- The neighbour of one ordinal of the row or segment that the cluster's Shunter works on. -/
  | walk (ord : Nat)
  deriving DecidableEq, Repr

structure PqEntry where
  who : PqWho
  tenant : Nat
  cls : Cls
  deadline : Nat
  deriving DecidableEq, Repr

/-- R189: an element of a sum: A32F bits or an A40I value, and the A40I sticky overflow bit (R225). -/
structure AccEl where
  v : Int
  ov : Bool := false
  deriving DecidableEq, Repr

/-- R174: a row and its index entry. -/
structure RowInfo where
  row : Nat
  degree : Nat
  base : Nat
  mapWord : Nat
  deriving DecidableEq, Repr

/-- R193: a place in a bitmap row: its unit's address, block and bit, the edges before it, and the SPAN before its unit. -/
structure UnitAt where
  va : Nat
  block : Nat := 0
  bit : Nat := 0
  ord : Nat := 0
  prev : Option Nat := none
  deriving DecidableEq, Repr

/-- R191 to R194: a hub row in splitting at its home cluster. -/
structure Hub where
  c : CmdRef
  pos : Nat
  info : RowInfo
  /-- Bytes of a partial (R194). -/
  size : Nat
  dispatched : Nat := 0
  combined : Nat := 0
  /-- Segments dispatched whose partial has not arrived; bytes of each one's partial that have arrived in the pool. -/
  running : List Nat := []
  arrived : Tab Nat := []
  acc : List AccEl := []
  /-- Bitmap format: where segment `atSeg` starts (R193). -/
  start : UnitAt
  atSeg : Nat := 0
  /-- R198: the lowest segment found malformed, and its reason. -/
  bad : Option (Nat × Nat) := none
  deriving DecidableEq, Repr

/-- R188, R192, R193: what a Shunter works on: a position's row; the scan of a hub row for its next segment's start; a segment, for its home
cluster. -/
inductive WalkPart where
  | row
  | scan (i : RowInfo) (start : UnitAt)
  | seg (home n : Nat) (i : RowInfo) (start : UnitAt)
  deriving DecidableEq, Repr

/-- R187: the work of a cluster's Shunter. -/
structure WalkWork where
  /-- The work's number in its cluster. -/
  no : Nat
  c : CmdRef
  /-- The tenant's VI on the cluster's package. -/
  vi : Nat
  pos : Nat
  part : WalkPart
  /-- Sectors read, by key: the ordinal + 1 of a neighbour's feature (0: records, maps, weights) * 2^64 + VA / 32; none: in error. -/
  got : Tab (Option (List Byte)) := []
  /-- Keys asked and not answered. -/
  out : List Nat := []
  /-- Feature fetches placed on gather lanes (R183). -/
  placed : Nat := 0
  deriving DecidableEq, Repr

/-- One cluster (R139 to R146, R150, R182, R201). -/
structure Cluster where
  /-- Lines by set * 8 + way (R139). -/
  lines : Tab Line := []
  /-- R142: the Siding, oldest first. -/
  siding : List Line := []
  /-- R137. -/
  la : List LaEntry := []
  /-- R143: registers held. -/
  miss : List MissReg := []
  nextMiss : Nat := 0
  /-- R143: waiting requests, oldest first. -/
  aside : List Aside := []
  /-- Ledger 3's free counter (R413). -/
  missFree : Nat := 96
  /-- R146. -/
  trackers : List Tracker := []
  /-- R150: dirty lines of each VI. -/
  dirtyCount : Tab Nat := []
  /-- R182: entries of each gather lane, oldest first, and ledger 2's free counter of each. -/
  pq : Tab (List PqEntry) := []
  pqFree : Tab Nat := []
  /-- R183: gather and scatter lanes, and Shunter fetches, that wait for a queue, in order: lane and entry. -/
  pqWait : List (Nat × PqEntry) := []
  /-- Ledger 6's FREE counter of each thread processor (R413). -/
  ctxFree : Tab Nat := []
  /-- R60: the slot each thread processor issued last. -/
  lastSlot : Tab Nat := []
  /-- R33, R60: consecutive grants of each thread processor to more urgent classes while a less urgent thread was ready; the number of issues in
  the cluster, and at which of them each slot issued last (its age, log 7). -/
  tpStreak : Tab Nat := []
  issues : Nat := 0
  ages : Tab Nat := []
  /-- R140: for port A (0) and port B (1), the requester granted last and the grants in a row over a waiting less urgent class. -/
  portLast : Tab Nat := []
  portStreak : Tab Nat := []
  /-- R33, R143, R184: the same count for requests that wait aside, and for the waiting fetches of each gather lane. -/
  asideStreak : Nat := 0
  laneStreak : Tab Nat := []
  /-- R187, R201: what the Shunter works on, and how many works it has begun. -/
  work : Option WalkWork := none
  walkNo : Nat := 0
  /-- R192: hub rows, each command's in the order met: the first of each command is split. -/
  hubs : List Hub := []
  /-- R33, R201: consecutive grants to more urgent classes while a less urgent one waited (Shunter). -/
  shuntStreak : Nat := 0
  /-- The R90-style marks of R421: tick of the last mismatch of ledgers 2, 3 and 6 in this cluster, by ledger * 256 + sub. -/
  mismatch : Tab Nat := []
  /-- R419: the tick of the last audit by ledger * 256 + sub. -/
  audited : Tab Nat := []
  deriving DecidableEq, Repr

/-! ### Signals (11_signals) -/

/-- R328: a waiter on a signal's list, in arrival order: its request, and whether it holds a remote entry (R330). -/
structure Waiter where
  who : WaiterRef
  take : Bool
  threshold : BitVec 32
  remote : Bool
  rq : Packet
  deriving DecidableEq, Repr

/-- R309: a signal. -/
structure Signal where
  count : BitVec 32 := 0
  owner : Nat := 0
  sat : Bool := false
  waiters : List Waiter := []
  lwSource : BitVec 8 := 0
  lastWriter : BitVec 23 := 0
  deriving DecidableEq, Repr

/-! ### Requests outstanding (12_neward R376 to R378) -/

/-- What an outstanding request of a die is for. -/
inductive OKind where
  | fill (cl reg : Nat)
  | uload (th : BitVec 23)
  /-- A sector fetched ahead from an UNCACHED section (R592). -/
  | ufetch (th : BitVec 23) (va : Nat)
  | ulane (th : BitVec 23) (lane : Nat)
  /-- A sector that a Shunter reads from an UNCACHED section: cluster, work number and key. -/
  | uwalk (cl no key : Nat)
  /-- Part of the partial of segment `n` of a hub row (R194): home cluster, command and position, and its bytes. -/
  | partial_ (home : Nat) (c : CmdRef) (pos n bytes : Nat)
  /-- A write-back (R145): cluster, line, tenant. -/
  | wb (cl line : Nat)
  | store (th : BitVec 23)
  | amo (th : BitVec 23) (posted : Bool)
  | sigPost (wkind : Nat) (waiter : BitVec 23) (handle : Word)
  | sigRead (th : BitVec 23)
  | sigWait (w : WaiterRef)
  | sigSetCmd (c : CmdRef)
  /-- The signal of a ring command at its completion (R490). -/
  | ringSig (c : CmdRef) (handle : Word)
  /-- A write of a unit's command; `desc` is the DMA descriptor index, 0 for other units; `bytes` are those that COPY and FILL count
  as written, 0 for other writes. -/
  | unitWrite (c : CmdRef) (desc bytes : Nat)
  | travel (th : BitVec 23)
  | tquery (th : BitVec 23)
  /-- A CANCEL that waits to leave: it carries its wait's TAG (R333). -/
  | cancel
  /-- A request of a thread that has ended: its answer is taken and has no effect. -/
  | abandoned
  deriving DecidableEq, Repr

structure Outst where
  kind : OKind
  tenant : Nat
  vi : Nat
  cls : Cls
  dpkg : Nat
  ddie : Nat
  depoch : BitVec 8
  pepoch : BitVec 16
  deriving DecidableEq, Repr

/-! ### Links and junctions (12_neward) -/

inductive PortState where
  | dark | training | up | refused | fenced
  deriving DecidableEq, Repr

/-- A slot of a flit: slot k of a packet, whose slots take shared credits or its escape space; or 16 bytes that no packet of the machine
explains. -/
inductive Slot where
  | of (pk : Packet) (shared : Bool) (k : Nat)
  | raw (w : BitVec 128)
  deriving DecidableEq, Repr

/-- R352: what a flit is: DATA with its slots in use, IDLE, or CTRL. -/
inductive FlitBody where
  | idle
  | data (slots : List Slot)
  | ctrl (k : CtrlFlit)
  /-- A CTRL flit whose payload is not one the far end sends. -/
  | other (slots : List (BitVec 128))
  deriving DecidableEq, Repr

/-- A flit with the fields of its link control word (R352). -/
structure Flit where
  body : FlitBody
  seq : BitVec 12 := 0
  ack : BitVec 12 := 0
  nak : Bool := false
  /-- Shared credits returned for VC0 to VC6, in units of 16 slots. -/
  credits : List Nat := []
  /-- The escape space released: virtual channel and HOPS. -/
  esc : Option (Nat × Nat) := none
  deriving DecidableEq, Repr

/-- R362: a packet in a die's queues: the input it came by (port 0 to 3, 4 + junction 4 to 6, 7 the die's own Buffer stop, 8 the die's own
units, whose packets stand in State.net), and whether it holds shared slots or the escape space of its HOPS. -/
structure Rx where
  inp : Nat
  shared : Bool
  pk : Packet
  deriving DecidableEq, Repr

/-- R33, R361: an output's arbiter: grants in a row over a waiting less urgent class, the input granted last, and the slots that other channels
still have before VC6 goes first again. -/
structure Arb where
  streak : Nat := 0
  last : Nat := 8
  owed6 : Nat := 0
  deriving DecidableEq, Repr

/-- R344 to R366: a Neward port. -/
structure Port where
  st : PortState := .dark
  /-- R344: lanes in use; R366: lanes trained. -/
  width : Nat := 0
  trained : Nat := 0
  usable : BitVec 4 := 0
  fenced : BitVec 4 := 0
  isOpen : BitVec 4 := 0
  /-- R346, R347: physical lane of each logical lane, and the physical lanes whose symbols this receiver inverts. -/
  order : List Nat := []
  inverted : BitVec 4 := 0
  far : Option PosRec := none
  /-- R350: failed attempts in a row, and the tick at which a retry is due. -/
  attempts : Nat := 0
  retryAt : Option Nat := none
  replays : BitVec 32 := 0
  retrains : BitVec 32 := 0
  /-- R355. -/
  txSeq : BitVec 12 := 0
  rxSeq : BitVec 12 := 0
  /-- R354: later flits are discarded until the one after the last good one arrives; a NAK is to be sent. -/
  discarding : Bool := false
  nakDue : Bool := false
  /-- R355: DATA and CTRL flits sent and unacknowledged, oldest first. -/
  replay : List Flit := []
  /-- What the port sends next after a NAK or LOCK (R355, R356): the flits queued again. -/
  resend : List Flit := []
  /-- CTRL flits that wait to be sent, and the slots of a packet begun in an earlier flit. -/
  ctrlQ : List CtrlFlit := []
  txRest : List Slot := []
  /-- R356: the SEQ NAKed last, how often in a row, and the ticks of recent replays. -/
  nakSeq : BitVec 12 := 0
  nakCount : Nat := 0
  replayTicks : List Nat := []
  /-- R362, R363: shared credits by VC, and the escape spaces (VC, HOPS) occupied at the far receiver. -/
  credits : List Nat := [1024, 1024, 1024, 1024, 1024, 1024, 64]
  esc : List (Nat × Nat) := []
  /-- R362, R363: slots of a packet still arriving; shared slots freed by VC and escape spaces freed, not yet returned. -/
  rxPart : List Slot := []
  owed : Tab Nat := []
  escOwed : List (Nat × Nat) := []
  /-- R365: credits are frozen until both CREDIT_SYNC flits are accepted; the far end's has been accepted. -/
  frozen : Bool := false
  farSync : Bool := false
  /-- R418: the tick at which a channel last sent a packet either way, by VC. -/
  quiet : Tab Nat := []
  /-- R439: the widths that this end and the far end request. -/
  want : Nat := 4
  farWant : Nat := 4
  /-- R366: a width step that the far end, or this one, has named and that is not applied: width and SEQ. -/
  widthStep : Option (Nat × BitVec 12) := none
  ownStep : Option (Nat × BitVec 12) := none
  /-- R421: tick of the last mismatch of ledger 1, by VC. -/
  mismatch : Tab Nat := []
  deriving DecidableEq, Repr

/-- R368: why a junction is fenced. -/
inductive JFence where
  | none | replays | neighbour
  deriving DecidableEq, Repr

/-- R367, R368: one of a die's three junctions. -/
structure Junction where
  fence : JFence := .none
  replays : BitVec 32 := 0
  replayTicks : List Nat := []
  /-- R362, R363: shared credits by VC and the escape spaces (VC, HOPS) occupied at the far die, for packets sent by this junction. -/
  credits : List Nat := [1024, 1024, 1024, 1024, 1024, 1024, 64]
  esc : List (Nat × Nat) := []
  /-- R367: the last 8 beats sent, oldest first. -/
  beats : List (List Slot) := []
  /-- R418: the tick at which a channel last sent a packet by this junction; R421: tick of the last mismatch of ledger 1, by VC. -/
  quiet : Tab Nat := []
  mismatch : Tab Nat := []
  deriving DecidableEq, Repr

/-- How a die treats another die (R551, R552). -/
inductive Target where
  | inService | resetting | outOfService
  deriving DecidableEq, Repr

/-! ### Matrix units, Consists, Points and Shunters' commands (06, 08, 09, 10) -/

/-- R231 to R256: an MU_RUN command in progress on a die. -/
structure MuCmd where
  c : CmdRef
  tenant : Nat
  vi : Nat
  cls : Cls
  deadline : Nat
  mask : Nat
  /-- The eight words of the MU descriptor (R232) and the eight of its profiles (R240). -/
  desc : List Word
  profiles : List Word
  /-- The chain descriptor that each profile names, 16 words, or none. -/
  chains : List (List Word) := []
  /-- R231: the next untaken entry. -/
  next : Nat := 0
  /-- Outcomes met (R255): a guard overflow, malformed entries, an error. -/
  flagged : Bool := false
  bad : Bool := false
  err : Bool := false
  /-- R255: lowest malformed or failed entry and its reason. -/
  entry : Option (Nat × Nat) := none
  ovfCount : Nat := 0
  /-- R247: entry, row, column and K step of the first overflow in that order. -/
  ovfFirst : Option (Nat × Nat × Nat × Nat) := none
  flags : BitVec 4 := 0
  emptyRows : Nat := 0
  preempts : Nat := 0
  /-- R252: the status record has been issued. -/
  statusSent : Bool := false
  /-- Order of arrival (R253: command order). -/
  order : Nat := 0
  deriving DecidableEq, Repr

/-- What a matrix unit performs of an entry (R236, R237, R249): the entry's words, those of a chained pair's second entry,
and the next tile row and column (the column is 0 for chained row blocks). -/
structure MuItem where
  c : CmdRef
  entry : Nat
  w : List Word
  w2 : Option (List Word)
  /-- R241: the profile of each output channel group, as read when the entry was taken. -/
  ps : List Nat := []
  tr : Nat := 0
  tc : Nat := 0
  /-- R246: row partials of the present tile row and running column values, by reduction * 65536 + column, as F32. -/
  colRed : Tab (BitVec 32) := []
  rowRed : Tab (BitVec 32) := []
  /-- R245: rows and columns of the present tile row's overflowed elements. -/
  ov : List (Nat × Nat) := []
  deriving DecidableEq, Repr

/-- R270 to R285: a CONSIST_RUN command in progress. -/
structure CsCmd where
  c : CmdRef
  tenant : Nat
  vi : Nat
  cls : Cls
  deadline : Nat
  /-- Run descriptor (8 words), the chain descriptor (16 words) or the program (LEN words), tensor descriptors of the slots
  (8 words each, empty if unused). -/
  desc : List Word
  prog : List Word
  slots : List (List Word)
  /-- R273: the next iteration, and the instruction within it (SINGLE). -/
  iter : Nat := 0
  ip : Nat := 0
  running : Bool := false
  /-- R276: tile registers by register * 16384 + element (an absent element is not valid), the predicate plane, counts. -/
  tb : Tab (BitVec 32) := []
  pred : List Bool := []
  cnt : List Nat := [0, 0, 0, 0]
  flags : BitVec 4 := 0
  /-- 0 none, 1 ACCESS, 2 OVERRUN (R284), and ADDR. -/
  reason : Nat := 0
  addr : Nat := 0
  /-- Iteration × 16384 + element of the failure that REASON and ADDR name. -/
  errKey : Nat := 0
  countsSent : Bool := false
  /-- R281: its state stands in its SAVE area. -/
  saved : Bool := false
  order : Nat := 0
  deriving DecidableEq, Repr

/-- A matrix unit with its Consist (R229, R253). -/
structure Mu where
  /-- R253: the entry in progress of each class. -/
  item : Tab MuItem := []
  /-- The MU_RUN command that each class holds between its entries. -/
  hold : Tab CmdRef := []
  /-- R270: the CONSIST_RUN command of each class. -/
  cs : Tab CsCmd := []
  /-- CONSIST_RUN commands that wait for their class. -/
  csWait : List CsCmd := []
  /-- R229: the two accumulator banks and which one the array fills. -/
  bank0 : List Int := []
  bank1 : List Int := []
  fill1 : Bool := false
  /-- R254: consecutive tiles of more urgent classes while a less urgent command waits. -/
  streak : Nat := 0
  /-- The command whose tile ran last, for PREEMPTS (R255) and saves (R281). -/
  last : Option CmdRef := none
  /-- R276: the SINGLE command whose state the tile registers hold. -/
  loaded : Option CmdRef := none
  la : List LaEntry := []
  deriving DecidableEq, Repr

/-- R294: where selection stands: the tokens each expert holds, its room, its spill, and the proposals made. -/
structure Sel where
  held : List (List Nat)
  room : List Nat
  spill : List (List Nat)
  asked : List (Nat × Nat) := []
  deriving DecidableEq, Repr

/-- R290: the route block as DISPATCH and COMBINE read it: PERM, the expert of each position, the positions of each token, ACTIVE_OUT. -/
structure RouteRead where
  perm : List (Nat × BitVec 32)
  expert : List Nat
  inv : List (List Nat)
  live : List Bool
  deriving DecidableEq, Repr

/-- R305: a ROUTE command in progress: its descriptor, the block it stands at, what its blocks have read, and what it answers. -/
structure PtCmd where
  c : CmdRef
  tenant : Nat
  vi : Nat
  cls : Cls
  deadline : Nat
  /-- The route descriptor, 16 words (R288); each expert's capacity; the replica counts read at the start (R304). -/
  desc : List Word
  caps : List Nat
  reps : List Nat
  order : Nat := 0
  /-- R305: blocks done, and whether the last one is. -/
  block : Nat := 0
  done : Bool := false
  err : Bool := false
  /-- SELECT: active tokens, confidences and scores read; where selection stands; overflow rounds done. -/
  active : List Bool := []
  conf : List (BitVec 32) := []
  scores : List (List (BitVec 32)) := []
  sel : Option Sel := none
  rounds : Nat := 0
  /-- DISPATCH and COMBINE: the route block, the row that each tag claims, rows written under SKIP, flags. -/
  route : Option RouteRead := none
  tags : Tab Nat := []
  badTag : Bool := false
  skipped : Nat := 0
  flags : BitVec 4 := 0
  /-- What the command returns, and the counts that its histogram gains (R303): route table, counts. -/
  result : Word := 0
  hist : Option (Nat × List Nat) := none
  deriving DecidableEq, Repr

/-- R302: one expert's part of a route table. -/
structure Expert where
  hist : BitVec 32 := 0
  reps : Nat := 1
  pinned : Bool := false
  deriving DecidableEq, Repr

/-- R302: a route table. -/
structure RTable where
  vi : Option Nat := none
  rmax : Nat := 1
  ex : Tab Expert := []
  deriving DecidableEq, Repr

/-- R185 to R200: a SHUNT command in progress. -/
structure ShCmd where
  c : CmdRef
  tenant : Nat
  vi : Nat
  cls : Cls
  deadline : Nat
  /-- Walk descriptor, 8 words (R185). -/
  desc : List Word
  /-- The dies of the mask in service at acceptance, ascending. -/
  dies : List Nat
  /-- By home cluster number (counted over the dies of the mask): how many of its positions have started. -/
  started : Tab Nat := []
  bad : Nat := 0
  /-- R200: the positions counted in BAD. -/
  badRows : List Nat := []
  first : Option (Nat × Nat) := none
  err : Bool := false
  stop : Bool := false
  order : Nat := 0
  /-- R187, R192: the clusters that have acquired for it. -/
  acquired : List Nat := []
  deriving DecidableEq, Repr

/-! ### DMA (13_dma_tenancy) -/

/-- R397: a descriptor's signal that waits for its writes. -/
structure DmaSig where
  desc : Nat
  handle : Word
  set : Bool
  value : BitVec 32
  deriving DecidableEq, Repr

/-- R383 to R400: a chain. -/
structure Chain where
  c : CmdRef
  tenant : Nat
  vi : Nat
  cls : Cls
  deadline : Nat
  engine : Nat
  /-- The descriptor to read next or in progress: index and address; its words once read (R385). -/
  idx : Nat := 0
  va : Nat
  desc : Option (List Word) := none
  /-- Progress within it: bytes of the transfer done (COPY, FILL) or rows done. -/
  pos : Nat := 0
  /-- PRUNE and COMPRESS: next global ordinal and next map word. -/
  ordinal : Nat := 0
  mapWord : Nat := 0
  /-- R386: bytes read of the dense row, or of BIN's row index; what they gave (columns and codes, or rows and bins); and the writes that have
  still to be issued. -/
  rowPos : Nat := 0
  buf : List (Nat × Nat) := []
  emit : List (Nat × List Byte) := []
  /-- R391: descriptors whose host writes no completed zero-length read covers. -/
  hostOut : List Nat := []
  /-- R398: the handle of the last signal sent or queued. -/
  lastSig : Option Word := none
  /-- R386: its place in its engine's round robin. -/
  seq : Nat := 0
  /-- R408: the chain is an engine's part of a scrub, with the pieces (address, bytes) that follow the present one. -/
  scrub : Bool := false
  pieces : List (Nat × Nat) := []
  count : Nat := 0
  sigs : List DmaSig := []
  /-- The last descriptor is done. -/
  finished : Bool := false
  /-- DMA result REASON of the error that ended the chain, 0 if none, and the failing descriptor. -/
  reason : Nat := 0
  failed : Nat := 0
  order : Nat := 0
  deriving DecidableEq, Repr

/-- One engine (R386). -/
structure Engine where
  chains : List Chain := []
  /-- The chain that holds the next block, set at a block boundary. -/
  cur : Option CmdRef := none
  /-- R386: the place of the chain that had the last block, and the last place given. -/
  last : Nat := 0
  nextSeq : Nat := 0
  /-- R33: consecutive blocks to more urgent classes while a less urgent chain waits. -/
  streak : Nat := 0
  la : List LaEntry := []
  deriving DecidableEq, Repr

/-! ### Power (15_power) -/

inductive SubstState where
  | off | ramping | on | shutDown | latchedOff
  deriving DecidableEq, Repr

/-- R425 to R432: a Substation and its die's voltage. -/
structure Subst where
  st : SubstState := .off
  attempts : Nat := 0
  /-- Checkpoints passed in this attempt. -/
  checkpoint : Nat := 0
  /-- Tick at which the ramp, the shutdown or the slew began. -/
  since : Nat := 0
  /-- Output in mV when last settled or retargeted, and target OP (R430). -/
  mv : Nat := 0
  targetOp : Nat := 0
  /-- R431: a slew is in progress. -/
  slewing : Bool := false
  deriving DecidableEq, Repr

/-- R457, R458: a hinted window on one die. -/
structure Hint where
  vi : Nat
  cls : Cls
  deadline : Nat
  phase : Nat
  start : Nat
  stop : Nat
  begun : Bool := false
  /-- R457: its voltage command has been issued ahead of its start. -/
  led : Bool := false
  deriving DecidableEq, Repr

/-- R460: what a die's energy slice has seen at each reference tick: ticks with power and the sum of core voltages in mV; ticks with a hottest
reading and the sum of the readings (degrees plus 40). -/
structure Slice where
  num : Nat := 0
  mv : Nat := 0
  hotNum : Nat := 0
  hot : Nat := 0
  deriving DecidableEq, Repr

/-- R452 to R454: a watermark. -/
structure Watermark where
  enabled : Bool := false
  quantity : Nat := 0
  die : Nat := 0
  falling : Bool := false
  mark : BitVec 16 := 0
  hyst : BitVec 16 := 0
  /-- The tray controller set it. -/
  tc : Bool := false
  count : BitVec 8 := 0
  armed : Bool := false
  latch : BitVec 16 := 0
  level : BitVec 16 := 0
  /-- R452: tick of its last comparison. -/
  last : Nat := 0
  deriving DecidableEq, Repr

/-! ### A die -/

/-- R46 to R48: a ring monitor. -/
structure Monitor where
  rateMin : BitVec 16 := 0xFFFF
  rateNow : BitVec 16 := 0
  temp : BitVec 8 := 0
  stale : Bool := true
  last : Nat := 0
  deriving DecidableEq, Repr

/-- R83: a ticket in the arrival queue, in order of acceptance. -/
structure QTicket where
  env : Envelope
  t : Ticket
  tenant : Nat
  vi : Nat
  cls : Cls
  /-- The origin die's epoch, and the launch the thread counts in (R593). -/
  oepoch : BitVec 8
  launch : Option CmdRef
  deriving DecidableEq, Repr

/-- R383: a descriptor-token or pool-signal share of one VI on one die (ledgers 4 and 5). -/
structure Share where
  share : Nat := 0
  held : Nat := 0
  withdraw : Nat := 0
  /-- R415: the units and the gaining share (32 for the unallocated count) of the repartition in progress. -/
  gain : Nat := 32
  units : Nat := 0
  deriving DecidableEq, Repr

/-- Service state of a die (R545 to R547). -/
inductive DieState where
  | inService | resetting | outOfService
  deriving DecidableEq, Repr

/-- Activity of a VI on a die in the present 1 ms slice, by the rows of Activity counts (R460). -/
abbrev Activity := Tab Nat

/-- One die. -/
structure Die where
  st : DieState := .inService
  /-- R526: the cause while out of service. -/
  cause : Nat := 0
  /-- R42, R538: the die epoch; a power-on gives it a random value (log 3: 0 before). -/
  epoch : BitVec 8 := 0
  resetAt : Nat := 0
  /-- R556: the hardware gates and the unit table, bit u for unit u, set when open / in service. -/
  gate : BitVec 64 := 0x077FFF0FFFFFFFFF
  table : BitVec 64 := 0x077FFF0FFFFFFFFF
  /-- R557: units in drain and the tick it began; R558: units to return at the next pass. -/
  drains : Tab Nat := []
  /-- R556: the tick of the last reconciliation pass. -/
  lastPass : Nat := 0
  returns : List Nat := []
  /-- R517: control-block words by offset. -/
  control : Tab Word := []
  /-- R46. -/
  monitors : Tab Monitor := []
  /-- R56. -/
  shortfalls : BitVec 16 := 0
  shortArmed : Bool := true
  /-- R56: the tick since which the live rate is below the fixed rate, and whether this dip has been counted. -/
  belowSince : Option Nat := none
  dipCounted : Bool := false
  staleRaised : Bool := false
  /-- R50, R52: tokens in units of 1/32768, by consumer (TP cluster*4+tp, 128+MU, 132+DMA), and the limit in force. -/
  banks : Tab Nat := []
  limit : Option Nat := none
  /-- R49: beats of work in progress whose tokens are not spent yet, by consumer (log 33). -/
  debt : Tab Nat := []
  /-- R51: the pacing rates of this die (1/4096 of nominal): lever, hard throttle, thermal halving, thermal hard. -/
  paceLever : Option Nat := none
  paceHard : Bool := false
  paceHeat : Option Nat := none
  paceHot : Bool := false
  /-- R438: the pacing that holds the compute domain where OP0 does not fit its grant. -/
  paceGrant : Option Nat := none
  coolSince : Option Nat := none
  fixedPaced : Bool := false
  /-- R67: Roundhouse record capacity code (0: 1 KiB); RH_BASE is 0 (R130). -/
  rhCode : BitVec 2 := 0
  /-- R312, R314: signals by key (pool index, 65536 + core index of R316). -/
  signals : Tab Signal := []
  /-- R310: signal requests that have arrived and wait their turn, oldest first. -/
  sigQueue : List Packet := []
  /-- R90, R154, R337, R342, R420: fault and report queues (words of each record) and their drop counts. -/
  threadFaults : List (List Word) := []
  threadDropped : BitVec 16 := 0
  memFaults : List (List Word) := []
  memDropped : BitVec 16 := 0
  sigEvents : List (List Word) := []
  sigDropped : BitVec 16 := 0
  reports : List (List Word) := []
  repDropped : BitVec 16 := 0
  ledgerFaults : List (List Word) := []
  ledDropped : BitVec 16 := 0
  /-- Other recorded faults (FLT_CORE_UV, FLT_SUBST_SHORT, FLT_THERMAL_TRIP): code and its values. -/
  otherFaults : List (Nat × List Nat) := []
  /-- R154: CE_DEPOT, TAG_REFETCH, UE_REFETCH, CE_DRAM, CE_YARD, WB_DROPPED, WB_GONE. -/
  counters : List (BitVec 32) := [0, 0, 0, 0, 0, 0, 0]
  /-- R358, R377, R375. -/
  badPkt : BitVec 32 := 0
  staleRsp : BitVec 32 := 0
  routeLost : BitVec 32 := 0
  /-- R131: owners of DRAM sections and yard granules (768 + granule). -/
  owner : Tab Nat := []
  /-- R589: open row by pseudo-channel * 1024 + bank; R440: pseudo-channels in power-down. -/
  openRow : Tab Nat := []
  pdown : List Nat := []
  refreshes : Nat := 0
  /-- R33, R173: consecutive DRAM grants to more urgent classes while a less urgent request waited. -/
  dramStreak : Nat := 0
  lastAccess : Tab Nat := []
  /-- R450: stack temperature (degrees + 40), doubled refresh, and bandwidth held to 25 percent. -/
  stackTemp : BitVec 8 := 0
  refresh2x : Bool := false
  bwHeat : Bool := false
  stackHotSince : Option Nat := none
  /-- R450: tick of the stack's last report. -/
  stackLast : Nat := 0
  /-- R376: requests outstanding by tag, the next tag to try, and the tags in quarantine (R407) with their tick. -/
  outst : Tab Outst := []
  nextTag : Nat := 0
  quarantine : Tab Nat := []
  /-- R551, R552: what this die knows of other dies (package * 8 + die): state and epoch; package epochs. -/
  targets : Tab Target := []
  dieEpochs : Tab (BitVec 8) := []
  pkgEpochs : Tab (BitVec 16) := []
  /-- R371: the route table, by package, coded as LINK ROUTES gives; R374: the map installed. -/
  routes : Tab Nat := []
  map : LinkMap := ⟨0, []⟩
  /-- R375: channels on which new requests wait until earlier ones to the package are answered: package * 8 + VC; and the
  requests that wait for that or for a free tag, oldest first. -/
  holds : List Nat := []
  sendQ : List (Outst × Packet) := []
  ports : Tab Port := []
  junctions : Tab Junction := []
  /-- R362: the packets in this die's queues, in arrival order; R361: the arbiters of its outputs (port 0 to 3, 4 + junction). -/
  rx : List Rx := []
  arbs : Tab Arb := []
  /-- R381: NOT_SEEN records: ORIGIN, origin die epoch, TRAVEL_NO, tick. -/
  notSeen : List (BitVec 23 × BitVec 8 × BitVec 32 × Nat) := []
  /-- R381: travels this die accepted and may be asked about. -/
  accepted : List (BitVec 23 × BitVec 8 × BitVec 32) := []
  /-- R83. -/
  arrivals : List QTicket := []
  qLimit : Tab Nat := []
  /-- R229 to R257. -/
  muCmds : List MuCmd := []
  mus : Tab Mu := []
  /-- R302, R305. -/
  ptCmds : List PtCmd := []
  rtables : Tab RTable := []
  ptStreak : Nat := 0
  ptLa : List LaEntry := []
  /-- R383, R384. -/
  dmaQueue : List Chain := []
  engines : Tab Engine := []
  /-- Ledger 4: unallocated tokens and shares by VI; ledger 5: the same for pool signals. -/
  tokFree : Nat := 1024
  tok : Tab Share := []
  poolFree : Nat := 16384
  pool : Tab Share := []
  /-- R421: tick of the last mismatch by ledger * 64 + VI (32 for the unallocated count). -/
  ledMismatch : Tab Nat := []
  /-- R418: tick of the last audit of ledgers 4 and 5; absent when one is due. -/
  shareAudit : Tab Nat := []
  /-- R421: units that a correction of ledger 4 or 5 found missing: returns restore them before the unallocated count grows. -/
  owed : Tab Nat := []
  /-- R415 step 3: grants whose units are withdrawn but not yet in the unallocated count: ledger, gaining share, units; oldest first. -/
  dueGrants : List (Nat × Nat × Nat) := []
  /-- R419: the tick at which the die last came into service. -/
  upSince : Nat := 0
  /-- Power (R424 to R460): Substation, pinned OP, ceiling, grants (link, memory, compute in 0.1 W), measured power. -/
  subst : Subst := {}
  pinned : Option Nat := none
  ceiling : Nat := 15
  safeRate : Option Nat := none
  /-- Ledger 7: the grants as this die applies them. -/
  grants : List Nat := [0, 0, 0]
  power : List Nat := [0, 0, 0]
  powerSum : List Nat := [0, 0, 0]
  /-- The last 1 µs measures (R424). -/
  powerNow : List Nat := [0, 0, 0]
  tripSince : Tab Nat := []
  hints : List Hint := []
  governs : Option Hint := none
  /-- R455: preferred OPs by VI * 4 + phase; OP15 when absent. -/
  prefs : Tab Nat := []
  activity : Tab Activity := []
  /-- R460: the core voltage and the hottest reading over the slice. -/
  slice : Slice := {}
  memCap25 : Bool := false
  pdLever : Bool := false
  /-- R339 to R342: scan period in ms (0 off), tick of the last scan, and for each tenant the stalled scope last seen. -/
  scanMs : Nat := 100
  lastScan : Nat := 0
  scopes : Tab (List (Nat × Word)) := []
  reported : Tab (List (Nat × Word)) := []
  /-- R559: the core is swapping since this tick; its revision; the events (VI, entry) held meanwhile. -/
  swapping : Option Nat := none
  rev : BitVec 16 := 0
  heldEvents : List (Nat × Word × Word) := []
  deriving DecidableEq, Repr

/-! ### The host side (16, 17) -/

/-- What a ring command has become (R487, R492). -/
inductive Work where
  | waiting
  | launch (count next live ended endErr refused : Nat)
  | dmaWait | dmaChain | mu | consist | shunt | route
  | sigSet
  | sigWait (due timeoutUs : Nat) (retry : Option Nat)
  | fence
  deriving DecidableEq, Repr

/-- R487: a command accepted and not completed. -/
structure RCmd where
  idx : BitVec 32
  w : List Word
  cls : Cls
  deadline : Nat
  dies : List Nat
  /-- Acceptance order over the VI's rings (R492 FENCE ALLRINGS). -/
  order : Nat
  started : Bool := false
  work : Work := .waiting
  /-- The work is done: its completion STATUS and result stand here until its entry is written. -/
  result : Option (Nat × Word) := none
  deriving DecidableEq, Repr

inductive RingState where
  | disabled | running | stopped
  deriving DecidableEq, Repr

/-- R483 to R499: a ring. -/
structure Ring where
  st : RingState := .disabled
  size : Nat := 64
  cmdBase : Word := 0
  cplBase : Word := 0
  fetchCls : Cls := 0
  ccount : Nat := 1
  ctime : Nat := 0
  head : BitVec 32 := 0
  tail : BitVec 32 := 0
  fetch : BitVec 32 := 0
  held : List RCmd := []
  /-- Entries written beyond HEAD (R498). -/
  doneAhead : List (BitVec 32) := []
  unsignalled : Nat := 0
  firstUnsig : Nat := 0
  deriving DecidableEq, Repr

inductive ViState where
  | disabled | free | bound | resetting
  deriving DecidableEq, Repr

/-- R401 to R408: a VI on a package. -/
structure Vi where
  st : ViState := .disabled
  tenant : Nat := 0
  ceiling : Cls := 0
  scrub : Bool := false
  wbBase : Nat := 0
  trapPc : BitVec 48 := 0
  rings : Tab Ring := []
  /-- R487: round robin position among rings; order of the next acceptance. -/
  lastRing : Nat := 15
  nextOrder : Nat := 0
  /-- R331: default timeout in us. -/
  timeoutUs : Nat := 10000
  /-- R35: missed deadlines by class. -/
  missed : List Nat := [0, 0, 0]
  /-- R514: the event queue (two words each) and its dropped count. -/
  events : List (Word × Word) := []
  evDropped : BitVec 16 := 0
  /-- R461: energy in uJ, and the part below 1 uJ in fJ. -/
  energy : Word := 0
  energyFj : Nat := 0
  /-- R406: reset in progress: the step reached, its start tick, scrub choice, unbind, disable after, mailbox that waits. -/
  rStep : Nat := 0
  rStart : Nat := 0
  rScrub : Bool := false
  rUnbind : Bool := false
  rDisable : Bool := false
  /-- Ranges that a MAP or UNMAP cut short by the reset leaves to release (R132, R521). -/
  rRanges : List (Nat × Nat) := []
  /-- R477: how often each MSI-X vector has been signalled; the MSI-X table, two words a vector, and the pending bits (R469, log 41). -/
  msix : Tab Nat := []
  msixTable : Tab Word := []
  msixPba : Word := 0
  /-- R403: a bind that waits for the central station: ceiling, scrub, tenant, tokens, pool. -/
  binding : Option (Nat × Nat × Nat × Nat × Nat) := none
  deriving DecidableEq, Repr

/-- A response kept for repeats (R509). -/
structure Stored where
  seq : BitVec 16
  cls : BitVec 8
  code : BitVec 8
  rsp : List Byte
  deriving DecidableEq, Repr

/-- What an owned request waits for (R512). -/
inductive MbWait where
  | none
  | perform
  | viReturn (vi : Nat)
  /-- Ranges (die, owner-map index) to release once no request translated under an old entry is out (R132, R138): the requests of the
  VI that were out at the change, as die * 4096 + tag. -/
  | sections (ranges : List (Nat × Nat)) (tags : List Nat)
  | abort (ring : Nat)
  | cap (tray : Bool) (inForce : Bool) (since : Nat)
  | pin (dies : List Nat)
  | hostRead
  | commit
  | retrain (port : Nat)
  | unitIn (die unit : Nat)
  | bind (vi : Nat)
  | relay
  | answer (status : Nat) (detail : Nat) (body : List Byte)
  deriving DecidableEq, Repr

/-- R472, R500: a mailbox. -/
structure Mailbox where
  owned : Bool := false
  done : Bool := false
  dropped : Bool := false
  seqDone : BitVec 16 := 0
  req : List Byte := List.replicate 256 0
  rsp : List Byte := List.replicate 256 0
  stored : List Stored := []
  wait : MbWait := .none
  deriving DecidableEq, Repr

/-- Phases of a package (R533, R569, R571). -/
inductive Phase where
  | off | strap | load | run | resetting | beacon
  deriving DecidableEq, Repr

/-- Firmware staging (R527). -/
inductive FwState where
  | idle | staging | checked | swapping
  deriving DecidableEq, Repr

/-- One package. -/
structure Pkg where
  phase : Phase := .off
  /-- Ticks at power-good and at the last phase change. -/
  since : Nat := 0
  /-- R61: the reference tick count. -/
  tick : Nat := 0
  /-- R538: the package epoch. -/
  epoch : BitVec 16 := 0
  /-- Straps (R535, R573): samples taken (levels of STN2 to STN11), faults found, latched values. -/
  samples : List (List PinLevel) := []
  strapFault : Bool := false
  tested : List Nat := []
  clean : Bool := false
  lead : Bool := false
  boot : Bool := false
  rack : Nat := 0
  tray : Nat := 0
  slot : Nat := 0
  /-- R537: the running image; the image that a live update leaves for the next package reset (log 40). -/
  image : Option ImageInfo := none
  nextImage : Option ImageInfo := none
  /-- R541: held out of service. -/
  held : Bool := false
  /-- R539, R542: the central station this package knows, the latest map version it has seen, and, on the central station,
  the roster, the bindings (package * 4096 + tenant), whether a map must be sent, and the tick the join window opened. -/
  central : Option Nat := none
  mapVersion : BitVec 32 := 0
  roster : List Registration := []
  bindings : List Nat := []
  mapDue : Bool := false
  joinAt : Option Nat := none
  /-- R375: dies that have installed the present version. -/
  installed : List Nat := []
  joined : Bool := false
  lastAlign : Nat := 0
  /-- R543: ticks still to add (positive) or withhold (negative), one in every 1,000. -/
  drift : Int := 0
  driftCount : Nat := 0
  vis : Tab Vi := []
  mbs : Tab Mailbox := []
  /-- R513: mailboxes whose GO has arrived and whose request is not performed yet, in order. -/
  goQueue : List Nat := []
  vfEnable : Bool := false
  vfEnable16 : Bool := false
  /-- R133, R134: section entries by VI * 2^23 + section; level-2 tables in use, by VI * 2048 + level-1 index. -/
  sections : Tab SectionEntry := []
  l2 : Tab Nat := []
  /-- R591: window B lookasides of the two ports. -/
  wbLa0 : List LaEntry := []
  wbLa4 : List LaEntry := []
  /-- R487: round robin among the VIs of the port on die 0, and of the port on die 4. -/
  lastVi : Nat := 31
  lastVi4 : Nat := 31
  /-- SHUNT commands in progress. -/
  shCmds : List ShCmd := []
  nextCmd : Nat := 0
  /-- R514: the tray controller's event queue. -/
  tcEvents : List (Word × Word) := []
  tcDropped : BitVec 16 := 0
  /-- Power (R433 to R459). -/
  hostCap : Nat := 1400
  trayCap : Nat := 1400
  capForce : Nat := 1400
  /-- Ledger 7: the head Turja's grants, by die * 3 + domain; R421: the package holds its floors. -/
  grants : List Nat := []
  floorHold : Bool := false
  capSince : Nat := 0
  capPending : Bool := false
  capAnswered : Bool := true
  levers : Nat := 0
  priority : List Nat := [0, 1, 2]
  minWidth : Nat := 2
  fixedRate : Nat := 0
  inputMean : Nat := 0
  inputSum : Nat := 0
  inputNum : Nat := 0
  inputNow : Nat := 0
  inputWin : List Nat := []
  /-- R424, R460: ticks of the last power measure and of the last energy slice. -/
  lastMeasure : Nat := 0
  lastSlice : Nat := 0
  hardThrottle : Bool := false
  hardCount : BitVec 32 := 0
  calmSince : Option Nat := none
  freightGated : Bool := false
  lastInterval : Nat := 0
  /-- The projections of the last interval (R436 to R443). -/
  proj : Option PowerProj := none
  watermarks : Tab Watermark := []
  energyUn : Word := 0
  energyUnFj : Nat := 0
  ledgerFaults : Word := 0
  /-- R478: that count as the physical-function area last took it. -/
  ledgerShown : Word := 0
  /-- R303: revision interval in ms, and the tick of the last revision. -/
  revMs : Nat := 0
  lastRev : Nat := 0
  /-- R527: staging. -/
  fwState : FwState := .idle
  staged : List Byte := []
  stagedBy : Nat := 0
  stagedImage : Option ImageInfo := none
  swapQueue : List Nat := []
  swapFailed : List Nat := []
  /-- R577, R578: STN3 and the beacon. -/
  stn3 : Bool := false
  pulses : Nat := 0
  heartbeat : Bool := false
  beatAt : Nat := 0
  checkin : Nat := 0
  beacon : BitVec 8 := 0
  quarter : Nat := 0
  quarterAt : Nat := 0
  /-- R582: levels of PERST0# and PERST1#, and whether the PCIe links are up. -/
  perst0 : Bool := true
  perst1 : Bool := true
  link0 : Bool := false
  link4 : Bool := false
  resetAt : Nat := 0
  preserve : Bool := false
  /-- R481, R467: what the last window B read, AtomicOp or Unsupported Request returned to the host. -/
  rdData : List Byte := []
  rdPoison : Bool := false
  unsupported : Nat := 0
  deriving DecidableEq, Repr

/-- The machine. -/
structure State where
  /-- DRAM and yard SRAM bytes by physical address; an unlisted byte reads 0 (R533: zeroed at start-up). -/
  mem : List Host.Cell := []
  /-- R129: words (by physical address / 8) that hold an uncorrectable error. -/
  poison : List Nat := []
  /-- R594: what each of them reads as. -/
  asRead : Tab (BitVec 64) := []
  /-- Host memory by package * 2^64 + bus address; an unlisted byte reads 0 (log 4). -/
  hostMem : List Host.Cell := []
  pkgs : Tab Pkg := []
  dies : Tab Die := []
  clusters : Tab Cluster := []
  threads : Tab Thread := []
  /-- Packets of every die's own units that have not left the die yet, oldest first (those on their way stand in Die.rx). -/
  net : List Packet := []
  /-- Messages between head Turjas that the Buffer stop dropped, until the sender learns of it (log 97). -/
  lost : List Packet := []
  /-- The model's own: how many free values the run has drawn (log 2). -/
  free : Nat := 0
  /-- The commands that wait, first in first out. -/
  pending : List Instr := []
  deriving DecidableEq, Repr

/-- Why a step stops the machine. -/
inductive Fault where
  /-- Raised by a command that names a unit the spec says does not exist (junction 3 of a die, R516; a strap pin
  outside STN2 to STN11, R572). Safe: the model stops where no hardware exists. -/
  | noSuchUnit
  deriving DecidableEq, Repr

/-- Why a command has no meaning. -/
inductive Refusal where
  /-- Raised by an arm of exec whose command has no meaning yet. Safe. -/
  | notModelled (mnemonic : String)
  deriving DecidableEq, Repr

/-- The machine before any package has power (log 3): POWER_GOOD starts one. -/
def State.reset : State := {}

end Sys2Proof.Machine
end

