-- ==== Sys2Proof/Machine/Tab.lean ====
section
/-! DEFINITION. Tables by number (Tab), numbers as bytes and bit fields, and small list helpers. -/
set_option Elab.async false
namespace Sys2Proof.Machine

/-- The entry at a key, if the table lists one. -/
def tget? {α : Type} : Tab α → Nat → Option α
  | [], _ => none
  | (a, b) :: r, k => if a = k then some b else tget? r k

/-- The entry at a key, or the table's default. -/
def tget {α : Type} (t : Tab α) (k : Nat) (d : α) : α := (tget? t k).getD d

/-- The table with one entry written, in rising order of keys. -/
def tset {α : Type} : Tab α → Nat → α → Tab α
  | [], k, v => [(k, v)]
  | (a, b) :: r, k, v =>
    if k < a then (k, v) :: (a, b) :: r else if a = k then (k, v) :: r else (a, b) :: tset r k v

def terase {α : Type} (t : Tab α) (k : Nat) : Tab α := t.filter (fun e => e.1 != k)

def thas {α : Type} (t : Tab α) (k : Nat) : Bool := (tget? t k).isSome

def tmap {α : Type} (t : Tab α) (f : Nat → α → α) : Tab α := t.map (fun e => (e.1, f e.1 e.2))

/-- Bits lo to lo + w - 1 of a number. -/
def bits (n lo w : Nat) : Nat := n / 2 ^ lo % 2 ^ w

def bit (n i : Nat) : Bool := n / 2 ^ i % 2 == 1

/-- Little-endian bytes to a number (R91, R504). -/
def leNat : List Byte → Nat
  | [] => 0
  | b :: r => b.toNat + 256 * leNat r

/-- A number as k little-endian bytes. -/
def leBytes : Nat → Nat → List Byte
  | 0, _ => []
  | k + 1, n => BitVec.ofNat 8 n :: leBytes k (n / 256)

/-- Signed value of the low w bits of a number. -/
def signed (n w : Nat) : Int :=
  let m := n % 2 ^ w
  if m < 2 ^ (w - 1) then (m : Int) else (m : Int) - 2 ^ w

/-- The low w bits of an integer in two's complement. -/
def unsigned (i : Int) (w : Nat) : Nat := (i % (2 ^ w : Int)).toNat

/-- Cuts a list into pieces of n. -/
def chunks {α : Type} (n : Nat) : Nat → List α → List (List α)
  | 0, _ => []
  | k + 1, l => l.take n :: chunks n k (l.drop n)

/-- Writes place i of a list (no effect beyond its end). -/
def lset {α : Type} (l : List α) (i : Nat) (a : α) : List α := l.set i a

def b2n (b : Bool) : Nat := if b then 1 else 0

/-- A saturating count of w bits. -/
def satAdd (w n k : Nat) : Nat := min (n + k) (2 ^ w - 1)

/-- The first index below a bound that satisfies a test. -/
def findBelow (p : Nat → Bool) (n : Nat) : Option Nat := (List.range n).find? p

/-- The least element by a strict order, the earliest among equals. -/
def minBy {α : Type} (lt : α → α → Bool) : List α → Option α
  | [] => none
  | a :: r =>
    match minBy lt r with
    | none => some a
    | some b => if lt b a then some b else some a

/-- Sorted insertion, before the first element that is later. -/
def insertBy {α : Type} (lt : α → α → Bool) (a : α) : List α → List α
  | [] => [a]
  | b :: r => if lt a b then a :: b :: r else b :: insertBy lt a r

/-- Folds a state through a list. -/
def forEach {σ α : Type} (l : List α) (f : σ → α → σ) (s : σ) : σ := l.foldl f s

/-- Removes the first element that satisfies a test. -/
def dropFirst {α : Type} (p : α → Bool) : List α → List α
  | [] => []
  | a :: r => if p a then r else a :: dropFirst p r

end Sys2Proof.Machine
end

