-- ==== Sys2Proof/Machine/Ops.lean ====
section
/-! DEFINITION. The named operations over State: its packages, dies, clusters and threads; numbering (R12 to R14);
physical addresses (R21, R22); memory bytes and their error marks (R129); free values; events, faults and records
(R90, R154, R337, R342, R420, R514). -/
set_option Elab.async false
namespace Sys2Proof.Machine

abbrev Out := Host.Outcome State Fault Refusal

/-! ### Reading and writing the parts of a machine -/

def State.pkg (s : State) (p : Nat) : Pkg := tget s.pkgs p {}
def State.setPkg (s : State) (p : Nat) (x : Pkg) : State := { s with pkgs := tset s.pkgs p x }
def State.modPkg (s : State) (p : Nat) (f : Pkg → Pkg) : State := s.setPkg p (f (s.pkg p))

/-- A die by package * 8 + die. -/
def State.die (s : State) (d : Nat) : Die := tget s.dies d {}
def State.setDie (s : State) (d : Nat) (x : Die) : State := { s with dies := tset s.dies d x }
def State.modDie (s : State) (d : Nat) (f : Die → Die) : State := s.setDie d (f (s.die d))

/-- A cluster by die * 32 + cluster. -/
def State.cluster (s : State) (c : Nat) : Cluster := tget s.clusters c {}
def State.setCluster (s : State) (c : Nat) (x : Cluster) : State := { s with clusters := tset s.clusters c x }
def State.modCluster (s : State) (c : Nat) (f : Cluster → Cluster) : State := s.setCluster c (f (s.cluster c))

/-- A thread by its global thread number (R14). -/
def State.thread (s : State) (th : Nat) : Thread := tget s.threads th {}
def State.setThread (s : State) (th : Nat) (x : Thread) : State := { s with threads := tset s.threads th x }
def State.modThread (s : State) (th : Nat) (f : Thread → Thread) : State := s.setThread th (f (s.thread th))

def State.vi (s : State) (p v : Nat) : Vi := tget (s.pkg p).vis v {}
def State.setVi (s : State) (p v : Nat) (x : Vi) : State := s.modPkg p (fun k => { k with vis := tset k.vis v x })
def State.modVi (s : State) (p v : Nat) (f : Vi → Vi) : State := s.setVi p v (f (s.vi p v))

/-! ### Numbers (R12 to R14) -/

/-- R14: a thread's die (package * 8 + die), cluster (die * 32 + cluster) and thread processor within its die. -/
def thDie (th : Nat) : Nat := th / 4096
def thCluster (th : Nat) : Nat := th / 128
def thTp (th : Nat) : Nat := th / 32 % 128
def diePkg (d : Nat) : Nat := d / 8
def dieNo (d : Nat) : Nat := d % 8
def clDie (c : Nat) : Nat := c / 32
def clNo (c : Nat) : Nat := c % 32

/-- The reference tick count that a die works with: its package's (R61). -/
def State.now (s : State) (d : Nat) : Nat := (s.pkg (diePkg d)).tick

/-- Ticks (10 ns) in a microsecond and a millisecond (R61). -/
def tickUs : Nat := 100
def tickMs : Nat := 100000

/-! ### Service (R25, R541, R545) -/

/-- A package in run phase (R571); one that is held runs on with its ports dark (R541). -/
def State.pkgUp (s : State) (p : Nat) : Bool := (s.pkg p).phase == .run

/-- A die in service. -/
def State.dieUp (s : State) (d : Nat) : Bool := s.pkgUp (diePkg d) && ((s.die d).st == .inService)

/-- R13, R537: the machine holds packages of racks 0 to RACKS - 1. -/
def State.inMachine (s : State) (own p : Nat) : Bool :=
  match (s.pkg own).image with
  | some i => decide (p < 64 * i.racks)
  | none => decide (p = own)

/-- R556: whether unit u of a die passes new work. -/
def State.unitOpen (s : State) (d u : Nat) : Bool :=
  let x := s.die d
  x.gate.getLsbD u && x.table.getLsbD u && !thas x.drains u

/-- R557: work in progress on a unit goes on while its gate is open, in a drain too. -/
def State.unitRuns (s : State) (d u : Nat) : Bool := (s.die d).gate.getLsbD u

/-! ### Physical addresses (R21 to R24) -/

def paSpace (pa : Nat) : Nat := pa / 2 ^ 48
/-- Package * 8 + die of a physical address. -/
def paDie (pa : Nat) : Nat := pa / 2 ^ 37 % 2 ^ 11
def paOff (pa : Nat) : Nat := pa % 2 ^ 37
def mkPa (space d off : Nat) : Nat := space * 2 ^ 48 + d * 2 ^ 37 + off

def dramSize : Nat := 0x600000000
def yardSize : Nat := 0x4000000

/-- R22, R319, R517: the offset is populated. -/
def paPopulated (pa : Nat) : Bool :=
  let o := paOff pa
  match paSpace pa with
  | 0 => decide (o < dramSize)
  | 1 => decide (o < yardSize)
  | 2 => decide (o < 0x40000) || (decide (0x100000 ≤ o) && decide (o < 0x120000) && decide (o / 16 % 64 < 48))
  | _ => false

/-- R131: the index of a range in its die's owner map: DRAM section, or 768 + yard granule. -/
def ownerIdx (pa : Nat) : Nat :=
  if paSpace pa = 0 then paOff pa / 2 ^ 25 else 768 + paOff pa / 2 ^ 16

def State.owner (s : State) (pa : Nat) : Nat := tget (s.die (paDie pa)).owner (ownerIdx pa) 0

/-- R131: tenant 0 passes every check; any other tenant must own the range. -/
def State.owns (s : State) (tenant pa : Nat) : Bool := tenant == 0 || s.owner pa == tenant

/-! ### Memory bytes -/

/-- A byte of a canonical byte memory: an unlisted byte reads 0. -/
def memGet : List Host.Cell → Nat → Byte
  | [], _ => 0
  | (a, b) :: r, k => if a = k then b else memGet r k

/-- A byte written, keeping addresses rising and no listed zero. -/
def memSet : List Host.Cell → Nat → Byte → List Host.Cell
  | [], k, v => if v = 0 then [] else [(k, v)]
  | (a, b) :: r, k, v =>
    if k < a then (if v = 0 then (a, b) :: r else (k, v) :: (a, b) :: r)
    else if a = k then (if v = 0 then r else (k, v) :: r)
    else (a, b) :: memSet r k v

/-- The canonical form: addresses strictly rising, and no entry 0. -/
def Memory.wf : List Host.Cell → Bool
  | [] => true
  | (_, b) :: [] => b != 0
  | (a, b) :: (a', b') :: r => b != 0 && decide (a < a') && Memory.wf ((a', b') :: r)

def memRead (m : List Host.Cell) (a : Nat) : Nat → List Byte
  | 0 => []
  | n + 1 => memGet m a :: memRead m (a + 1) n

def memWrite (m : List Host.Cell) (a : Nat) : List Byte → List Host.Cell
  | [] => m
  | b :: r => memWrite (memSet m a b) (a + 1) r

/-- Removes every byte in a range. -/
def memClear (m : List Host.Cell) (lo hi : Nat) : List Host.Cell := m.filter (fun c => c.1 < lo || hi ≤ c.1)

def State.readPa (s : State) (pa n : Nat) : List Byte := memRead s.mem pa n

/-- R129: whether a range touches a word marked uncorrectable; the first such word's address. -/
def State.poisonIn (s : State) (pa n : Nat) : Option Nat :=
  (s.poison.find? (fun w => pa / 8 ≤ w && w * 8 < pa + n)).map (· * 8)

/-- R129: writes bytes; a word fully covered loses its uncorrectable mark. -/
def State.writePa (s : State) (pa : Nat) (bytes : List Byte) : State :=
  { s with mem := memWrite s.mem pa bytes,
           poison := s.poison.filter (fun w => !(pa ≤ w * 8 && w * 8 + 8 ≤ pa + bytes.length)) }

/-- Writes the bytes a mask selects (byte i of the list goes to pa + i), word by word: only a full word clears its mark. -/
def memWriteMasked (m : List Host.Cell) (pa : Nat) : List (Bool × Byte) → List Host.Cell
  | [] => m
  | (k, b) :: r => memWriteMasked (if k then memSet m pa b else m) (pa + 1) r

def fullWords (pa : Nat) (sel : List Bool) : List Nat :=
  (List.range (sel.length / 8 + 2)).filterMap (fun i =>
    let w := pa / 8 + i
    if (List.range 8).all (fun j => let a := w * 8 + j; decide (pa ≤ a) && sel.getD (a - pa) false) then some w else none)

def State.writeMasked (s : State) (pa : Nat) (bs : List (Bool × Byte)) : State :=
  let full := fullWords pa (bs.map (·.1))
  { s with mem := memWriteMasked s.mem pa bs, poison := s.poison.filter (fun w => !full.contains w) }

/-- A word of which some byte is selected. -/
def touchesWord (pa : Nat) (sel : List Bool) (w : Nat) : Bool :=
  (List.range 8).any (fun j => let a := w * 8 + j; decide (pa ≤ a) && sel.getD (a - pa) false)

/-- R129: the partial write meets a marked word (some byte written, not all eight whole). -/
def State.partialPoison (s : State) (pa : Nat) (sel whole : List Bool) : Option Nat :=
  (s.poison.find? (fun w => touchesWord pa sel w && !(fullWords pa whole).contains w)).map (· * 8)

/-- Merged bytes: a word of which some bit keeps its value keeps its mark (R129, R204). -/
def State.writeMerged (s : State) (pa : Nat) (bs : List (Bool × Byte)) (whole : List Bool) : State :=
  { s with mem := memWriteMasked s.mem pa bs, poison := s.poison.filter (fun w => !(fullWords pa whole).contains w) }

/-! ### Host memory -/

def hostKey (p : Nat) (a : Nat) : Nat := p * 2 ^ 64 + a % 2 ^ 64
def State.hostRead (s : State) (p a n : Nat) : List Byte := memRead s.hostMem (hostKey p a) n
def State.hostWrite (s : State) (p a : Nat) (bytes : List Byte) : State :=
  { s with hostMem := memWrite s.hostMem (hostKey p a) bytes }

/-! ### Free values -/

/-- The next free value (log 2), and the state with the count advanced. -/
def State.draw (s : State) : BitVec 64 × State := (Config.freeValue s.free, { s with free := s.free + 1 })

/-! ### Queues, events and faults -/

/-- R90: a queue of at most n records; one that finds it full is dropped and counted in a saturating 16-bit count. -/
def pushQ {α : Type} (n : Nat) (q : List α) (dropped : BitVec 16) (r : α) : List α × BitVec 16 :=
  if q.length < n then (q ++ [r], dropped) else (q, BitVec.ofNat 16 (satAdd 16 dropped.toNat 1))

/-- The mask bit of a vector's table entry; set until the host clears it (log 41). -/
def msixMasked (x : Vi) (vec : Nat) : Bool := bit (tget x.msixTable (2 * vec + 1) (BitVec.ofNat 64 (2 ^ 32))).toNat 32

/-- R477: a function's MSI-X vector is signalled; while masked, it is pending (log 41). -/
def signalMsix (vec : Nat) (x : Vi) : Vi :=
  if msixMasked x vec then { x with msixPba := x.msixPba ||| BitVec.ofNat 64 (2 ^ vec) }
  else { x with msix := tset x.msix vec (tget x.msix vec 0 + 1) }

def State.msix (s : State) (p v vec : Nat) : State := s.modVi p v (signalMsix vec)

/-- R514: the two words of an event entry. -/
def eventEntry (code die epoch unit value tick : Nat) : Word × Word :=
  (BitVec.ofNat 64 (code * 2 ^ 52 + die % 8 * 2 ^ 49 + epoch % 256 * 2 ^ 41 + unit % 512 * 2 ^ 32 + value % 2 ^ 32),
   BitVec.ofNat 64 tick)

def noUnit : Nat := 0x1FF

/-- R514, R476, R477: an entry reaches a VI's queue (64 entries) and vector 1 is signalled; what is raised to VI 0 goes to the tray
controller's queue as well. -/
def State.postEvent (s : State) (p v : Nat) (e : Word × Word) : State :=
  let s := s.modVi p v (fun x =>
    let (q, dr) := pushQ 64 x.events x.evDropped e
    { x with events := q, evDropped := dr })
  let s := s.msix p v 1
  if v = 0 then
    s.modPkg p (fun k =>
      let (q, dr) := pushQ 64 k.tcEvents k.tcDropped e
      { k with tcEvents := q, tcDropped := dr })
  else s

/-- R514, R559: an event of die d is raised to a VI of its package; it waits while the die's core swaps. -/
def State.event (s : State) (d v code unit value : Nat) : State :=
  let e := eventEntry code (dieNo d) (s.die d).epoch.toNat unit value (s.now d)
  if (s.die d).swapping.isSome then s.modDie d (fun x => { x with heldEvents := x.heldEvents ++ [(v, e)] })
  else s.postEvent (diePkg d) v e

/-- R515: event and fault codes. -/
abbrev evMiswire := 0x001
abbrev evLinkDown := 0x002
abbrev evLinkUp := 0x003
abbrev evLinkWidth := 0x004
abbrev evLinkRetrain := 0x005
abbrev evRouteChange := 0x006
abbrev evTicketHeld := 0x007
abbrev evMonitorStale := 0x008
abbrev evRateShort := 0x009
abbrev evWaitTimeout := 0x00A
abbrev evSigGone := 0x00B
abbrev evBlockSection := 0x00C
abbrev evBooksGranted := 0x00D
abbrev evBooksRebuilt := 0x00E
abbrev evViReady := 0x00F
abbrev evResetForced := 0x010
abbrev evCapUnattainable := 0x011
abbrev evCapAttained := 0x012
abbrev evHardThrottle := 0x013
abbrev evThermalHard := 0x014
abbrev evWatermark := 0x015
abbrev evFixedPaced := 0x016
abbrev evRingOverrun := 0x017
abbrev evRingStopped := 0x018
abbrev evReconcile := 0x019
abbrev fltPaHole := 0x101
abbrev fltCoreUv := 0x102
abbrev fltWinDouble := 0x103
abbrev fltTicketLost := 0x104
abbrev fltDepotLost := 0x105
abbrev fltDepotOwner := 0x106
abbrev fltMemUe := 0x107
abbrev fltForeignAccess := 0x108
abbrev fltWbGone := 0x109
abbrev fltAccGuard := 0x10A
abbrev fltSigForeign := 0x10B
abbrev fltPointsTable := 0x10C
abbrev fltJunction := 0x10D
abbrev fltLedger := 0x10E
abbrev fltSubstShort := 0x10F
abbrev fltThermalTrip := 0x110
abbrev fltWindowMiss := 0x111

/-- R90: the thread fault record is queued on the thread's die and posted to its VI (R75, R89, R515). -/
def State.threadFault (s : State) (th kind : Nat) (pc : Nat) (first second epc : Nat) (addr : Word) : State :=
  let d := thDie th
  let t := s.thread th
  let x := s.die d
  let w0 := BitVec.ofNat 64 (kind * 2 ^ 60 + t.tenant % 4096 * 2 ^ 48 + t.vi % 32 * 2 ^ 43 + th % 2 ^ 23 * 2 ^ 20 + x.epoch.toNat * 2 ^ 12)
  let w1 := BitVec.ofNat 64 (pc % 2 ^ 48)
  let w2 := BitVec.ofNat 64 (first * 2 ^ 56 + second * 2 ^ 48 + epc % 2 ^ 48)
  let (q, dr) := pushQ 64 x.threadFaults x.threadDropped [w0, w1, w2, addr]
  (s.setDie d { x with threadFaults := q, threadDropped := dr }).event d t.vi (if kind = 1 then fltWinDouble else fltTicketLost) noUnit th

/-- The event code of a memory fault KIND (R154, R515). -/
def memFaultCode (kind : Nat) : Nat :=
  match kind with
  | 1 => fltDepotLost | 2 => fltDepotOwner | 3 => fltMemUe | 4 => fltForeignAccess | 5 => fltPaHole | 6 => fltWbGone
  | _ => fltWindowMiss

/-- What a memory fault record says (R154). -/
structure MemRec where
  kind : Nat
  tenant : Nat := 0
  vi : Nat := 0
  cluster : Nat := 0
  set_ : Nat := 0
  way : Nat := 0
  dirty : Nat := 0
  pkg : Bool := false
  pa : Nat := 0
  detail : Nat := 0

/-- R154: the four words of a memory fault record. -/
def memRecWords (d epoch : Nat) (r : MemRec) : List Word :=
  let v := if r.pkg then 0 else r.vi
  let t := if r.pkg then 0 else r.tenant
  [BitVec.ofNat 64 (r.kind * 2 ^ 60 + t % 4096 * 2 ^ 48 + v % 32 * 2 ^ 43 + r.cluster % 32 * 2 ^ 38 + d % 8 * 2 ^ 35 +
     r.set_ % 256 * 2 ^ 27 + r.way % 8 * 2 ^ 24 + r.dirty % 16 * 2 ^ 20 + epoch % 256 * 2 ^ 12 + b2n r.pkg * 2 ^ 11),
   BitVec.ofNat 64 (r.pa % 2 ^ 52), BitVec.ofNat 64 r.detail, 0]

/-- R154: a memory fault record is queued on a die and posted to the VI it names (VI 0 for a package-level record). -/
def State.memFault (s : State) (d : Nat) (r : MemRec) : State :=
  let x := s.die d
  let (q, dr) := pushQ 64 x.memFaults x.memDropped (memRecWords (dieNo d) x.epoch.toNat r)
  (s.setDie d { x with memFaults := q, memDropped := dr }).event d (if r.pkg then 0 else r.vi) (memFaultCode r.kind)
    (if r.kind = 1 ∨ r.kind = 2 ∨ r.kind = 6 then r.cluster else noUnit) 0

/-- A 32-bit saturating counter of R154: 0 CE_DEPOT, 1 TAG_REFETCH, 2 UE_REFETCH, 3 CE_DRAM, 4 CE_YARD, 5 WB_DROPPED,
6 WB_GONE. -/
def State.count (s : State) (d i : Nat) : State :=
  s.modDie d (fun x => { x with counters := x.counters.set i (BitVec.ofNat 32 (satAdd 32 (x.counters.getD i 0).toNat 1)) })

def State.staleRsp (s : State) (d : Nat) : State :=
  s.modDie d (fun x => { x with staleRsp := BitVec.ofNat 32 (satAdd 32 x.staleRsp.toNat 1) })

/-- R337: what a signal event record says. -/
structure SigRec where
  reason : Nat
  tenant : Nat
  vi : Nat
  wkind : Nat
  waiter : Nat
  handle : Word
  threshold : Nat := 0
  count : Nat := 0
  timeoutUs : Nat := 0
  take : Bool := false

def sigRecWords (r : SigRec) : List Word :=
  [BitVec.ofNat 64 (r.reason * 2 ^ 60 + r.tenant % 4096 * 2 ^ 48 + r.vi % 32 * 2 ^ 43 + r.wkind % 4 * 2 ^ 41 + r.waiter % 2 ^ 23),
   r.handle, BitVec.ofNat 64 (r.threshold % 2 ^ 32 * 2 ^ 32 + r.count % 2 ^ 32),
   BitVec.ofNat 64 (r.timeoutUs % 2 ^ 32 * 2 ^ 32 + b2n r.take)]

/-- R334, R325, R337: a signal event record is queued on die d, and the event that goes with it is raised. -/
def State.sigEvent (s : State) (d : Nat) (r : SigRec) : State :=
  let x := s.die d
  let (q, dr) := pushQ 64 x.sigEvents x.sigDropped (sigRecWords r)
  (s.setDie d { x with sigEvents := q, sigDropped := dr }).event d r.vi (if r.reason = 4 then evSigGone else evWaitTimeout) noUnit 0

/-- The VI through which a tenant holds a package (R27), while BOUND. -/
def State.viOf (s : State) (p tenant : Nat) : Option Nat :=
  if tenant = 0 then none
  else ((s.pkg p).vis.find? (fun e => e.2.tenant == tenant && e.2.st == .bound)).map (·.1)

/-- R405: a tenant is served on a package: tenant 0, or a tenant with a BOUND VI there. -/
def State.served (s : State) (p tenant : Nat) : Bool := tenant == 0 || (s.viOf p tenant).isSome

/-- R406: the VI of a tenant on a package resets. -/
def State.resets (s : State) (p tenant : Nat) : Bool := (s.pkg p).vis.any (fun v => v.2.tenant == tenant && v.2.st == .resetting)

/-! ### Activity counts (R460) -/

abbrev actTp := 0
abbrev actMuBeat := 1
abbrev actMuGated := 2
abbrev actConsist := 3
abbrev actDepot := 4
abbrev actDram := 5
abbrev actYard := 6
abbrev actJunction := 7
abbrev actLink := 8
abbrev actDma := 9

/-- R460: activity on a die is counted for the VI of the tenant that it served; 32 stands for UNATTRIBUTED. -/
def State.charge (s : State) (d tenant row n : Nat) : State :=
  if n = 0 then s else
  let v := (s.viOf (diePkg d) tenant).getD 32
  s.modDie d (fun x =>
    let a := tget x.activity v []
    { x with activity := tset x.activity v (tset a row (tget a row 0 + n)) })

/-- R460: n bytes read or written at a physical address: 64 bytes of DRAM or 32 bytes of yard SRAM to a count. -/
def State.chargeMem (s : State) (tenant pa n : Nat) : State :=
  if paSpace pa = 0 then s.charge (paDie pa) tenant actDram ((n + 63) / 64) else s.charge (paDie pa) tenant actYard ((n + 31) / 32)

/-- R183: who issues a fetch: a thread, or a cluster's Shunter. -/
def PqEntry.issuer (e : PqEntry) : Nat := match e.who with | .thread t _ => t.toNat | .walk _ => 2 ^ 23

/-! ### Errors of memory words (R129, R594) -/

/-- DETAIL of a FLT_MEM_UE record (R594): the syndrome of the failing word as read; bit 8 for a partial write (R129). -/
def State.ueDetail (s : State) (pa : Nat) (partial_ : Bool) : Nat :=
  (Config.syndrome (Config.stepping (diePkg (paDie pa))) (tget s.asRead (pa / 8) 0)).val + 1 + (if partial_ then 256 else 0)

/-- What marked words read as from now on: a free value each (log 52). -/
def State.readAs (s : State) : List Nat → State
  | [] => s
  | w :: r =>
    let (v, s) := s.draw
    ({ s with asRead := tset s.asRead w v } : State).readAs r

/-- R129: a word found uncorrectable is marked. -/
def State.markUe (s : State) (w : Nat) : State :=
  if s.poison.contains w then s else ({ s with poison := s.poison ++ [w] } : State).readAs [w]

/-- R129: whether a read whose command brings no finding met a single-bit error, which is corrected and counted: a free value (log 80). -/
def State.ceFound (s : State) (d i : Nat) : State :=
  let (v, s) := s.draw
  s.modDie d (fun x =>
    { x with counters := x.counters.set i (BitVec.ofNat 32 (satAdd 32 (x.counters.getD i 0).toNat (v.toNat % 2))) })

def State.ceFoundAt (s : State) (pa : Nat) : State := s.ceFound (paDie pa) (if paSpace pa = 0 then 3 else 4)

/-! ### DRAM pseudo-channels (R589, R440) -/

/-- The pseudo-channel of a DRAM offset: 256-byte interleave over 32. -/
def dramPc (off : Nat) : Nat := off / 256 % 32

/-- The bank of an offset, as the key of its open row. -/
def bankKey (off : Nat) : Nat := dramPc off * 1024 + Config.dramBank off % 1024

/-- R589, R440: an access leaves its row open in its bank, and takes its pseudo-channel out of power-down. -/
def State.dramTouch (s : State) (pa : Nat) : State :=
  if paSpace pa = 0 then
    s.modDie (paDie pa) (fun x => { x with
      openRow := tset x.openRow (bankKey (paOff pa)) (Config.dramRow (paOff pa)),
      lastAccess := tset x.lastAccess (dramPc (paOff pa)) (s.now (paDie pa)),
      pdown := x.pdown.filter (· != dramPc (paOff pa)) })
  else s

/-! ### Section translation (R133 to R137) -/

def entryV (e : SectionEntry) : Bool := e.getLsbD 63
def entryRd (e : SectionEntry) : Bool := e.getLsbD 62
def entryWr (e : SectionEntry) : Bool := e.getLsbD 61
def entryEx (e : SectionEntry) : Bool := e.getLsbD 60
def entryStable (e : SectionEntry) : Bool := e.getLsbD 59
def entryUncached (e : SectionEntry) : Bool := e.getLsbD 58
def entryYlen (e : SectionEntry) : Nat := bits e.toNat 48 10
def entryYbase (e : SectionEntry) : Nat := bits e.toNat 38 10
def entryPbase (e : SectionEntry) : Nat := bits e.toNat 0 27

/-- R134, R136: the physical address of an offset in a section, if it translates. -/
def entryPa (e : SectionEntry) (off : Nat) : Option Nat :=
  if !entryV e then none
  else if entryPbase e / 2 ^ 23 = 1 then
    (if off < entryYlen e * 2 ^ 16 then some (entryPbase e * 2 ^ 25 + entryYbase e * 2 ^ 16 + off) else none)
  else some (entryPbase e * 2 ^ 25 + off)

/-- R133, R137: the walk of the tables: one level-1 read and one level-2 read. -/
def State.walk (s : State) (p v sec : Nat) : Option SectionEntry :=
  if thas (s.pkg p).l2 (v * 2048 + sec / 4096) then
    match tget? (s.pkg p).sections (v * 2 ^ 23 + sec) with
    | some e => if entryV e then some e else none
    | none => none
  else none

/-- R137, R591: a lookaside of n entries: a hit moves its entry to the front; a miss walks and installs a valid entry, the least
recently used leaving. -/
def laLookup (n : Nat) (la : List LaEntry) (walk : Option SectionEntry) (tenant sec : Nat) : Option SectionEntry × List LaEntry :=
  match la.find? (fun e => e.tenant == tenant && e.section_ == sec) with
  | some e => (some e.entry, e :: la.filter (fun f => !(f.tenant == tenant && f.section_ == sec)))
  | none =>
    match walk with
    | some w => (some w, ({ tenant := tenant, section_ := sec, entry := w } :: la).take n)
    | none => (none, la)

/-- What a translation gives: unmapped, or the section entry and the physical address. -/
structure Xlat where
  entry : SectionEntry
  pa : Nat
  deriving DecidableEq, Repr

def xlatOf (e : Option SectionEntry) (va : Nat) : Option Xlat :=
  match e with
  | none => none
  | some e => (entryPa e (va % 2 ^ 25)).map (fun pa => ⟨e, pa⟩)

/-- R137: translation through a cluster's lookaside. -/
def State.xlatCl (s : State) (c tenant v va : Nat) : Option Xlat × State :=
  let x := s.cluster c
  let sec := va / 2 ^ 25
  let (e, la) := laLookup 128 x.la (s.walk (diePkg (clDie c)) v sec) tenant sec
  (xlatOf e va, s.setCluster c { x with la := la })

/-- A matrix unit of a die. -/
def State.mu (s : State) (d m : Nat) : Mu := tget (s.die d).mus m {}
def State.setMu (s : State) (d m : Nat) (x : Mu) : State := s.modDie d (fun y => { y with mus := tset y.mus m x })
def State.modMu (s : State) (d m : Nat) (f : Mu → Mu) : State := s.setMu d m (f (s.mu d m))

/-- A DMA engine of a die. -/
def State.eng (s : State) (d e : Nat) : Engine := tget (s.die d).engines e {}
def State.setEng (s : State) (d e : Nat) (x : Engine) : State := s.modDie d (fun y => { y with engines := tset y.engines e x })
def State.modEng (s : State) (d e : Nat) (f : Engine → Engine) : State := s.setEng d e (f (s.eng d e))

/-- The units that translate through a lookaside of their own (R591). -/
inductive XUnit where
  | cluster (c : Nat)
  | mu (d m : Nat)
  | points (d : Nat)
  | dma (d e : Nat)
  | windowB (p : Nat) (die4 : Bool)
  deriving DecidableEq, Repr

def XUnit.die : XUnit → Nat
  | .cluster c => clDie c
  | .mu d _ => d
  | .points d => d
  | .dma d _ => d
  | .windowB p b => p * 8 + (if b then 4 else 0)

/-- R591: translation by any unit, through its lookaside. -/
def State.xlat (s : State) (u : XUnit) (tenant v va : Nat) : Option Xlat × State :=
  let sec := va / 2 ^ 25
  let w := s.walk (diePkg u.die) v sec
  if va < 2 ^ 48 then
    match u with
    | .cluster c =>
      let (e, la) := laLookup 128 (s.cluster c).la w tenant sec
      (xlatOf e va, s.modCluster c (fun x => { x with la := la }))
    | .mu d m =>
      let (e, la) := laLookup 64 (s.mu d m).la w tenant sec
      (xlatOf e va, s.modMu d m (fun x => { x with la := la }))
    | .points d =>
      let (e, la) := laLookup 64 (s.die d).ptLa w tenant sec
      (xlatOf e va, s.modDie d (fun x => { x with ptLa := la }))
    | .dma d g =>
      let (e, la) := laLookup 64 (s.eng d g).la w tenant sec
      (xlatOf e va, s.modEng d g (fun x => { x with la := la }))
    | .windowB p b =>
      let k := s.pkg p
      if b then
        let (e, la) := laLookup 64 k.wbLa4 w tenant sec
        (xlatOf e va, s.setPkg p { k with wbLa4 := la })
      else
        let (e, la) := laLookup 64 k.wbLa0 w tenant sec
        (xlatOf e va, s.setPkg p { k with wbLa0 := la })
  else (none, s)

/-! ### Arbitration (R33, R34) -/

/-- R33: the choice among ready work: the best by an order, or after 31 grants in a row over a waiting less urgent class the oldest of
those; with the new count of such grants. -/
def arbitrate {α : Type} (cls : α → Nat) (lt older : α → α → Bool) (streak : Nat) (l : List α) : Option (α × Nat) :=
  match minBy lt l with
  | none => none
  | some a =>
    let less := l.filter (fun b => decide (cls a < cls b))
    if less.isEmpty then some (a, 0)
    else if 31 ≤ streak then (match minBy older less with | some b => some (b, 0) | none => some (a, 0))
    else some (a, streak + 1)

/-- Class, then deadline, then command order. -/
def workLt (a b : Nat × Nat × Nat) : Bool :=
  decide (a.1 < b.1) || (a.1 == b.1 && (decide (a.2.1 < b.2.1) || (a.2.1 == b.2.1 && decide (a.2.2 < b.2.2))))

/-- What asks at an arbitration point: its place for round robin, its class and deadline, and its age (smaller is older). -/
structure Req where
  key : Nat
  cls : Cls
  deadline : Nat
  age : Nat := 0
  deriving DecidableEq, Repr

/-- R33, R34: the grant among requests: class, then deadline, then round robin from the place after `last` (of n places), with the lower-class
floor; and the new count of grants over a waiting less urgent class. -/
def grantOf (n last streak : Nat) (l : List Req) : Option (Req × Nat) :=
  arbitrate (·.cls) (fun a b => workLt (a.cls, a.deadline, (a.key + n - last % n - 1) % n) (b.cls, b.deadline, (b.key + n - last % n - 1) % n))
    (fun a b => decide (a.age < b.age)) streak l

/-! ### Time-outs -/

/-- A tick is at least n ticks after another. -/
def after (now since n : Nat) : Bool := decide (since + n ≤ now)

end Sys2Proof.Machine
end

