-- ==== Sys2Proof/Machine/Wire.lean ====
section
/-! DEFINITION. What travels on links and junctions, bit by bit: packet slots (R358, R359, R81, R550), flits (R352), their error correction and
lanes (R346, R347, R353, R354), and the one-of-four code of junctions (R367). -/
set_option Elab.async false
namespace Sys2Proof.Machine

/-! ### Packet slots (R358) -/

/-- R358: the opcode of a packet. -/
def opcOf (b : Payload) : Nat :=
  match b with
  | .rd .. => 0x01
  | .wr .. => 0x02
  | .wrBits .. => 0x02
  | .amo .. => 0x03
  | .sig .. => 0x04
  | .cancel .. => 0x05
  | .ticket .. => 0x06
  | .tquery .. => 0x07
  | .mgmt _ => 0x20
  | .epoch _ => 0x21
  | .map _ => 0x22
  | .ack => 0x40
  | .data .. => 0x41
  | .amorsp _ => 0x42
  | .sigrsp .. => 0x43
  | .trsp .. => 0x44

/-- R358: an opcode goes with the kind of its channel. -/
def opcFits (opc vc : Nat) : Bool :=
  if 1 ≤ opc ∧ opc ≤ 7 then decide (vc < 6) && decide (vc % 2 = 0)
  else if 0x20 ≤ opc ∧ opc ≤ 0x22 then decide (vc = 6)
  else if 0x40 ≤ opc ∧ opc ≤ 0x44 then decide (vc < 6) && decide (vc % 2 = 1)
  else false

/-- R358: the slots of a packet, its header included. -/
def packetSlots (b : Payload) : Nat :=
  match b with
  | .wr _ m _ _ =>
    let secs := (List.range 4).filter (fun i => bits m.toNat (32 * i) 32 != 0)
    2 + (if secs.all (fun i => bits m.toNat (32 * i) 32 == 2 ^ 32 - 1) then 0 else 1) + 2 * secs.length
  | .wrBits _ m _ => 3 + 2 * ((List.range 4).filter (fun i => ((m.drop (32 * i)).take 32).any (fun b => b != 0))).length
  | .amo .. => 3
  | .ticket .. => 18
  | .mgmt _ => 18
  | .map _ => 18
  | .ack => 1
  | .data _ sec _ => 1 + 2 * ((List.range 4).filter (fun i => sec.getLsbD i)).length
  | _ => 2

/-- A value at its place among the bits of a slot. -/
def place (x lo : Nat) : Nat := x * 2 ^ lo

/-- R358: the header slot of a packet. -/
def headerBits (p : Packet) : BitVec 128 :=
  BitVec.ofNat 128 (place p.vc.toNat 125 + place p.hops.toNat 120 + place (packetSlots p.body - 1) 115 + place (opcOf p.body) 108 +
    place p.dpkg.toNat 100 + place p.ddie.toNat 97 + place p.spkg.toNat 89 + place p.sdie.toNat 86 + place p.tenant.toNat 74 +
    place p.depoch.toNat 66 + place p.pepoch.toNat 50 + place p.tag.toNat 38 + place p.dl.toNat 12 + place p.status.toNat 8 + p.sepoch.toNat)

/-- Bytes as slots of 16, little-endian. -/
def byteSlot (b : List Byte) (k : Nat) : BitVec 128 := BitVec.ofNat 128 (leNat ((b.drop (16 * k)).take 16))

/-- R80: the 256 bytes of a ticket. -/
def ticketBytes (t : Ticket) : List Byte :=
  leBytes 8 (place 1 56 + place t.cond.toNat 48 + t.resumePc.toNat) ++
    (List.range 31).flatMap (fun i => leBytes 8 ((if i < 8 then t.l.getD i 0 else if i < 16 then t.p.getD (i - 8) 0 else t.t.getD (i - 16) 0).toNat))

/-- The sectors of a line that a mask names, in order. -/
def sectorsIn (f : Nat → Bool) : List Nat := (List.range 4).filter f

/-- R358: payload slot k (from 0) of a packet, where the spec gives its layout (R81, R359, R550, and the bytes of data in order); a free
function elsewhere. -/
def payloadBits (b : Payload) (k : Nat) : BitVec 128 :=
  match b with
  | .ticket env t =>
    if k = 0 then BitVec.ofNat 128 (place env.deadline.toNat 64 + place env.travelNo.toNat 32 + place env.origin.toNat 9 + place env.cls.toNat 7)
    else byteSlot (ticketBytes t) (k - 1)
  | .tquery o e n => BitVec.ofNat 128 (place e.toNat 64 + place n.toNat 32 + place o.toNat 9)
  | .trsp o n => BitVec.ofNat 128 (place n.toNat 32 + place o.toNat 9)
  | .epoch e =>
    BitVec.ofNat 128 (place (b2n e.isPkg) 126 + place e.state.toNat 124 + place e.pkg.toNat 116 + place e.die.toNat 113 + place e.old.toNat 80 +
      place e.new.toNat 64 + e.tick.toNat)
  | .data _ sec bytes => byteSlot ((sectorsIn (fun i => sec.getLsbD i)).flatMap (fun i => (bytes.drop (32 * i)).take 32)) k
  | _ => Config.payloadSlot b k

/-- The 128 bits of a slot. -/
def slotBits (x : Slot) : BitVec 128 :=
  match x with
  | .of p _ k => if k = 0 then headerBits p else payloadBits p.body (k - 1)
  | .raw w => w

/-- The slots of a packet. -/
def slotsOf (p : Packet) (shared : Bool) : List Slot := (List.range (packetSlots p.body)).map (fun k => .of p shared k)

/-! ### RS(220, 206) over GF(2^10) (R353, R354) -/

/-- Product in GF(2^10) with x^10 + x^3 + 1. -/
def gfMul (a b : Nat) : Nat :=
  let p := (List.range 10).foldl (fun acc i => if bit a i then acc ^^^ (b * 2 ^ i) else acc) 0
  (List.range 9).foldl (fun acc i => let k := 18 - i; if bit acc k then acc ^^^ (0x409 * 2 ^ (k - 10)) else acc) p

def gfSq (a : Nat) : Nat := gfMul a a

/-- Inverse: the power 1022. -/
def gfInv (a : Nat) : Nat :=
  ((List.range 9).foldl (fun (e : Nat × Nat) _ => let b := gfSq e.1; (b, gfMul e.2 b)) (a, 1)).2

/-- Powers of the primitive element: α^0 to α^(n-1). -/
def gfPowers (n : Nat) : List Nat :=
  ((List.range n).foldl (fun (e : Nat × List Nat) _ => (gfMul e.1 2, e.1 :: e.2)) (1, [])).2.reverse

/-- A polynomial, lowest coefficient first, at a point. -/
def gfEval (p : List Nat) (x : Nat) : Nat := p.foldr (fun c acc => c ^^^ gfMul acc x) 0

/-- Coefficient of the product of two polynomials. -/
def gfConv (a b : List Nat) (n : Nat) : Nat := (List.range (n + 1)).foldl (fun acc i => acc ^^^ gfMul (a.getD i 0) (b.getD (n - i) 0)) 0

/-- The syndromes of a received word, its first symbol the highest power. -/
def syndromes (r : List Nat) : List Nat := (gfPowers 14).map (fun a => r.foldl (fun acc c => gfMul acc a ^^^ c) 0)

/-- State of the search for the error locator: it, the previous one, its length, gap and discrepancy. -/
structure Locator where
  c : List Nat := [1]
  b : List Nat := [1]
  len : Nat := 0
  m : Nat := 1
  disc : Nat := 1

/-- One step of the search for the shortest recurrence of the syndromes. -/
def locatorStep (syn : List Nat) (e : Locator) (n : Nat) : Locator :=
  let delta := (List.range (e.len + 1)).foldl (fun acc i => acc ^^^ gfMul (e.c.getD i 0) (syn.getD (n - i) 0)) 0
  if delta = 0 then { e with m := e.m + 1 }
  else
    let f := gfMul delta (gfInv e.disc)
    let shifted := List.replicate e.m 0 ++ e.b.map (gfMul f)
    let c := (List.range (max e.c.length shifted.length)).map (fun i => e.c.getD i 0 ^^^ shifted.getD i 0)
    if 2 * e.len ≤ n then { c := c, b := e.c, len := n + 1 - e.len, m := 1, disc := delta } else { e with c := c, m := e.m + 1 }

/-- R354: the codeword nearest to 220 received symbols, if at most 7 symbols are wrong. -/
def rsCorrect (r : List Nat) : Option (List Nat) :=
  let syn := syndromes r
  if syn.all (· == 0) then some r
  else
    let e := (List.range 14).foldl (locatorStep syn) {}
    let pw := gfPowers 220
    -- position i is the power 219 - i
    let roots := (List.range 220).filter (fun i => gfEval e.c (gfInv (pw.getD (219 - i) 1)) == 0)
    if 7 < e.len ∨ roots.length ≠ e.len then none
    else
      let omega := (List.range 14).map (gfConv syn e.c)
      let deriv := (List.range e.c.length).map (fun i => if i % 2 = 0 then e.c.getD (i + 1) 0 else 0)
      let fixed := roots.foldl (fun r i =>
        let x := pw.getD (219 - i) 1
        let xi := gfInv x
        let v := gfMul x (gfMul (gfEval omega xi) (gfInv (gfEval deriv xi)))
        r.set i (r.getD i 0 ^^^ v)) r
      if (syndromes fixed).all (· == 0) then some fixed else none

/-- The generator with roots α^0 to α^13, highest coefficient first (R353). -/
def rsGen : List Nat :=
  (gfPowers 14).foldl (fun g a => List.zipWith (· ^^^ ·) (g ++ [0]) (0 :: g.map (gfMul a))) [1]

/-- R353: the 14 check symbols of 206 data symbols. -/
def rsParity (msg : List Nat) : List Nat :=
  msg.foldl (fun reg m =>
    let f := m ^^^ reg.headD 0
    List.zipWith (· ^^^ ·) (reg.drop 1 ++ [0]) ((rsGen.drop 1).map (gfMul f))) (List.replicate 14 0)

/-- CRC-64 under the ECMA-182 polynomial (R352; its start value and order: log 38). -/
def crc64 (b : List Byte) : Nat :=
  b.foldl (fun c x => (List.range 8).foldl (fun c _ =>
    if bit c 63 then (c * 2 ^ 1 ^^^ 0x142F0E1EBA9EA3693) % 2 ^ 64 else c * 2) (c ^^^ (x.toNat * 2 ^ 56))) 0

/-- R353: the 256 bytes of a flit from its 206 data symbols: bits most significant first (log 38), then 12 zero bits. -/
def flitBytes (sym : List Nat) : Option (List Byte) :=
  let n := (sym.take 206).foldl (fun acc c => acc * 1024 + c) 0
  if n % 4096 ≠ 0 then none else some ((leBytes 256 (n / 4096)).reverse)

/-- R352 to R354: a flit from 220 symbols, or none where it is uncorrectable or fails its CRC. -/
def decodeFlit (syms : List (BitVec 10)) : Option (List Byte) :=
  if syms.length ≠ 220 then none
  else
    match rsCorrect (syms.map (·.toNat)) with
    | none => none
    | some r =>
      match flitBytes r with
      | none => none
      | some b => if crc64 (b.take 248) = leNat (b.drop 248) then some b else none

/-- R353: the codeword of a flit's 256 bytes. -/
def flitSymbols (b : List Byte) : List Nat :=
  let n := leNat b.reverse * 4096
  let msg := (List.range 206).map (fun i => n / 1024 ^ (205 - i) % 1024)
  msg ++ rsParity msg

/-! ### Flits (R352) -/

/-- R352: the link control word. -/
def lcwOf (f : Flit) : Nat :=
  place (match f.body with | .idle => 2 | .data _ => 1 | _ => 3) 60 + place f.seq.toNat 48 + place f.ack.toNat 36 + place (b2n f.nak) 35 +
    (match f.esc with | some (vc, h) => 2 ^ 34 + place (vc % 8) 31 + place (h % 32) 26 | none => 0) +
    (List.range 7).foldl (fun n i => n + place (f.credits.getD i 0 % 8) (3 * i)) 0

/-- The 15 slots of a flit; those after the last in use are PAD. -/
def flitSlots (f : Flit) : List (BitVec 128) :=
  (List.range 15).map (fun k =>
    match f.body with
    | .idle => 0
    | .data l => (match l[k]? with | some x => slotBits x | none => 0)
    | .ctrl c => Config.ctrlSlot c k
    | .other l => l.getD k 0)

/-- R352: the 256 bytes of a flit. -/
def flitOf (f : Flit) : List Byte :=
  let b := leBytes 8 (lcwOf f) ++ (flitSlots f).flatMap (fun w => leBytes 16 w.toNat)
  b ++ leBytes 8 (crc64 b)

/-- A flit as its bytes read; none for a reserved TYPE. -/
def parseFlit (b : List Byte) : Option Flit :=
  let w := leNat (b.take 8)
  let slots := (List.range 15).map (fun k => byteSlot (b.drop 8) k)
  let f (body : FlitBody) : Flit :=
    { body := body, seq := BitVec.ofNat 12 (bits w 48 12), ack := BitVec.ofNat 12 (bits w 36 12), nak := bit w 35,
      credits := (List.range 7).map (fun i => bits w (3 * i) 3), esc := if bit w 34 then some (bits w 31 3, bits w 26 5) else none }
  match bits w 60 4 with
  | 1 => some (f (.data (slots.map .raw)))
  | 2 => some (f .idle)
  | 3 => some (f (.other slots))
  | _ => none

/-- The flit that good bytes bring: the one that the far end sent, where they are its bytes (log 97). -/
def readFlit (sent : Option Flit) (b : List Byte) : Option Flit :=
  match sent with
  | some f => if b = flitOf f then some f else parseFlit b
  | none => parseFlit b

/-! ### Lanes (R346, R347, R353) -/

/-- R353: symbol i of a codeword goes to logical lane i mod w; logical lane l is physical lane order[l]. -/
def laneSymbols (order : List Nat) (w : Nat) (syms : List Nat) : List (List Nat) :=
  (List.range 4).map (fun pl =>
    match ((List.range w).find? (fun l => order.getD l l == pl)) with
    | some l => ((List.range syms.length).filter (fun i => i % w == l)).map (fun i => syms.getD i 0)
    | none => [])

/-- R346, R347, R353: the codeword that a receiver takes from its physical lanes; an inverted lane's symbols are inverted back (log 38: every bit
of a symbol). -/
def codeword (x : Port) (lanes : List (List (BitVec 10))) : List (BitVec 10) :=
  (List.range 220).map (fun i =>
    let pl := x.order.getD (i % x.width) (i % x.width)
    let v := (lanes.getD pl []).getD (i / x.width) 0
    if x.inverted.getLsbD pl then ~~~v else v)

/-! ### Junction slots (R367) -/

/-- The one-of-four code of two bits. -/
def oneOfFour (b : Nat) : BitVec 4 := BitVec.ofNat 4 (2 ^ (b % 4))

/-- R367: the code words of a slot: its 64 pairs of bits, then those of its CRC. -/
def slotCode (w : BitVec 128) : List (BitVec 4) :=
  (List.range 64).map (fun i => oneOfFour (bits w.toNat (2 * i) 2)) ++ (List.range 8).map (fun i => oneOfFour (bits (Config.slotCrc w).toNat (2 * i) 2))

/-- A legal code word: exactly one of its four wires. -/
def legalCode (c : BitVec 4) : Bool := c == 1 || c == 2 || c == 4 || c == 8

def codeBits (c : BitVec 4) : Nat := if c = 8 then 3 else if c = 4 then 2 else if c = 2 then 1 else 0

/-- R367: a receiver finds no fault in a slot: 72 legal code words whose CRC is right. -/
def slotGood (l : List (BitVec 4)) : Bool :=
  l.length == 72 && l.all legalCode &&
    (let n := l.foldr (fun c acc => acc * 4 + codeBits c) 0
     Config.slotCrc (BitVec.ofNat 128 n) == BitVec.ofNat 16 (n / 2 ^ 128))

/-- R367: a receiver accepts a beat. -/
def beatGood (b : JBeat) : Bool := b.slots.all slotGood

end Sys2Proof.Machine
end

