-- ==== Sys2Proof/Machine/Net.lean ====
section
/-! DEFINITION. Requests and responses: packet headers (R358, R360), tags (R376, R377), the Buffer stop (R378), the way a packet
takes through the queues, junctions and links of the dies (R355, R357, R361 to R364, R371, R373), and the holds of a route change (R375). -/
set_option Elab.async false
namespace Sys2Proof

/-- Source and destination die (package * 8 + die) of a packet (R358). -/
def Packet.src (p : Packet) : Nat := p.spkg.toNat * 8 + p.sdie.toNat
def Packet.dst (p : Packet) : Nat := p.dpkg.toNat * 8 + p.ddie.toNat

end Sys2Proof
namespace Sys2Proof.Machine

/-! ### Junctions and ports as a graph (R15 to R17, R516) -/

/-- R516: the die across junction j (0 next of the ring, 1 previous, 2 vertical), within a package. -/
def jAcross (a j : Nat) : Nat :=
  match j with
  | 0 => a / 4 * 4 + (a + 1) % 4
  | 1 => a / 4 * 4 + (a + 3) % 4
  | _ => (a + 4) % 8

/-- The junction of the far die that is the same bridge. -/
def jTwin (j : Nat) : Nat := match j with | 0 => 1 | 1 => 0 | _ => 2

def State.junction (s : State) (d j : Nat) : Junction := tget (s.die d).junctions j {}
def State.modJunction (s : State) (d j : Nat) (f : Junction → Junction) : State :=
  s.modDie d (fun x => { x with junctions := tset x.junctions j (f (tget x.junctions j {})) })

def State.port (s : State) (d q : Nat) : Port := tget (s.die d).ports q {}
def State.modPort (s : State) (d q : Nat) (f : Port → Port) : State :=
  s.modDie d (fun x => { x with ports := tset x.ports q (f (tget x.ports q {})) })

/-- R368: a junction carries packets when neither of its ends is fenced and the dies at both ends are in service. -/
def State.jOpen (s : State) (d j : Nat) : Bool :=
  let e := diePkg d * 8 + jAcross (dieNo d) j
  ((s.junction d j).fence == .none) && ((s.junction e (jTwin j)).fence == .none) && s.dieUp d && s.dieUp e

/-- Junction hops from each die of a package to die b, by rounds of relaxation (31 = none). -/
def jDistStep (open_ : Nat → Nat → Bool) (dist : List Nat) : List Nat :=
  (List.range 8).map (fun a =>
    (List.range 3).foldl (fun m j => if open_ a j then min m (dist.getD (jAcross a j) 31 + 1) else m) (dist.getD a 31))

def jDists (open_ : Nat → Nat → Bool) (b : Nat) : List Nat :=
  (List.range 8).foldl (fun l _ => jDistStep open_ l) ((List.range 8).map (fun a => if a = b then 0 else 31))

/-- R373: the first junction from die a toward die b: of those on a shortest way, the vertical one first when the rows differ,
then the ascending ring direction. -/
def jNext (open_ : Nat → Nat → Bool) (a b : Nat) : Option Nat :=
  let dist := jDists open_ b
  let d := dist.getD a 31
  if d = 0 ∨ 31 ≤ d then none
  else ((if a / 4 = b / 4 then [0, 1, 2] else [2, 0, 1]).find? (fun j => open_ a j && dist.getD (jAcross a j) 31 + 1 == d))

/-- A port that carries a link: up, or retraining with its replay buffer kept (R356). -/
def portLive (q : Port) : Bool := q.st == .up || (q.st == .training && q.far.isSome)

/-- R517, R532: the hardware gates as they read: those of ports and junctions are open while the port is up and the junction not fenced. -/
def State.gates (s : State) (d : Nat) : BitVec 64 :=
  let shut := (List.range 4).foldl (fun n q => if (s.port d q).st == .up then n else n + 2 ^ (0x30 + q)) 0 +
    (List.range 3).foldl (fun n j => if (s.junction d j).fence == .none then n else n + 2 ^ (0x34 + j)) 0
  (s.die d).gate &&& ~~~(BitVec.ofNat 64 shut)

/-- What a packet meets on its way (R371, R375, R378). -/
inductive Way where
  | arrives (hops : Nat)
  | stopped (at_ : Nat)
  | lost (at_ : Nat)
  /-- A port on the way retrains or its credits are frozen: the packet waits (R356, R365). -/
  | waits
  deriving DecidableEq, Repr

/-- R371, R373: follows the installed tables from a die, counting hops; 31 hops short of the destination is ROUTE_LOST. -/
def State.wayFrom (s : State) (cur dst hops : Nat) : Nat → Way
  | 0 => if cur = dst then .arrives hops else .lost cur
  | fuel + 1 =>
    if cur = dst then .arrives hops
    else if diePkg cur = diePkg dst then
      match jNext (fun a j => s.jOpen (diePkg cur * 8 + a) j) (dieNo cur) (dieNo dst) with
      | some j => s.wayFrom (diePkg cur * 8 + jAcross (dieNo cur) j) dst (hops + 1) fuel
      | none => .stopped cur
    else
      let r := tget (s.die cur).routes (diePkg dst) 0xFF
      if r < 4 then
        let q := s.port cur r
        match (if portLive q then q.far else none) with
        | some f =>
          if !s.dieUp (f.pkg.toNat * 8 + f.die.toNat) then .stopped cur
          else if q.st != .up || q.frozen then .waits
          else s.wayFrom (f.pkg.toNat * 8 + f.die.toNat) dst (hops + 1) fuel
        | none => .stopped cur
      else if 0x10 ≤ r ∧ r < 0x18 then
        match (List.range 3).find? (fun j => jAcross (dieNo cur) j == r - 0x10 && s.jOpen cur j) with
        | some j => s.wayFrom (diePkg cur * 8 + jAcross (dieNo cur) j) dst (hops + 1) fuel
        | none => .stopped cur
      else .stopped cur

/-- The way that leads from one die to another now. -/
def State.way (s : State) (src dst : Nat) : Way := s.wayFrom src dst 0 31

/-- Up ports and unfenced junctions from a die: the dies one hop away. -/
def State.oneHop (s : State) (n : Nat) : List Nat :=
  ((List.range 3).filter (fun j => s.jOpen n j)).map (fun j => diePkg n * 8 + jAcross (dieNo n) j) ++
  ((List.range 4).filterMap (fun q =>
    match (s.port n q).st, (s.port n q).far with
    | .up, some f => if s.dieUp (f.pkg.toNat * 8 + f.die.toNat) then some (f.pkg.toNat * 8 + f.die.toNat) else none
    | _, _ => none))

def State.spread (s : State) : Nat → List Nat → List Nat → List Nat
  | 0, _, seen => seen
  | f + 1, edge, seen =>
    let next := ((edge.map s.oneHop).flatten.filter (fun n => !seen.contains n)).eraseDups
    if next.isEmpty then seen else s.spread f next (seen ++ next)

/-- The dies that management packets of a die reach before maps are installed (log 25). -/
def State.reach (s : State) (n : Nat) : List Nat := s.spread 31 [n] [n]

/-! ### Headers -/

/-- R370: two packets take one path, on which they arrive in the order sent. -/
def samePath (a b : Packet) : Bool :=
  a.vc == b.vc && a.src == b.src && a.dst == b.dst

/-- R360: the virtual channel of a class. -/
def vcOf (cls : Nat) (rsp : Bool) : Nat := 2 * min cls 2 + b2n rsp

/-- R360: the class of a channel. -/
def vcCls (vc : Nat) : Nat := vc / 2

/-- R358: bits 32:7 of an absolute deadline. -/
def dlOf (deadline : Nat) : BitVec 26 := BitVec.ofNat 26 (deadline / 128)

/-- The epoch of a die, and of a package, as die d knows it (R376, R552). -/
def State.knownDie (s : State) (d t : Nat) : BitVec 8 := if t = d then (s.die d).epoch else tget (s.die d).dieEpochs t 0
def State.knownPkg (s : State) (d p : Nat) : BitVec 16 := if p = diePkg d then (s.pkg p).epoch else tget (s.die d).pkgEpochs p 0

/-- R358: a request of die d. -/
def State.request (s : State) (d tenant cls deadline target tag : Nat) (body : Payload) : Packet :=
  { vc := BitVec.ofNat 3 (vcOf cls false), hops := 0, dpkg := BitVec.ofNat 8 (diePkg target), ddie := BitVec.ofNat 3 (dieNo target),
    spkg := BitVec.ofNat 8 (diePkg d), sdie := BitVec.ofNat 3 (dieNo d), tenant := BitVec.ofNat 12 tenant,
    depoch := s.knownDie d target, pepoch := s.knownPkg d (diePkg target), tag := BitVec.ofNat 12 tag, dl := dlOf deadline,
    status := 0, sepoch := (s.die d).epoch, body := body, flt := none }

/-- R358: a management packet (VC6). -/
def State.mgmt (s : State) (d target : Nat) (body : Payload) : Packet :=
  { s.request d 0 0 0 target 0 body with vc := 6 }

/-! ### Tags and outstanding requests -/

/-- The first tag from the die's next one that no outstanding request and no quarantine holds (log 16). -/
def freeTag (x : Die) : Option Nat :=
  ((List.range 4096).find? (fun i => let t := (x.nextTag + i) % 4096; !thas x.outst t && !thas x.quarantine t)).map
    (fun i => (x.nextTag + i) % 4096)

/-- R375: a channel to a package on which new requests are held. -/
def holdKey (o : Outst) : Nat := o.dpkg * 8 + vcOf o.cls false

/-- R375: the held channels that still wait: some earlier request on the channel to the package is not answered. -/
def stillHeld (x : Die) : List Nat := x.holds.filter (fun k => x.outst.any (fun e => holdKey e.2 == k))

/-- A request leaves: it takes a tag, is recorded as outstanding and enters the network. -/
def State.emit (s : State) (d tag : Nat) (o : Outst) (p : Packet) : State :=
  let x := s.die d
  { s.setDie d { x with outst := tset x.outst tag o, nextTag := (tag + 1) % 4096 } with
    net := s.net ++ [{ p with tag := BitVec.ofNat 12 tag }] }

/-- A packet enters the network at its source die. -/
def State.post (s : State) (p : Packet) : State := { s with net := s.net ++ [p] }

/-- A request that may leave: a CANCEL has its wait's TAG; any other takes one. -/
def State.emitNew (s : State) (d : Nat) (o : Outst) (p : Packet) : Option State :=
  if o.kind = .cancel then some (s.post p) else (freeTag (s.die d)).map (fun t => s.emit d t o p)

/-- A request packet of die d: it leaves at once, or waits for a tag or for the hold of its channel, behind earlier ones of its
channel. -/
def State.sendPk (s : State) (d : Nat) (kind : OKind) (vi cls : Nat) (p : Packet) : State :=
  let o : Outst := { kind := kind, tenant := p.tenant.toNat, vi := vi, cls := cls, dpkg := p.dpkg.toNat, ddie := p.ddie.toNat, depoch := p.depoch, pepoch := p.pepoch }
  let x := s.die d
  let waits := (stillHeld x).contains (holdKey o) || x.sendQ.any (fun e => holdKey e.1 == holdKey o)
  match (if waits then none else s.emitNew d o p) with
  | some s => s
  | none => s.setDie d { x with sendQ := x.sendQ ++ [(o, p)] }

def State.send (s : State) (d : Nat) (kind : OKind) (tenant vi cls deadline target : Nat) (body : Payload) : State :=
  s.sendPk d kind vi cls (s.request d tenant cls deadline target 0 body)

/-- Requests that waited and may leave now, in order within each channel. -/
def State.flushSendQ (s : State) (d : Nat) : List (Outst × Packet) → List (Outst × Packet) → State
  | [], kept => s.modDie d (fun x => { x with sendQ := kept })
  | (o, p) :: r, kept =>
    let x := s.die d
    match (if (stillHeld x).contains (holdKey o) || kept.any (fun e => holdKey e.1 == holdKey o) then none else s.emitNew d o p) with
    | some s => s.flushSendQ d r kept
    | none => s.flushSendQ d r (kept ++ [(o, p)])

/-- An answered request's tag is retired; holds that have drained end, and requests that waited leave. -/
def State.retire (s : State) (d tag : Nat) : State :=
  let x := s.die d
  let x := { x with outst := terase x.outst tag }
  let x := { x with holds := stillHeld x }
  let s := s.setDie d x
  s.flushSendQ d x.sendQ []

/-! ### Responses -/

/-- R358: the response to a request, from the die that performs it: with its present epochs (R376), or for the Buffer stop with the
request's own (R378). -/
def State.response (s : State) (rq : Packet) (bufferStop : Bool) (status : Nat) (body : Payload) (flt : Option (Nat × Nat × Nat)) : Packet :=
  { vc := rq.vc + 1, hops := 0, dpkg := rq.spkg, ddie := rq.sdie, spkg := rq.dpkg, sdie := rq.ddie, tenant := rq.tenant,
    depoch := rq.sepoch,
    pepoch := if bufferStop then rq.pepoch else (s.pkg rq.dpkg.toNat).epoch,
    tag := rq.tag, dl := rq.dl, status := BitVec.ofNat 4 status,
    sepoch := if bufferStop then rq.depoch else (s.die rq.dst).epoch,
    body := body,
    flt := flt.map (fun f => ⟨BitVec.ofNat 4 f.1, BitVec.ofNat 52 f.2.1, BitVec.ofNat 64 f.2.2⟩) }

def State.respond (s : State) (rq : Packet) (bufferStop : Bool) (status : Nat) (body : Payload) (flt : Option (Nat × Nat × Nat)) : State :=
  s.post (s.response rq bufferStop status body flt)

/-- The response that carries a status other than OK (log 11): SIGRSP for signal requests, TRSP for a ticket, ACK otherwise. -/
def refusalBody (b : Payload) : Payload :=
  match b with
  | .sig .. | .cancel .. => .sigrsp 0 0
  | .ticket env _ => .trsp env.origin env.travelNo
  | .tquery o _ n => .trsp o n
  | _ => .ack

def stOk := 0
def stGone := 1
def stError := 2
def stForeign := 3
def stNoroom := 4
def stFull := 5
def stArrived := 6
def stNotSeen := 7
def stCancelled := 8

/-! ### The queues of a die (R362, R363) -/

def vcCap (vc : Nat) : Nat := if vc = 6 then 64 else 1024

/-- Two packets are one packet, at whatever hop. -/
def samePk (a b : Packet) : Bool := { a with hops := b.hops } == b

/-- The first element of each kind. -/
def firsts {α : Type} (same : α → α → Bool) (l : List α) : List α :=
  (l.foldl (fun acc a => if acc.any (same a) then acc else a :: acc) []).reverse

/-- R362: a queue of a receiver: one input, virtual channel and HOPS. -/
def sameQueue (a b : Rx) : Bool := a.inp == b.inp && a.pk.vc == b.pk.vc && a.pk.hops == b.pk.hops

/-- The packets of a die's own units, as the die's input 8. -/
def State.ownRx (s : State) (x : Nat) : List Rx := (s.net.filter (fun p => p.src == x)).map (fun p => ⟨8, true, p⟩)

/-- R362, R370: the packets at the head of a die's queues: those on their way in the order of arrival, then those of the die's own units (log 98: their
ages). -/
def State.heads (s : State) (x : Nat) : List Rx :=
  firsts sameQueue (s.die x).rx ++ firsts (fun a b => samePath a.pk b.pk) (s.ownRx x)

/-- Where a packet stands: its die and queue entry. -/
def State.seek (s : State) (p : Packet) : Option (Nat × Rx) :=
  match s.dies.findSome? (fun e => (e.2.rx.find? (fun r => samePk r.pk p)).map (fun r => (e.1, r))) with
  | some f => some f
  | none => (s.net.find? (fun a => samePk a p)).map (fun a => (a.src, ⟨8, true, a⟩))

/-- The head of the queue in which an entry stands. -/
def State.headOf (s : State) (x : Nat) (r : Rx) : Rx :=
  if r.inp = 8 then ((s.ownRx x).find? (fun a => samePath a.pk r.pk)).getD r else ((s.die x).rx.find? (sameQueue r)).getD r

/-- Shared credits and an escape space come back to a junction's sender. -/
def freeJ (vc n : Nat) (hops : Nat) (shared : Bool) (x : Junction) : Junction :=
  if shared then { x with credits := (List.range 7).map (fun i => if i = vc then min (vcCap vc) (x.credits.getD vc 0 + n) else x.credits.getD i 0) }
  else { x with esc := x.esc.filter (fun e => !(e == (vc, hops))) }

/-- R363: an entry frees its slots: a port returns them with its next flits, a junction at once. -/
def State.freeRx (s : State) (x : Nat) (r : Rx) : State :=
  let n := packetSlots r.pk.body
  let vc := r.pk.vc.toNat
  if r.inp < 4 then
    s.modPort x r.inp (fun q =>
      if r.shared then { q with owed := tset q.owed vc (tget q.owed vc 0 + n) } else { q with escOwed := q.escOwed ++ [(vc, r.pk.hops.toNat)] })
  else if r.inp < 7 then
    s.modJunction (diePkg x * 8 + jAcross (dieNo x) (r.inp - 4)) (jTwin (r.inp - 4)) (freeJ vc n r.pk.hops.toNat r.shared)
  else s

/-- An entry leaves its queue. -/
def State.leave (s : State) (x : Nat) (r : Rx) : State :=
  if r.inp = 8 then { s with net := dropFirst (· == r.pk) s.net }
  else (s.modDie x (fun y => { y with rx := dropFirst (· == r) y.rx })).freeRx x r

/-- Packets that a test names leave the network. -/
def State.purge (s : State) (f : Packet → Bool) : State :=
  let s := { s with net := s.net.filter (fun p => !f p) }
  (s.dies.flatMap (fun e => (e.2.rx.filter (fun r => f r.pk)).map (fun r => (e.1, r)))).foldl (fun s e => s.leave e.1 e.2) s

/-- R358: a packet whose opcode and channel do not go together is discarded where it is read. -/
def State.badPacket (s : State) (d : Nat) : State := s.modDie d (fun x => { x with badPkt := BitVec.ofNat 32 (satAdd 32 x.badPkt.toNat 1) })

/-- A whole packet arrives by an input of a die. -/
def State.land (s : State) (x : Nat) (r : Rx) : State :=
  if opcFits (opcOf r.pk.body) r.pk.vc.toNat then s.modDie x (fun y => { y with rx := y.rx ++ [r] }) else (s.badPacket x).freeRx x r

/-! ### Routing at a die (R371, R373, R378) -/

/-- Where a packet goes from a die: it is there, leaves by an output (port 0 to 3, 4 + junction), or meets the Buffer stop. -/
inductive Hop where
  | here
  | out (o : Nat)
  | stopped
  | lost
  deriving DecidableEq, Repr

/-- The hops from a die to another over ports that are up and open junctions (log 25), counted by rounds. -/
def State.liveDist (s : State) (dst : Nat) : Nat → List Nat → List Nat → Nat
  | 0, _, _ => 32
  | f + 1, edge, seen =>
    if edge.contains dst then 31 - f
    else
      let next := ((edge.map s.oneHop).flatten.filter (fun n => !seen.contains n)).eraseDups
      if next.isEmpty then 32 else s.liveDist dst f next (seen ++ next)

/-- The die that an output leads to. -/
def State.outDie (s : State) (x o : Nat) : Option Nat :=
  if o < 4 then (match (s.port x o).st, (s.port x o).far with
    | .up, some f => some (f.pkg.toNat * 8 + f.die.toNat)
    | _, _ => none)
  else if s.jOpen x (o - 4) then some (diePkg x * 8 + jAcross (dieNo x) (o - 4)) else none

/-- The output of a management packet where no table leads (log 25): that of a shortest way. -/
def State.liveOut (s : State) (x dst : Nat) : Hop :=
  let dist (o : Nat) : Nat := match s.outDie x o with | some n => if s.dieUp n then s.liveDist dst 31 [n] [x, n] else 32 | none => 32
  match minBy (fun a b => decide (dist a < dist b)) [4, 5, 6, 0, 1, 2, 3] with
  | some o => if dist o < 32 then .out o else .stopped
  | none => .stopped

/-- R371: the output that a die's table names for another package. -/
def State.hopAway (s : State) (x : Nat) (p : Packet) : Hop :=
  let r := tget (s.die x).routes p.dpkg.toNat 0xFF
  if p.vc = 6 && ((s.die x).map.version == 0 || decide (0x18 ≤ r)) then s.liveOut x p.dst
  else if r < 4 then
    let q := s.port x r
    match (if portLive q then q.far else none) with
    | some f => if s.dieUp (f.pkg.toNat * 8 + f.die.toNat) then .out r else .stopped
    | none => .stopped
  else if 0x10 ≤ r ∧ r < 0x18 then
    match (List.range 3).find? (fun j => jAcross (dieNo x) j == r - 0x10 && s.jOpen x j) with
    | some j => .out (4 + j)
    | none => .stopped
  else .stopped

/-- R358: a request, by its channel. -/
def isRequest (p : Packet) : Bool := decide (p.vc.toNat < 6) && decide (p.vc.toNat % 2 = 0)

/-- R373, R378, R551: where a packet goes from die x. -/
def State.hop (s : State) (x : Nat) (r : Rx) : Hop :=
  let p := r.pk
  if isRequest p && r.inp == 8 && tget (s.die x).targets p.dst .inService != .inService then .stopped
  else if x = p.dst then .here
  else if p.hops = 31 then .lost
  else if r.inp = 8 && !s.inMachine p.spkg.toNat p.dpkg.toNat then .stopped
  else if diePkg x = p.dpkg.toNat then
    match jNext (fun a j => s.jOpen (diePkg x * 8 + a) j) (dieNo x) (dieNo p.dst) with
    | some j => .out (4 + j)
    | none => .stopped
  else s.hopAway x p

/-- A packet has arrived: it stands at the head of its queue at its destination. -/
def State.isNext (s : State) (p : Packet) : Bool :=
  match s.seek p with
  | some (x, r) => s.hop x r == .here && samePk (s.headOf x r).pk p
  | none => false

def State.take (s : State) (p : Packet) : State :=
  match s.seek p with
  | some (x, r) => s.leave x r
  | none => s

/-! ### The Buffer stop (R378) -/

/-- The Buffer stop of die x meets a packet: a request is answered GONE from there, anything else is dropped and counted. -/
def State.stopPacket (s : State) (x : Nat) (p : Packet) : State :=
  if isRequest p then s.modDie x (fun y => { y with rx := y.rx ++ [⟨7, true, s.response p true stGone (refusalBody p.body) none⟩] })
  else
    let s := s.staleRsp x
    match p.body with
    | .mgmt _ => { s with lost := s.lost ++ [p] }
    | _ => s

/-- R374, R550: EPOCH and MAP packets wait at their source for a way (log 99). -/
def waitsAtSource (r : Rx) : Bool := r.inp == 8 && (match r.pk.body with | .epoch _ => true | .map _ => true | _ => false)

/-- A queued packet meets the Buffer stop at die x. -/
def State.stopAt (s : State) (x : Nat) (r : Rx) (lost : Bool) : State :=
  if waitsAtSource r then s
  else
    let s := s.leave x r
    let s := if lost then s.modDie x (fun y => { y with routeLost := BitVec.ofNat 32 (satAdd 32 y.routeLost.toNat 1) }) else s
    s.stopPacket x r.pk

/-! ### Arbitration and credits (R361, R362) -/

/-- Credits and occupied escape spaces of an output. -/
def State.outCredits (s : State) (x o : Nat) : List Nat × List (Nat × Nat) :=
  if o < 4 then ((s.port x o).credits, (s.port x o).esc) else ((s.junction x (o - 4)).credits, (s.junction x (o - 4)).esc)

/-- R362: a sender holds shared credits for all the packet's slots, or the escape space of its next HOPS is free. -/
def State.canSend (s : State) (x o : Nat) (p : Packet) : Bool :=
  let c := s.outCredits x o
  decide (packetSlots p.body ≤ c.1.getD p.vc.toNat 0) || !c.2.contains (p.vc.toNat, p.hops.toNat + 1)

/-- R361, R34: an earlier DL, as a signed difference modulo 2^26. -/
def dlLt (a b : BitVec 26) : Bool := (a - b).msb

/-- R361: the order at an output after VC6: class, response before request, DL, round robin among inputs. -/
def pkLt (last : Nat) (a b : Rx × Nat) : Bool :=
  let key (e : Rx) : Nat := vcCls e.pk.vc.toNat * 2 + (if e.pk.vc.toNat % 2 = 1 then 0 else 1)
  let turn (e : Rx) : Nat := (e.inp + 8 - last % 9) % 9
  decide (key a.1 < key b.1) || (key a.1 == key b.1 &&
    (dlLt a.1.pk.dl b.1.pk.dl || (a.1.pk.dl == b.1.pk.dl && decide (turn a.1 < turn b.1))))

/-- R361: what an arbiter chooses among ready packets, oldest first; with its next state.  VC6 goes first, but leaves 15 slots of other channels to
each of its own while they wait. -/
def Arb.pick (a : Arb) (l : List (Rx × Nat)) : Option (Rx × Arb) :=
  let six := l.filter (fun e => e.1.pk.vc == 6)
  let rest := l.filter (fun e => e.1.pk.vc != 6)
  let n (r : Rx) : Nat := packetSlots r.pk.body
  match (if rest.isEmpty || a.owed6 == 0 then minBy (pkLt a.last) six else none) with
  | some e => some (e.1, { a with last := e.1.inp, owed6 := if rest.isEmpty then 0 else 15 * n e.1 })
  | none =>
    (arbitrate (fun e => vcCls e.1.pk.vc.toNat) (pkLt a.last) (fun x y => decide (x.2 < y.2)) a.streak rest).map (fun e =>
      (e.1.1, { streak := e.2, last := e.1.1.inp, owed6 := a.owed6 - n e.1.1 }))

/-- The next packet of an output. -/
def State.pickOut (s : State) (x o : Nat) : Option (Rx × Arb) :=
  (tget (s.die x).arbs o {}).pick ((s.heads x).zipIdx.filter (fun e => s.hop x e.1 == .out o && s.canSend x o e.1.pk))

def State.setArb (s : State) (x o : Nat) (a : Arb) : State := s.modDie x (fun y => { y with arbs := tset y.arbs o a })

/-- Credits are spent: shared ones where they suffice, the escape space otherwise. -/
def spend (vc n hops : Nat) (c : List Nat × List (Nat × Nat)) : Bool × List Nat × List (Nat × Nat) :=
  if n ≤ c.1.getD vc 0 then (true, (List.range 7).map (fun i => if i = vc then c.1.getD vc 0 - n else c.1.getD i 0), c.2)
  else (false, c.1, c.2 ++ [(vc, hops)])

/-- The packet as it stands after one more hop. -/
def stepped (p : Packet) : Packet := { p with hops := p.hops + 1 }

/-- R367: a packet crosses a junction: in one beat, of which the last 8 are kept. -/
def State.crossJunction (s : State) (x j : Nat) (r : Rx) (a : Arb) : State :=
  let p := stepped r.pk
  let n := packetSlots p.body
  let vc := p.vc.toNat
  let e := spend vc n p.hops.toNat (s.outCredits x (4 + j))
  let now := s.now x
  let s := ((s.leave x r).setArb x (4 + j) a).modJunction x j (fun y =>
    { y with credits := e.2.1, esc := e.2.2, quiet := tset y.quiet vc now,
             beats := (y.beats ++ [slotsOf p e.1]).drop (y.beats.length - 7) })
  (s.charge x p.tenant.toNat actJunction n).land (diePkg x * 8 + jAcross (dieNo x) j) ⟨4 + jTwin j, e.1, p⟩

/-! ### Flits (R352, R354, R355, R363) -/

/-- R362: the shared slots of a channel that a receiver has in use: packets in its queues, one still arriving, and those freed and not yet returned
(DEDUCED, log 96). -/
def rxUsed (x : Die) (q : Nat) (p : Port) (vc : Nat) : Nat :=
  x.rx.foldl (fun n r => if r.inp = q ∧ r.shared ∧ r.pk.vc.toNat = vc then n + packetSlots r.pk.body else n) 0 +
  p.rxPart.foldl (fun n w => match w with | .of k true _ => if k.vc.toNat = vc then n + 1 else n | _ => n) 0 + tget p.owed vc 0

/-- R362: the escape spaces in use at a receiver. -/
def rxEsc (x : Die) (q : Nat) (p : Port) : List (Nat × Nat) :=
  (x.rx.filter (fun r => r.inp == q && !r.shared)).map (fun r => (r.pk.vc.toNat, r.pk.hops.toNat)) ++
  (match p.rxPart with | .of k false _ :: _ => [(k.vc.toNat, k.hops.toNat)] | _ => []) ++ p.escOwed

/-- R365, R418: what a receiver reports. -/
def State.creditReport (s : State) (d q : Nat) : CreditReport :=
  let p := s.port d q
  { free := (List.range 7).map (fun vc => vcCap vc - rxUsed (s.die d) q p vc), esc := rxEsc (s.die d) q p, ackseq := p.rxSeq }

/-- A CTRL flit's contents are those of the moment it is sent. -/
def State.fillCtrl (s : State) (d q : Nat) (seq : BitVec 12) (k : CtrlFlit) : CtrlFlit :=
  match k with
  | .creditSync _ => .creditSync (s.creditReport d q)
  | .creditAudit _ => .creditAudit (s.creditReport d q)
  | .width w _ => .width w seq

/-- R363: what a flit returns: up to 7 units of 16 shared slots of each channel, and one escape space; nothing while credits are frozen. -/
def returned (p : Port) : List Nat × Option (Nat × Nat) :=
  if p.frozen then ([], none) else ((List.range 7).map (fun vc => min 7 (tget p.owed vc 0 / 16)), p.escOwed.head?)

def paidBack (p : Port) : Port :=
  let r := returned p
  { p with owed := tmap p.owed (fun vc n => n - 16 * r.1.getD vc 0), escOwed := if r.2.isSome then p.escOwed.drop 1 else p.escOwed }

/-- R357, R361: the packet that a port begins next: it leaves its queue and spends its credits. -/
def State.beginPacket (s : State) (x q : Nat) (r : Rx) (a : Arb) : State :=
  let p := stepped r.pk
  let n := packetSlots p.body
  let e := spend p.vc.toNat n p.hops.toNat (s.outCredits x q)
  let now := s.now x
  let s := ((s.leave x r).setArb x q a).modPort x q (fun y =>
    { y with credits := e.2.1, esc := e.2.2, txRest := slotsOf p e.1, quiet := tset y.quiet p.vc.toNat now })
  s.charge x p.tenant.toNat actLink n

/-- R357: the slots of the next DATA flit, at most n: packets one after another. -/
def State.fillSlots (x q : Nat) : Nat → Nat → State → List Slot × State
  | 0, _, s => ([], s)
  | f + 1, n, s =>
    if n = 0 then ([], s)
    else match (s.port x q).txRest with
      | [] =>
        (match s.pickOut x q with
         | none => ([], s)
         | some (r, a) => State.fillSlots x q f n (s.beginPacket x q r a))
      | l =>
        let (out, s) := State.fillSlots x q f (n - (l.take n).length) (s.modPort x q (fun y => { y with txRest := l.drop n }))
        (l.take n ++ out, s)

/-- A port has a packet to go on with or to begin. -/
def State.hasData (s : State) (x q : Nat) : Bool := !(s.port x q).frozen && (!(s.port x q).txRest.isEmpty || (s.pickOut x q).isSome)

/-- A new flit with a SEQ is kept for replay (R355). -/
def State.newFlit (s : State) (x q : Nat) (body : FlitBody) : Flit × State :=
  let p := s.port x q
  let r := returned p
  let f : Flit := { body := body, seq := p.txSeq + 1, ack := p.rxSeq, nak := p.nakDue, credits := r.1, esc := r.2 }
  (f, s.modPort x q (fun p => { paidBack p with txSeq := p.txSeq + 1, nakDue := false, replay := p.replay ++ [f] }))

/-- R355: the next flit of a port that is up: one queued again, or where fewer than 256 are unacknowledged a CTRL flit or a DATA flit, and IDLE
otherwise. -/
def State.transmit (s : State) (x q : Nat) : Option (Flit × State) :=
  let p := s.port x q
  if p.st != .up then none
  else
    match p.resend with
    | f :: r => some ({ f with ack := p.rxSeq, nak := p.nakDue }, s.modPort x q (fun p => { p with resend := r, nakDue := false }))
    | [] =>
      let room := decide (p.replay.length < 256)
      match (if room then p.ctrlQ else []) with
      | k :: rest =>
        let k := s.fillCtrl x q (p.txSeq + 1) k
        let s := s.modPort x q (fun p => { p with ctrlQ := rest })
        -- R366: credits freeze when a width step starts
        let s := match k with
          | .width w seq => s.modPort x q (fun p => { p with ownStep := some (w, seq), frozen := true, farSync := false })
          | _ => s
        some (s.newFlit x q (.ctrl k))
      | [] =>
        if room && s.hasData x q then
          let (slots, s) := State.fillSlots x q 64 15 s
          some (s.newFlit x q (.data slots))
        else
          let r := returned p
          some ({ body := .idle, ack := p.rxSeq, nak := p.nakDue, credits := r.1, esc := r.2 }, s.modPort x q (fun p => { paidBack p with nakDue := false }))

def isSync (f : Flit) : Bool := match f.body with | .ctrl (.creditSync _) => true | _ => false

/-- R365: packets flow again once both CREDIT_SYNC flits are accepted. -/
def settle (x : Port) : Port :=
  if x.frozen && x.farSync && !x.replay.any isSync && x.ctrlQ.isEmpty && x.ownStep.isNone && x.widthStep.isNone then { x with frozen := false, farSync := false } else x

/-- R365: credits freeze, and this end's CREDIT_SYNC is to be sent. -/
def startSync (x : Port) : Port :=
  { x with frozen := true, farSync := false, ctrlQ := x.ctrlQ ++ [.creditSync { free := [], esc := [], ackseq := 0 }] }

/-- R439, R366: the width a port steps to from what both ends request. -/
def stepWidth (minW want w : Nat) (x : Port) : Nat := min x.trained (max minW (min w want))

/-- R366: a width step that this end named takes effect once the far end has accepted its SEQ; credits are synchronised anew. -/
def ownWidth (minW : Nat) (x : Port) : Port :=
  match x.ownStep with
  | some (w, seq) => if x.replay.any (fun f => f.seq == seq) then x else startSync { x with width := stepWidth minW x.farWant w x, ownStep := none }
  | none => x

/-- R355: flits up to an ACKSEQ leave the replay buffer. -/
def takeAck (minW : Nat) (a : BitVec 12) (x : Port) : Port :=
  if x.replay.any (fun f => f.seq == a) then
    let left := (x.replay.dropWhile (fun f => f.seq != a)).drop 1
    settle (ownWidth minW { x with replay := left, resend := x.resend.filter (fun f => left.any (fun g => g.seq == f.seq)) })
  else settle x

/-- Ticks of the last millisecond. -/
def recentTicks (now : Nat) (l : List Nat) : List Nat := l.filter (fun t => decide (now < t + tickMs))

/-- R355, R356: a NAK makes the sender resend every flit after ACKSEQ, in order and with its SEQ. -/
def takeNak (minW now : Nat) (a : BitVec 12) (x : Port) : Port :=
  let x := takeAck minW a x
  { x with resend := x.replay, replays := x.replays + 1, replayTicks := recentTicks now x.replayTicks ++ [now],
           nakCount := if x.nakSeq = a + 1 then x.nakCount + 1 else 1, nakSeq := a + 1 }

/-- R363: shared credits (units of 16 slots) and an escape space come back with a flit. -/
def takeCredits (f : Flit) (x : Port) : Port :=
  let x := { x with credits := (List.range 7).map (fun vc => min (vcCap vc) (x.credits.getD vc 0 + 16 * f.credits.getD vc 0)) }
  match f.esc with
  | some e => { x with esc := x.esc.filter (fun a => !(a == e)) }
  | none => x

/-- R366: a width step that the far end named takes effect at its SEQ; credits are synchronised anew. -/
def applyWidth (minW : Nat) (x : Port) : Port :=
  match x.widthStep with
  | some (w, seq) => if seq = x.rxSeq then startSync { x with width := stepWidth minW x.want w x, farWant := w, widthStep := none } else x
  | none => x

/-- A whole slot train that no end of the machine sent: counted where its opcode and channel do not go together, and discarded (log 97). -/
def State.rawPacket (s : State) (d : Nat) (h : BitVec 128) : State :=
  if opcFits (bits h.toNat 108 7) (bits h.toNat 125 3) then s else s.badPacket d

/-- The slot train that arrives is whole: its packet stands in the queues of die d. -/
def State.packetIn (s : State) (d q : Nat) (train : List Slot) : State :=
  let now := s.now d
  let s := s.modPort d q (fun x => { x with rxPart := [] })
  match train.head? with
  | some (.of p shared _) =>
    ((s.modPort d q (fun x => { x with quiet := tset x.quiet p.vc.toNat now })).charge d p.tenant.toNat actLink (packetSlots p.body)).land d ⟨q, shared, p⟩
  | some (.raw h) => s.rawPacket d h
  | none => s

/-- The slots of a train, from its header. -/
def trainSlots (x : Slot) : Nat := match x with | .of p _ _ => packetSlots p.body | .raw w => 1 + bits w.toNat 115 5

/-- R357: the slots of a DATA flit in order; PAD marks the rest of the flit as empty. -/
def State.takeSlots (s : State) (d q : Nat) : List Slot → State
  | [] => s
  | w :: r =>
    let part := (s.port d q).rxPart
    if part.isEmpty && (match w with | .raw v => bits v.toNat 108 7 == 0 | _ => false) then s
    else
      let part := part ++ [w]
      let s := if part.length = trainSlots (part.headD w) then s.packetIn d q part else s.modPort d q (fun x => { x with rxPart := part })
      s.takeSlots d q r

/-- The minimum width of a die's ports (R439). -/
def State.minW (s : State) (d : Nat) : Nat := (s.pkg (diePkg d)).minWidth

/-- R354, R355, R363: a good flit reaches a port.  While earlier flits are missing every flit but the next is discarded. -/
def State.acceptFlit (s : State) (d q : Nat) (f : Flit) : State :=
  let x := s.port d q
  let inOrder := f.body != .idle && f.seq == x.rxSeq + 1
  if !(inOrder || (f.body == .idle && !x.discarding)) then s
  else
    let now := s.now d
    let minW := s.minW d
    let s := s.modPort d q (fun x => takeCredits f (if f.nak then takeNak minW now f.ack x else takeAck minW f.ack x))
    if f.body = .idle then s
    else
      let s := s.modPort d q (fun x => applyWidth minW { x with rxSeq := f.seq, discarding := false })
      match f.body with
      | .data l => s.takeSlots d q l
      | _ => s

/-- The far end of a port: its die and port. -/
def State.farOf (s : State) (d q : Nat) : Option (Nat × Nat) := (s.port d q).far.map (fun f => (f.pkg.toNat * 8 + f.die.toNat, f.port.toNat))

/-- The flit that the far end of a port sends next. -/
def State.farSends (s : State) (d q : Nat) : Option (Flit × State) :=
  match s.farOf d q with
  | some (e, q2) => if s.dieUp e && s.farOf e q2 == some (d, q) then s.transmit e q2 else none
  | none => none

/-- A port receives the next flit of its far end without error. -/
def State.receive (s : State) (d q : Nat) : State :=
  match s.farSends d q with
  | some (f, s) => if (s.port d q).st == .up && s.dieUp d then s.acceptFlit d q f else s
  | none => s

/-- A port has flits other than IDLE to send. -/
def State.hasFlits (s : State) (x q : Nat) : Bool :=
  let p := s.port x q
  p.st == .up && (!p.resend.isEmpty || (decide (p.replay.length < 256) && (!p.ctrlQ.isEmpty || s.hasData x q)))

/-- The flits of a port reach its far end until a condition holds or it has none to send. -/
def State.sendUntil (d q e q2 : Nat) (done : State → Bool) : Nat → State → State
  | 0, s => s
  | f + 1, s => if done s || !s.hasFlits e q2 then s else State.sendUntil d q e q2 done f (s.receive d q)

/-- A packet has landed at die d. -/
def State.landed (s : State) (d : Nat) (p : Packet) : Bool := (s.die d).rx.any (fun r => samePk r.pk p)

/-- R357, R362: a packet that waits at die x for port q crosses, with those that the arbiter sends first; where that needs an acknowledgement, a NAK
or credits of the far end, they come with its next flit. -/
def State.crossLink (s : State) (x q : Nat) (p : Packet) : State :=
  match s.farOf x q with
  | none => s
  | some (e, q2) =>
    let a := s.port x q
    let s := if a.frozen || decide (256 ≤ a.replay.length) || (s.port e q2).nakDue then s.receive x q else s
    let s := State.sendUntil e q2 x q (fun s => s.landed e p) 512 s
    if s.landed e p then s else State.sendUntil e q2 x q (fun s => s.landed e p) 512 (s.receive x q)

/-- The flits of a port that its far end has not accepted yet. -/
def unaccepted (a far : Port) : List Flit :=
  if a.replay.any (fun f => f.seq == far.rxSeq) then (a.replay.dropWhile (fun f => f.seq != far.rxSeq)).drop 1 else a.replay

/-- A slot of packet p. -/
def ofPacket (p : Packet) (w : Slot) : Bool := match w with | .of k _ _ => samePk k p | .raw _ => false

/-- The slots that a flit brings. -/
def Flit.slots (f : Flit) : List Slot := match f.body with | .data l => l | _ => []

/-- The link on which a packet is on its way: begun by a port, and not whole at its far end. -/
def State.seekLink (s : State) (p : Packet) : Option (Nat × Nat) :=
  s.dies.findSome? (fun e => (e.2.ports.find? (fun t =>
    t.2.txRest.any (ofPacket p) || (match s.farOf e.1 t.1 with
      | some (d, q) => (s.port d q).rxPart.any (ofPacket p) || (unaccepted t.2 (s.port d q)).any (fun f => f.slots.any (ofPacket p))
      | none => false))).map (fun t => (e.1, t.1)))

/-! ### A packet's way -/

/-- R361 to R364, R371, R378: packet p moves on toward its destination, hop by hop: at each output the packets that the arbiter prefers leave first,
and packets ahead of it in a queue go before it; until it has arrived or can move no further. -/
def State.pull (p : Packet) : Nat → State → State
  | 0, s => s
  | f + 1, s =>
    match s.seek p with
    | none =>
      match s.seekLink p with
      | some (x, q) => let t := s.crossLink x q p; if (t.seek p).isNone then t else State.pull p f t
      | none => s
    | some (x, r) =>
      let h := s.headOf x r
      match s.hop x h with
      | .here => s
      | .stopped => if waitsAtSource h then s else State.pull p f (s.stopAt x h false)
      | .lost => State.pull p f (s.stopAt x h true)
      | .out o =>
        if o < 4 then
          let t := s.crossLink x o h.pk
          if (s.heads x).contains h && (t.heads x).contains h then t else State.pull p f t
        else match s.pickOut x o with
          | none => s
          | some (w, a) => State.pull p f (s.crossJunction x (o - 4) w a)

/-- Steps enough for every packet and hop that can matter. -/
def pullFuel := 4096

def State.bring (s : State) (p : Packet) : State := State.pull p pullFuel s

/-! ### Arrivals -/

/-- R364: the slots that a request's response takes at most. -/
def responseSlots (b : Payload) : Nat :=
  match b with
  | .rd _ sec => 1 + 2 * (sectorsIn (fun i => sec.getLsbD i)).length
  | .wr .. => 1
  | .wrBits .. => 1
  | _ => 2

/-- R364: a die can place the response of a request: it goes nowhere, or the output it takes has credits for it beside the responses that wait there,
or its escape space. -/
def State.canPlace (s : State) (p : Packet) : Bool :=
  let d := p.dst
  let rp : Rx := ⟨8, true, s.response p false 0 .ack none⟩
  match s.hop d rp with
  | .out o =>
    let vc := rp.pk.vc.toNat
    let waiting := (s.ownRx d).foldl (fun n r => if r.pk.vc.toNat = vc ∧ s.hop d r = .out o then n + packetSlots r.pk.body else n) 0
    let c := s.outCredits d o
    decide (waiting + responseSlots p.body ≤ c.1.getD vc 0) || (decide (waiting = 0) && !c.2.contains (vc, 1))
  | _ => true

/-- R173: the address at which a request goes to the DRAM of its destination die. -/
def dramPa (p : Packet) : Option Nat :=
  let at_ (pa : BitVec 52) : Option Nat := if paSpace pa.toNat = 0 then some pa.toNat else none
  match p.body with
  | .rd pa _ => at_ pa
  | .wr pa .. => at_ pa
  | .wrBits pa .. => at_ pa
  | .amo pa .. => at_ pa
  | _ => none

/-- R173: the request that a die's DRAM controller issues next, and its new count of grants over a waiting less urgent class: by class, then earlier
deadline, then age, with the floor of R33, among those that stand ready at the die. -/
def State.dramPick (s : State) (d : Nat) : Option (Packet × Nat) :=
  let l := ((s.heads d).zipIdx).filter (fun e => (dramPa e.1.pk).isSome && s.hop d e.1 == .here && s.canPlace e.1.pk)
  (arbitrate (fun e => vcCls e.1.pk.vc.toNat)
    (fun a b => decide (vcCls a.1.pk.vc.toNat < vcCls b.1.pk.vc.toNat) || (vcCls a.1.pk.vc.toNat == vcCls b.1.pk.vc.toNat &&
      (dlLt a.1.pk.dl b.1.pk.dl || (a.1.pk.dl == b.1.pk.dl && decide (a.2 < b.2)))))
    (fun a b => decide (a.2 < b.2)) (s.die d).dramStreak l).map (fun e => (e.1.1.pk, e.2))

/-- R173: a request that has arrived takes its turn at its die's DRAM controller; one for other memory has none to wait for. -/
def State.dramTurn (s : State) (p : Packet) : Option State :=
  match dramPa p with
  | none => some s
  | some _ =>
    match s.dramPick p.dst with
    | some (w, k) => if samePk w p then some (s.modDie p.dst (fun x => { x with dramStreak := k })) else none
    | none => none

/-- How a request begins: it has not arrived, or is held (R364); it is answered without its effect; or its destination die takes it. -/
inductive Arrival where
  | notNext (s : State)
  | answered (s : State)
  | here (s : State)

/-- R173, R364, R376: the arrival of a request. -/
def State.arrive (s : State) (p : Packet) : Arrival :=
  let s := s.bring p
  if !s.isNext p || !s.canPlace p then .notNext s
  else match s.dramTurn p with
  | none => .notNext s
  | some s =>
    let t := s.take p
    if !opcFits (opcOf p.body) p.vc.toNat then .answered (t.badPacket p.dst)
    else if !t.dieUp p.dst then .answered (t.respond p true stGone (refusalBody p.body) none)
    else if p.depoch != (t.die p.dst).epoch || p.pepoch != (t.pkg p.dpkg.toNat).epoch then
      .answered (t.respond p false stGone (refusalBody p.body) none)
    else .here t

/-- R377: the arrival of a response: dropped and counted in STALE_RSP, or matched to its outstanding request. -/
inductive Reply where
  | notNext (s : State)
  | dropped (s : State)
  | matched (o : Outst) (s : State)

def State.reply (s : State) (p : Packet) : Reply :=
  let s := s.bring p
  if !s.isNext p then .notNext s
  else
    let s := s.take p
    let d := p.dst
    match tget? (s.die d).outst p.tag.toNat with
    | none => .dropped (s.staleRsp d)
    | some o =>
      if !s.dieUp d || p.depoch != (s.die d).epoch || (p.status.toNat != stGone && p.sepoch != o.depoch) then .dropped (s.staleRsp d)
      else .matched o (s.retire d p.tag.toNat)

/-- R439: this end requests a width of a port: a change is told by a WIDTH flit. -/
def wantWidth (w : Nat) (x : Port) : Port := if x.want = w then x else
  let x := { x with want := w }
  if x.st == .up then { x with ctrlQ := x.ctrlQ ++ [.width w 0] } else x

/-- Every port of a die requests a width. -/
def State.wantWidths (s : State) (d w : Nat) : State := s.modDie d (fun x => { x with ports := tmap x.ports (fun _ q => wantWidth w q) })

/-- Requests of a die still unanswered, waiting ones included, that satisfy a test. -/
def State.unanswered (s : State) (d : Nat) (f : Outst → Bool) : Nat :=
  let x := s.die d
  (x.outst.filter (fun e => f e.2)).length + (x.sendQ.filter (fun e => f e.1)).length

/-! ### Units' own reads of memory (log 9) -/

/-- Why an access of a unit ended in error. -/
inductive AccErr where
  | unmapped | rights | foreign | gone | hole | ue
  deriving DecidableEq, Repr

/-- R371, R378: some way leads from a die to another; a link that retrains delays it. -/
def State.reached (s : State) (a b : Nat) : Bool := match s.way a b with | .arrives _ => true | .waits => true | _ => false

/-- R23, R131, R152, R378, R405: what a home die answers a read of tenant data, and the fault it gives (KIND, address, DETAIL). -/
def State.homeCheck (s : State) (from_ : Nat) (tenant pa : Nat) : Option (AccErr × Option (Nat × Nat × Nat)) :=
  if !(s.inMachine (diePkg from_) (diePkg (paDie pa))) || !s.dieUp (paDie pa) ||
    (s.die from_).targets.any (fun t => t.1 == paDie pa && t.2 != .inService) || !s.reached from_ (paDie pa)
  then some (.gone, none)
  else if !(paSpace pa = 0 || paSpace pa = 1) || !paPopulated pa then some (.hole, some (5, pa, 0))
  else if !s.owns tenant pa || !s.served (diePkg (paDie pa)) tenant then some (.foreign, some (4, pa, s.owner pa))
  else none

/-- Reads n bytes at a physical address for a tenant, from home memory, as a home die serves a read: the row opened (R589), the access counted
(R460), errors met (R129, R152). -/
def State.readHome (s : State) (from_ tenant pa n : Nat) : (List Byte ⊕ AccErr) × Option (Nat × Nat × Nat) × State :=
  match s.homeCheck from_ tenant pa with
  | some (e, f) => (.inr e, f, s)
  | none =>
    let s := ((s.dramTouch pa).chargeMem tenant pa n).ceFoundAt pa
    match s.poisonIn pa n with
    | some w => (.inr .ue, some (3, w, s.ueDetail w false), s)
    | none => (.inl (s.readPa pa n), none, s)

/-- Records a fault that a unit's access met: at the issuing die, for the issuing VI (log 12). -/
def State.accFault (s : State) (d tenant v : Nat) (f : Option (Nat × Nat × Nat)) : State :=
  match f with
  | some (k, pa, det) => s.memFault d { kind := k, tenant := tenant, vi := v, pa := pa, detail := det, pkg := tenant == 0 }
  | none => s

/-- The longest part of a range that one 128-byte line holds. -/
def lineSpan (va n : Nat) : Nat := min n (128 - va % 128)

/-- R137, R152: a unit reads n bytes of tenant virtual memory, line by line (fuel bounds the lines). -/
def State.readVa (s : State) (u : XUnit) (tenant v : Nat) (va n : Nat) : Nat → (List Byte ⊕ AccErr) × State
  | 0 => (.inl [], s)
  | fuel + 1 =>
    if n = 0 then (.inl [], s) else
    let k := lineSpan va n
    let (x, s) := s.xlat u tenant v va
    match x with
    | none => (.inr .unmapped, s)
    | some x =>
      if !entryRd x.entry then (.inr .rights, s) else
      let (r, f, s) := s.readHome u.die tenant x.pa k
      match r with
      | .inr e => (.inr e, s.accFault u.die tenant v f)
      | .inl b =>
        match s.readVa u tenant v (va + k) (n - k) fuel with
        | (.inl rest, s') => (.inl (b ++ rest), s')
        | (.inr e, s') => (.inr e, s')

/-- Reads n little-endian 64-bit words of tenant virtual memory. -/
def wordsOf (b : List Byte) (n : Nat) : List Word := (chunks 8 n b).map (fun c => BitVec.ofNat 64 (leNat c))

def State.readWords (s : State) (u : XUnit) (tenant v va n : Nat) : (List Word ⊕ AccErr) × State :=
  match s.readVa u tenant v va (8 * n) (n / 16 + 2) with
  | (.inl b, s) => (.inl (wordsOf b n), s)
  | (.inr e, s) => (.inr e, s)


end Sys2Proof.Machine
end

