-- ==== Sys2Proof/Machine/Rings.lean ====
section
/-! DEFINITION. Ring commands as the units see them: their fields (R488), how one completes (R490, R494, R497 to R499), signals sent
for commands and units (R316 to R320, R324, R325), share ledgers 4 and 5 (R415), the end of a thread (R76, R313, R593), and the
failing of a VI's work (R149). -/
set_option Elab.async false
namespace Sys2Proof

/-- Package, VI and ring of a command as numbers. -/
def CmdRef.p (c : CmdRef) : Nat := c.pkg.toNat
def CmdRef.v (c : CmdRef) : Nat := c.vi.toNat
def CmdRef.r (c : CmdRef) : Nat := c.ring.toNat

end Sys2Proof
namespace Sys2Proof.Machine

/-! ### Signal handles (R316, R317, R319) -/

def hKind (h : Word) : Nat := bits h.toNat 60 4
def hEpoch (h : Word) : BitVec 8 := BitVec.ofNat 8 (bits h.toNat 52 8)
/-- Package * 8 + die of a handle. -/
def hDie (h : Word) : Nat := bits h.toNat 41 11
def hIndex (h : Word) : Nat := bits h.toNat 0 16

/-- R317. -/
def handleValid (h : Word) : Bool :=
  bits h.toNat 16 25 == 0 &&
  ((hKind h == 1 && decide (hIndex h ≤ 16383)) ||
   (hKind h == 2 && decide (hIndex h < 8192) && decide (hIndex h % 64 < 48)))

/-- A signal's key: pool index, or 65536 + core INDEX. -/
def hKey (h : Word) : Nat := if hKind h = 2 then 65536 + hIndex h else hIndex h

/-- R319: the space-2 offset of a signal's slot, and back. -/
def slotOff (key : Nat) : Nat :=
  if 65536 ≤ key then 0x100000 + (key - 65536) / 64 * 1024 + (key - 65536) % 64 * 16 else key * 16
def slotKey (off : Nat) : Nat :=
  if 0x100000 ≤ off then 65536 + (off - 0x100000) / 1024 * 64 + (off - 0x100000) % 1024 / 16 else off / 16

/-- The handle of a core signal of a die at its present epoch (R316). -/
def mkHandle (kind epoch d index : Nat) : Word :=
  BitVec.ofNat 64 (kind * 2 ^ 60 + epoch % 256 * 2 ^ 52 + d % 2048 * 2 ^ 41 + index % 65536)

/-- R320: source kinds, and what LAST_WRITER names. -/
def lwThread := 1
def lwDma := 2
def lwRing := 3
def lwFirmware := 4

/-- A signal request of die d (R323, R358): its DEPOCH is the epoch its handle carries (R318). -/
def State.sendSig (s : State) (d : Nat) (kind : OKind) (tenant vi cls deadline : Nat) (hd key : Nat) (epoch : BitVec 8)
    (fn : SigFn) (value : Nat) (src writer : Nat) : State :=
  let p := s.request d tenant cls deadline hd 0
    (.sig (BitVec.ofNat 52 (mkPa 2 hd (slotOff key))) fn (BitVec.ofNat 32 value) (BitVec.ofNat 8 src) (BitVec.ofNat 23 writer)
      (BitVec.ofNat 64 deadline) (BitVec.ofNat 5 vi))
  s.sendPk d kind vi cls { p with depoch := epoch }

/-! ### Commands held by rings -/

def State.ring (s : State) (p v r : Nat) : Ring := tget (s.vi p v).rings r {}
def State.modRing (s : State) (p v r : Nat) (f : Ring → Ring) : State :=
  s.modVi p v (fun x => { x with rings := tset x.rings r (f (tget x.rings r {})) })

/-- A command accepted and not completed. -/
def State.rcmd? (s : State) (c : CmdRef) : Option RCmd := (s.ring c.p c.v c.r).held.find? (fun k => k.idx == c.idx)

def State.modCmd (s : State) (c : CmdRef) (f : RCmd → RCmd) : State :=
  s.modRing c.p c.v c.r (fun g => { g with held := g.held.map (fun k => if k.idx == c.idx then f k else k) })

/-- Word i of a command. -/
def RCmd.word (k : RCmd) (i : Nat) : Nat := (k.w.getD i 0).toNat
def RCmd.opcode (k : RCmd) : Nat := bits (k.word 0) 56 8
def RCmd.overlap (k : RCmd) : Bool := bit (k.word 0) 53
def RCmd.sigen (k : RCmd) : Bool := bit (k.word 0) 52
def RCmd.sigop (k : RCmd) : Bool := bit (k.word 0) 51
def RCmd.signal (k : RCmd) : Word := k.w.getD 1 0
def RCmd.sigval (k : RCmd) : Nat := bits (k.word 2) 32 32
def RCmd.diemask (k : RCmd) : Nat := bits (k.word 3) 56 8
def RCmd.dieField (k : RCmd) : Nat := bits (k.word 3) 61 3
def RCmd.desc (k : RCmd) : Nat := bits (k.word 3) 0 48

/-- R462: the die (0 or 4) whose PCIe port carries a function. -/
def State.portDie (s : State) (p v : Nat) : Nat :=
  match (s.pkg p).image with
  | some i => if i.x8x8 && decide (16 ≤ v) then 4 else 0
  | none => 0

/-- R465, R582: the link of a function's port. -/
def State.linkUp (s : State) (p v : Nat) : Bool := if s.portDie p v = 4 then (s.pkg p).link4 else (s.pkg p).link0

/-- The die from which a command's requests leave (package * 8 + die): the die it names, or its port's die. -/
def State.cmdDie (s : State) (c : CmdRef) (k : RCmd) : Nat :=
  c.p * 8 + (if [3, 4, 6, 7].contains k.opcode then k.dieField else s.portDie c.p c.v)

/-- R493: a command may start: its ring runs, and every earlier command of the ring has completed, or with OVERLAP
the one before it has started and is neither SIG_WAIT nor FENCE. -/
def State.canStart (s : State) (c : CmdRef) : Bool :=
  let g := s.ring c.p c.v c.r
  let before := g.held.takeWhile (fun k => k.idx != c.idx)
  match s.rcmd? c with
  | none => false
  | some k =>
    (g.st == .running) && s.pkgUp c.p && !k.started && k.result.isNone &&
    (before.isEmpty ||
      (k.overlap && match before.getLast? with
        | some b => b.started && b.opcode != 9 && b.opcode != 12
        | none => true))

/-- R497: the two words of a completion entry. -/
def cplWords (g : Ring) (k : RCmd) (status : Nat) (result : Word) (late : Bool) : List Word :=
  [result, BitVec.ofNat 64 ((if k.idx.toNat / g.size % 2 = 0 then 2 ^ 63 else 0) + b2n late * 2 ^ 62 + status % 4 * 2 ^ 60 +
    k.opcode * 2 ^ 48 + k.idx.toNat)]

/-- R498: HEAD passes every index whose entry, and those of all earlier commands, are written. -/
def advHead (head : BitVec 32) (done : List (BitVec 32)) : Nat → BitVec 32 × List (BitVec 32)
  | 0 => (head, done)
  | n + 1 => if done.contains head then advHead (head + 1) (done.filter (· != head)) n else (head, done)

/-- R498: the signal of a completed command waits to be sent. -/
def State.sigWaits (s : State) (c : CmdRef) : Bool :=
  (List.range 8).any (fun i => (s.die (c.p * 8 + i)).sendQ.any (fun e => match e.1.kind with | .ringSig b _ => b == c | _ => false))

/-- R497 to R499, R494: the completion entry of a command is written to host memory, once its signal has been sent; HEAD advances; the vector is signalled at the
coalescing count; ERROR and REFUSED stop the ring, but for the refusals of an ABORT (R495). -/
def State.writeEntryAs (s : State) (c : CmdRef) (stops : Bool) : State :=
  match s.rcmd? c with
  | none => s
  | some k =>
    match k.result with
    | none => s
    | some (status, result) =>
      if !s.linkUp c.p c.v || s.sigWaits c then s else
      let now := (s.pkg c.p).tick
      let g := s.ring c.p c.v c.r
      let late := decide (k.deadline < now)
      let s := s.hostWrite c.p (g.cplBase.toNat + 16 * (k.idx.toNat % g.size))
        (((cplWords g k status result late).map (fun w => leBytes 8 w.toNat)).flatten)
      let (head, ahead) := advHead g.head (k.idx :: g.doneAhead) (g.doneAhead.length + 1)
      let unsig := g.unsignalled + 1
      let first := if g.unsignalled = 0 then now else g.firstUnsig
      let fire := g.ctime == 0 || decide (g.ccount ≤ unsig)
      let stop := stops && decide (2 ≤ status)
      let g' : Ring := { g with
        head := head, doneAhead := ahead, held := g.held.filter (fun e => e.idx != c.idx),
        unsignalled := if fire then 0 else unsig, firstUnsig := first, st := if stop && g.st == .running then .stopped else g.st }
      let s := s.modRing c.p c.v c.r (fun _ => g')
      let s := if late then s.modVi c.p c.v (fun x => { x with missed := x.missed.set (min k.cls 2) (x.missed.getD (min k.cls 2) 0 + 1) }) else s
      let s := if fire then s.msix c.p c.v (2 + c.r) else s
      if stop then s.event (c.p * 8 + s.portDie c.p c.v) c.v evRingStopped (0x40 + c.r) k.idx.toNat else s

def State.writeEntry (s : State) (c : CmdRef) : State := s.writeEntryAs c true

/-- R490, R498: a command's work is done: with an outcome other than ERROR and REFUSED its signal is raised (SIGEN), then its entry is
written, at the signal's answer where the signal could not be sent at once.  STATUS: 0 OK, 1 NOTED, 2 ERROR, 3 REFUSED (R497). -/
def State.finishCmd (s : State) (c : CmdRef) (status : Nat) (result : Word) : State :=
  match s.rcmd? c with
  | none => s
  | some k =>
    if k.result.isSome then s else
    let s := s.modCmd c (fun k => { k with result := some (status, result), started := true })
    let s :=
      if k.sigen && decide (status < 2) && k.opcode != 8 && k.opcode != 9 then
        let d := s.cmdDie c k
        let h := k.signal
        s.sendSig d (.ringSig c h) (s.vi c.p c.v).tenant c.v k.cls k.deadline (hDie h) (hKey h) (hEpoch h)
          (if k.sigop then .set else .add) k.sigval lwRing (c.p * 2 ^ 15 + c.v * 16 + c.r)
      else s
    s.writeEntry c

/-- R491: the ring result word. -/
def ringResult (outcome reason enderr value : Nat) : Word :=
  BitVec.ofNat 64 (outcome % 16 * 2 ^ 60 + reason % 16 * 2 ^ 56 + min enderr (2 ^ 24 - 1) * 2 ^ 32 + value % 2 ^ 32)

/-- R546: the result word of a command whose work a die reset or a lost line ends in error: REASON GONE where the word has it,
ACCESS otherwise (REASON 5 of a SHUNT is ACCESS, R198). -/
def errResult (opcode : Nat) : Word :=
  match opcode with
  | 3 => BitVec.ofNat 64 (3 * 2 ^ 60)
  | 4 => BitVec.ofNat 64 (1 * 2 ^ 60 + 1 * 2 ^ 56)
  | 5 => BitVec.ofNat 64 (2 * 2 ^ 60 + 5 * 2 ^ 56)
  | 6 => BitVec.ofNat 64 (3 * 2 ^ 60 + 1 * 2 ^ 56)
  | 7 => BitVec.ofNat 64 (1 * 2 ^ 60 + 1 * 2 ^ 56)
  | _ => ringResult 2 1 0 0

/-- R489: the result word of a refused command. -/
def refusedResult (opcode : Nat) : Word :=
  match opcode with
  | 3 => BitVec.ofNat 64 (4 * 2 ^ 60)
  | 4 => BitVec.ofNat 64 (2 * 2 ^ 60)
  | 5 => BitVec.ofNat 64 (3 * 2 ^ 60)
  | 6 => BitVec.ofNat 64 (4 * 2 ^ 60)
  | 7 => BitVec.ofNat 64 (2 * 2 ^ 60)
  | _ => ringResult 3 0 0 0

/-! ### The books: ledger faults (R420), share ledgers 4 and 5 (R415) -/

/-- Another mismatch within 1 s (R421). -/
def again (last : Option Nat) (now : Nat) : Bool := match last with | some t => decide (now < t + 1000 * tickMs) | none => false

/-- R420, R478: a FLT_LEDGER record is counted, queued on a die and posted to VI 0, and to the VI it names. -/
def State.ledgerFault (s : State) (d ledger tenant vi unit sub : Nat) (again : Bool) (expected found : Nat) : State :=
  let x := s.die d
  let w0 := ledger % 16 * 2 ^ 60 + tenant % 4096 * 2 ^ 48 + vi % 32 * 2 ^ 43 + dieNo d * 2 ^ 40 + x.epoch.toNat * 2 ^ 32 +
    unit % 256 * 2 ^ 24 + sub % 256 * 2 ^ 16 + b2n again * 2 ^ 15
  let (q, dr) := pushQ 16 x.ledgerFaults x.ledDropped
    [BitVec.ofNat 64 w0, BitVec.ofNat 64 (expected % 2 ^ 32 * 2 ^ 32 + found % 2 ^ 32), BitVec.ofNat 64 (s.now d), 0]
  let s := (s.setDie d { x with ledgerFaults := q, ledDropped := dr }).event d 0 fltLedger noUnit 0
  let s := s.modPkg (diePkg d) (fun k => { k with ledgerFaults := k.ledgerFaults + 1 })
  if vi = 0 then s else s.event d vi fltLedger noUnit 0

def State.share (s : State) (ledger d v : Nat) : Share := if ledger = 4 then tget (s.die d).tok v {} else tget (s.die d).pool v {}

def State.setShare (s : State) (ledger d v : Nat) (x : Share) : State :=
  s.modDie d (fun y => if ledger = 4 then { y with tok := tset y.tok v x } else { y with pool := tset y.pool v x })

def State.unalloc (s : State) (ledger d : Nat) : Nat := if ledger = 4 then (s.die d).tokFree else (s.die d).poolFree

def State.setUnalloc (s : State) (ledger d n : Nat) : State :=
  s.modDie d (fun y => if ledger = 4 then { y with tokFree := n } else { y with poolFree := n })

/-- R418: an audit of ledger 4 or 5 falls due. -/
def State.auditDue (s : State) (ledger d : Nat) : State := s.modDie d (fun y => { y with shareAudit := terase y.shareAudit ledger })

/-- R415 step 3, R416: the grants that wait, oldest first, as far as the unallocated count has their units (log 94). -/
def State.serveGrants (ledger d : Nat) : Nat → State → State
  | 0, s => s
  | n + 1, s =>
    match (s.die d).dueGrants.find? (fun g => g.1 == ledger) with
    | none => s
    | some g =>
      if s.unalloc ledger d < g.2.2 then s
      else
        let x := s.share ledger d g.2.1
        let s := s.modDie d (fun y => { y with dueGrants := y.dueGrants.erase g })
        let s := (s.setShare ledger d g.2.1 { x with share := x.share + g.2.2 }).setUnalloc ledger d (s.unalloc ledger d - g.2.2)
        State.serveGrants ledger d n ((s.event d 0 evBooksGranted noUnit (ledger + g.2.1 * 16)).auditDue ledger d)

/-- Every grant that can be made is made. -/
def State.grantDue (s : State) (ledger d : Nat) : State := State.serveGrants ledger d (s.die d).dueGrants.length s

/-- Units return to the unallocated count, after what a correction of the ledger still owes (R421). -/
def State.giveUnalloc (s : State) (ledger d n : Nat) : State :=
  let o := tget (s.die d).owed ledger 0
  let s := if o = 0 then s else s.modDie d (fun y => { y with owed := if o ≤ n then terase y.owed ledger else tset y.owed ledger (o - n) })
  (s.setUnalloc ledger d (s.unalloc ledger d + (n - o))).grantDue ledger d

/-- R415 step 3, R416: WITHDRAW of a share has reached 0: the grant of its repartition is made, or the event of one whose gaining share
is the unallocated count is raised. -/
def State.grantShare (s : State) (ledger d v : Nat) : State :=
  let x := s.share ledger d v
  if x.units = 0 then s
  else
    let s := s.setShare ledger d v { x with gain := 32, units := 0 }
    if x.gain < 32 then (s.modDie d (fun y => { y with dueGrants := y.dueGrants ++ [(ledger, x.gain, x.units)] })).grantDue ledger d
    else (s.event d 0 evBooksGranted noUnit (ledger + 2 ^ 9)).auditDue ledger d

/-- A share that gains units goes with its VI's unbind: the units stay in the unallocated count (log 94). -/
def State.loseGain (s : State) (ledger d v : Nat) : State :=
  let due := (s.die d).dueGrants.filter (fun g => g.1 == ledger && g.2.1 == v)
  let s := s.modDie d (fun y =>
    let keep := tmap (if ledger = 4 then y.tok else y.pool) (fun _ x => if x.gain == v then { x with gain := 32 } else x)
    { y with dueGrants := y.dueGrants.filter (fun g => !(g.1 == ledger && g.2.1 == v)),
             tok := if ledger = 4 then keep else y.tok, pool := if ledger = 4 then y.pool else keep })
  due.foldl (fun s _ => (s.event d 0 evBooksGranted noUnit (ledger + 2 ^ 9)).auditDue ledger d) s

/-- R415 step 2: a share's holding is released: to its free units, or, while WITHDRAW is above 0, to the unallocated count. -/
def State.releaseUnit (s : State) (ledger d v : Nat) : State :=
  let x := s.share ledger d v
  if x.withdraw = 0 then s.setShare ledger d v { x with held := x.held - 1 }
  else
    let s := s.setShare ledger d v { x with share := x.share - 1, held := x.held - 1, withdraw := x.withdraw - 1 }
    let s := s.giveUnalloc ledger d 1
    if x.withdraw = 1 then s.grantShare ledger d v else s

/-! ### The end of a thread -/

/-- R313: core signals of a thread processor whose owner holds no context there any more, and that have no waiter, become unowned. -/
def State.releaseCore (s : State) (d tp : Nat) : State :=
  s.modDie d (fun x => { x with signals := tmap x.signals (fun k g =>
    if 65536 ≤ k && (k - 65536) / 64 == tp && g.owner != 0 && g.waiters.isEmpty &&
       !(s.threads.any (fun e => thDie e.1 == d && thTp e.1 == tp && e.2.st != .free && e.2.tenant == g.owner))
    then {} else g) })

/-- R593: a thread of a launch has ended; the launch completes when every thread has (R492). -/
def State.launchDone (s : State) (c : CmdRef) : State :=
  match s.rcmd? c with
  | none => s
  | some k =>
    match k.work with
    | .launch count next live _ endErr refused =>
      if next = count ∧ live = 0 then
        if refused = 0 ∧ endErr = 0 then s.finishCmd c 0 (ringResult 0 0 0 0)
        else s.finishCmd c 1 (ringResult 1 0 endErr refused)
      else s
    | _ => s

def State.launchEnd (s : State) (c : CmdRef) (err : Bool) : State :=
  let s := s.modCmd c (fun k =>
    match k.work with
    | .launch count next live ended endErr refused =>
      { k with work := .launch count next (live - 1) (if err then ended else ended + 1) (if err then endErr + 1 else endErr) refused }
    | _ => k)
  s.launchDone c

/-- The tag under which a die holds a wait's request. -/
def waitTag (x : Die) (w : WaiterRef) : Option Nat := (x.outst.find? (fun e => e.2.kind == .sigWait w)).map (·.1)

/-- A wait leaves a Signal box of the waiter's own package without a reply: its request and its waiter entry at home die h go, and
its tag is retired. -/
def State.dropWait (s : State) (d h : Nat) (w : WaiterRef) : State :=
  let tag := waitTag (s.die d) w
  let mine : Packet → Bool := fun p => p.src == d && p.dst == h && some p.tag.toNat == tag && p.vc.toNat % 2 == 0
  let s := s.modDie d (fun x => { x with sendQ := x.sendQ.filter (fun e => e.1.kind != .sigWait w) })
  let s := s.modDie h (fun x => { x with
    sigQueue := x.sigQueue.filter (fun p => !mine p),
    signals := tmap x.signals (fun _ g => { g with waiters := g.waiters.filter (fun e => !mine e.rq) }) })
  match tag with
  | none => s
  | some t =>
    let s := s.purge (fun p => mine p || (p.src == h && p.dst == d && p.tag.toNat == t && p.vc.toNat % 2 == 1))
    s.retire d t

/-- The miss registers and queue entries of a cluster no longer answer a thread. -/
def dropThreadCl (th : Nat) (c : Cluster) : Cluster :=
  let mine : Merge → Bool := fun m => match m with
    | .load t => t.toNat == th
    | .lane t _ => t.toNat == th
    | .fetch t _ => t.toNat == th
    | .walk .. => false
  let isMine : PqEntry → Bool := fun e => match e.who with
    | .thread t _ => t.toNat == th
    | .walk _ => false
  let gone : Nat → Nat := fun lane => ((tget c.pq lane []).filter isMine).length
  { c with miss := c.miss.map (fun m => { m with merges := m.merges.filter (fun e => !mine e.1) }),
           aside := c.aside.filter (fun a => !mine a.who),
           pqFree := c.pq.map (fun e => (e.1, tget c.pqFree e.1 16 + gone e.1)),
           pq := tmap c.pq (fun _ l => l.filter (fun e => !isMine e)),
           pqWait := c.pqWait.filter (fun e => !isMine e.2) }

/-- R333, R336: CANCEL for a wait held at another die: it carries the wait's TAG and address, and is held as any new request of its channel
(R375). -/
def State.cancelWait (s : State) (d : Nat) (w : WaiterRef) (handle : Word) (cls deadline : Nat) : State :=
  match (s.die d).outst.find? (fun e => e.2.kind == .sigWait w) with
  | none => s.modDie d (fun x => { x with sendQ := x.sendQ.filter (fun e => e.1.kind != .sigWait w) })
  | some (tag, o) =>
    let t := o.dpkg * 8 + o.ddie
    let p := s.request d o.tenant cls deadline t tag (.cancel (BitVec.ofNat 12 tag) (BitVec.ofNat 52 (mkPa 2 t (slotOff (hKey handle)))))
    s.sendPk d .cancel o.vi cls { p with depoch := o.depoch, pepoch := o.pepoch }

/-- The waiter ends while it waits: its wait on its own die goes at once; on another die it is cancelled. -/
def State.leaveWait (s : State) (d : Nat) (w : WaiterRef) (handle : Word) (cls deadline : Nat) : State :=
  if hDie handle = d then s.dropWait d d w
  else (s.cancelWait d w handle cls deadline).modDie d (fun x =>
    { x with outst := tmap x.outst (fun _ o => if o.kind == .sigWait w then { o with kind := .abandoned } else o) })

/-- Requests of an ended thread are answered without effect. -/
def ofThread (th : BitVec 23) (k : OKind) : Bool :=
  match k with
  | .uload t => t == th
  | .ufetch t _ => t == th
  | .ulane t _ => t == th
  | .store t => t == th
  | .amo t _ => t == th
  | .sigRead t => t == th
  | .sigWait (.thread t) => t == th
  | .travel t => t == th
  | .tquery t => t == th
  | _ => false

def abandon (th : BitVec 23) (o : Outst) : Outst := if ofThread th o.kind then { o with kind := .abandoned } else o

/-- R340, R342: a change of a tenant's scope on a die, or the end of a member's wait: it starts its scan period again and may be
reported again. -/
def State.scopeChanged (s : State) (d tenant : Nat) : State :=
  s.modDie d (fun x => { x with scopes := terase x.scopes tenant, reported := terase x.reported tenant })

/-- A context becomes FREE (R62): its travel count stays (R81); ledger 6 gains a context; its waits and queue entries go; its core
signals may be released (R313). -/
def State.freeThread (s : State) (th : Nat) : State :=
  let t := s.thread th
  if t.st == .free then s else
  let d := thDie th
  let s := match t.wait with
    | .sig _ _ h _ _ _ _ _ _ _ => s.leaveWait d (.thread (BitVec.ofNat 23 th)) h t.cls t.deadline
    | _ => s
  let s := s.setThread th { travelCount := t.travelCount }
  let s := s.modDie d (fun x =>
    { x with outst := tmap x.outst (fun _ o => abandon (BitVec.ofNat 23 th) o),
             sendQ := x.sendQ.map (fun (e : Outst × Packet) => (abandon (BitVec.ofNat 23 th) e.1, e.2)) })
  let s := s.modCluster (thCluster th) (fun c =>
    let c := if (c.pq.any fun e => e.2.any fun q => match q.who with | .thread t _ => t.toNat == th | .walk _ => false) || !c.miss.isEmpty || !c.aside.isEmpty || !c.pqWait.isEmpty
      then dropThreadCl th c else c
    { c with ctxFree := tset c.ctxFree (th / 32 % 4) (tget c.ctxFree (th / 32 % 4) 32 + 1) })
  (s.scopeChanged d t.tenant).releaseCore d (thTp th)

/-- R359: a travel: its origin context, that die's epoch and its TRAVEL_NO. -/
abbrev Journey := BitVec 23 × BitVec 8 × BitVec 32

/-- The origin context still holds the travel. -/
def State.holdsTravel (s : State) (a : Journey) : Bool :=
  let u := s.thread a.1.toNat
  u.st == .travelling && u.travelCount == a.2.2 && (s.die (thDie a.1.toNat)).epoch == a.2.1

/-- R593: a thread that ended where it travelled is not counted at its origin. -/
def State.leaveOrigin (s : State) (a : Journey) : State :=
  if s.holdsTravel a then s.modThread a.1.toNat (fun u => { u with launch := none }) else s

/-- R593: a launch counts a thread once: a thread that ended where it travelled is not counted at its origin, and one whose origin was
reset while it travelled counts in no launch. -/
def State.countedOnce (s : State) (th : Nat) (t : Thread) : State :=
  let s := match t.origin with
    | some a => s.leaveOrigin a
    | none => s
  if t.st == .travelling then
    let mine : Journey := (BitVec.ofNat 23 th, (s.die (thDie th)).epoch, t.travelCount)
    { s with threads := tmap s.threads (fun _ u => if u.origin == some mine then { u with launch := none } else u),
             dies := tmap s.dies (fun _ x => { x with arrivals := x.arrivals.map (fun q =>
               if (q.env.origin, q.oepoch, q.env.travelNo) == mine then { q with launch := none } else q) }) }
  else s

/-- A thread ends, normally or in error, and is counted for its launch (R593). -/
def State.endThread (s : State) (th : Nat) (err : Bool) : State :=
  let t := s.thread th
  let s := (s.countedOnce th t).freeThread th
  match t.launch with
  | some c => s.launchEnd c err
  | none => s

/-- R83, R593: a queued ticket's thread ends in error; its origin, if it still holds the travel, does not count it again. -/
def State.endTicket (s : State) (q : QTicket) : State :=
  let s := s.leaveOrigin (q.env.origin, q.oepoch, q.env.travelNo)
  match q.launch with
  | some c => s.launchEnd c true
  | none => s

/-- R149: the accepted tickets of a VI on a die end. -/
def State.endTickets (s : State) (d v : Nat) : State :=
  let mine := (s.die d).arrivals.filter (fun q => q.vi == v)
  mine.foldl (fun s q => s.endTicket q) (s.modDie d (fun x => { x with arrivals := x.arrivals.filter (fun q => q.vi != v) }))

/-! ### Ending the work of commands -/

/-- The units of a die forget the work of commands. -/
def dropWork (mine : CmdRef → Bool) (x : Die) : Die :=
  { x with
    muCmds := x.muCmds.filter (fun k => !mine k.c),
    mus := tmap x.mus (fun _ m => { m with item := m.item.filter (fun e => !mine e.2.c), cs := m.cs.filter (fun e => !mine e.2.c), csWait := m.csWait.filter (fun e => !mine e.c) }),
    ptCmds := x.ptCmds.filter (fun k => !mine k.c),
    dmaQueue := x.dmaQueue.filter (fun k => !mine k.c),
    engines := tmap x.engines (fun _ e => { e with
      chains := e.chains.filter (fun k => !mine k.c), cur := match e.cur with | some c => if mine c then none else some c | none => none }) }

/-- The units of a die forget a command's work.  Its chains give their tokens back (ledger 4). -/
def State.dropCmdDie (s : State) (c : CmdRef) (d : Nat) : State :=
  let x := s.die d
  let held := (x.dmaQueue.filter (fun k => k.c == c)).length +
    (x.engines.foldl (fun n e => n + (e.2.chains.filter (fun k => k.c == c)).length) 0)
  let s := s.setDie d (dropWork (fun k => k == c) x)
  (List.range held).foldl (fun s _ => s.releaseUnit 4 d c.v) s

/-- The requests of a Shunter's work leave: its Platform queue entries return (R182), and nothing waits for it. -/
def dropWalkReqs (k : Cluster) : Cluster :=
  let isWalk : PqEntry → Bool := fun e => match e.who with | .walk _ => true | _ => false
  let isMerge : Merge → Bool := fun m => match m with | .walk .. => true | _ => false
  { k with
    pqFree := k.pq.foldl (fun f e => let n := (e.2.filter isWalk).length; if n = 0 then f else tset f e.1 (tget f e.1 16 + n)) k.pqFree,
    pq := tmap k.pq (fun _ l => l.filter (fun e => !isWalk e)),
    pqWait := k.pqWait.filter (fun e => !isWalk e.2),
    miss := k.miss.map (fun m => { m with merges := m.merges.filter (fun e => !isMerge e.1) }),
    aside := k.aside.filter (fun a => !isMerge a.who) }

/-- The Shunter of a cluster forgets commands: its work and its hub rows. -/
def dropHub (mine : CmdRef → Bool) (k : Cluster) : Cluster :=
  let k := { k with hubs := k.hubs.filter (fun h => !mine h.c) }
  match k.work with
  | some w => if mine w.c then { dropWalkReqs k with work := none } else k
  | none => k

/-! ### Rows of a walk (R198 to R200) -/

def State.modShCmd (s : State) (c : CmdRef) (f : ShCmd → ShCmd) : State :=
  s.modPkg c.p (fun x => { x with shCmds := x.shCmds.map (fun k => if k.c == c then f k else k) })

/-- R198, R200: a row counted in BAD, once; the lowest position gives FIRST and REASON. Under BADROW 1 no new row starts after it. -/
def shuntBad (k : ShCmd) (pos reason : Nat) : ShCmd :=
  if k.badRows.contains pos then k
  else
    let first := match k.first with
      | some (p, r) => if p ≤ pos then some (p, r) else some (pos, reason)
      | none => some (pos, reason)
    { k with bad := k.bad + 1, badRows := pos :: k.badRows, first := first, err := k.err || reason == 5,
             stop := k.stop || (k.desc.getD 3 0).getLsbD 53 }

def State.badRow (s : State) (c : CmdRef) (pos reason : Nat) : State := s.modShCmd c (fun k => shuntBad k pos reason)

def State.modHub (s : State) (home : Nat) (c : CmdRef) (pos : Nat) (f : Hub → Hub) : State :=
  s.modCluster home (fun x => { x with hubs := x.hubs.map (fun h => if h.c == c && h.pos == pos then f h else h) })

/-- R198: a hub row found malformed goes, with its partials, once none of its segments runs. -/
def State.hubSettle (s : State) (home : Nat) (c : CmdRef) (pos : Nat) : State :=
  match (s.cluster home).hubs.find? (fun h => h.c == c && h.pos == pos) with
  | some h =>
    match h.bad with
    | some (_, r) =>
      if h.running.isEmpty then
        (s.modCluster home (fun x => { x with hubs := x.hubs.filter (fun g => !(g.c == c && g.pos == pos)) })).badRow c pos r
      else s
    | none => s
  | none => s

/-- R198: segment n of a hub row is malformed; the reason of the lowest such segment stands. -/
def Hub.fail (n reason : Nat) (h : Hub) : Hub :=
  { h with bad := match h.bad with
      | some (m, r) => if m ≤ n then some (m, r) else some (n, reason)
      | none => some (n, reason) }

/-- Segment n runs no more, and its row is malformed. -/
def State.segFail (s : State) (home : Nat) (c : CmdRef) (pos n reason : Nat) : State :=
  (s.modHub home c pos (fun h => { h.fail n reason with running := h.running.filter (· != n) })).hubSettle home c pos

/-- R25, R199: the segments that run on clusters which are lost, for home clusters that are not: their reads end with GONE. -/
def State.segsLost (s : State) (lost : Nat → Bool) : State :=
  (s.clusters.filter (fun e => lost e.1)).foldl (fun s e =>
    match e.2.work with
    | some k => (match k.part with | .seg home n .. => if lost home then s else s.segFail home k.c k.pos n 5 | _ => s)
    | none => s) s

/-- A command's work is dropped on every die of its package. -/
def State.dropCmd (s : State) (c : CmdRef) : State :=
  let s := match s.rcmd? c with
    | some k => (match k.work with
      | .sigWait .. => s.leaveWait (s.cmdDie c k) (.cmd c) k.signal k.cls k.deadline
      | _ => s)
    | none => s
  let s := (List.range 8).foldl (fun s i => s.dropCmdDie c (c.p * 8 + i)) s
  let s := s.modPkg c.p (fun k => { k with shCmds := k.shCmds.filter (fun e => e.c != c) })
  { s with clusters := tmap s.clusters (fun _ k => dropHub (fun e => e == c) k) }

/-- R149, R491: the result word of a command that fails; `ending` threads of it end in error. -/
def failResult (k : RCmd) (ending : Nat) : Word :=
  match k.work with
  | .launch _ _ _ _ endErr refused => ringResult 2 1 (endErr + ending) refused
  | _ => errResult k.opcode

/-- A command's work ends in error: its work is dropped and it completes as ERROR (R149, R546, R557); `ending` threads of a launch end with it. -/
def State.failCmdN (s : State) (c : CmdRef) (ending : Nat) : State :=
  match s.rcmd? c with
  | none => s
  | some k => if k.started && k.result.isNone then (s.dropCmd c).finishCmd c 2 (failResult k ending) else s

def State.failCmd (s : State) (c : CmdRef) : State := s.failCmdN c 0

/-- The commands that a VI's rings hold, by ring and index. -/
def State.viCmds (s : State) (p v : Nat) : List CmdRef :=
  ((s.vi p v).rings.map (fun g => g.2.held.map (fun k => (⟨BitVec.ofNat 8 p, BitVec.ofNat 5 v, BitVec.ofNat 4 g.1, k.idx⟩ : CmdRef)))).flatten

/-- R593: threads of a command among those that end, contexts and queued tickets, each counted once. -/
def State.endingOf (s : State) (c : CmdRef) (ths : List (Nat × Thread)) (qs : List QTicket) : Nat :=
  let again : Journey → Bool := fun a => s.holdsTravel a && ths.any (fun e => e.1 == a.1.toNat)
  (ths.filter (fun e => e.2.launch == some c && !e.2.origin.any again)).length +
  (qs.filter (fun q => q.launch == some c && !again (q.env.origin, q.oepoch, q.env.travelNo))).length

/-- R149 step 4: every started command of the VI on this package completes in error, and its threads here end in error, those of accepted
tickets too. -/
def State.failVi (s : State) (p v : Nat) : State :=
  let mine := s.threads.filter (fun e => thDie e.1 / 8 == p && e.2.st != .free && e.2.vi == v && e.2.tenant == (s.vi p v).tenant)
  let qs := ((List.range 8).map (fun i => (s.die (p * 8 + i)).arrivals.filter (fun q => q.vi == v))).flatten
  let s := (s.viCmds p v).foldl (fun s c => s.failCmdN c (s.endingOf c mine qs)) s
  let s := mine.foldl (fun s e => s.endThread e.1 true) s
  (List.range 8).foldl (fun s i => s.endTickets (p * 8 + i) v) s

end Sys2Proof.Machine
end

