-- ==== Sys2Proof/Machine/Operands.lean ====
section
/-! DEFINITION. Operands of thread instructions: registers and windows (R63 to R66, R93, R94), register blocks (R109), sizes and
immediates (R92, R108), special registers (R120); which thread issues next (R33, R34, R49, R59, R60, R62, R140, R441, R592), and the exceptions of a
thread (R72, R75, R123 to R125). -/
set_option Elab.async false
namespace Sys2Proof.Machine

/-! ### Registers and windows -/

/-- A thread's depth (R70): resident frames, records in the Roundhouse and records moved out. -/
def frames (t : Thread) : Nat := t.stack.length + 1
def depth (t : Thread) : Nat := frames t + t.rhUsed + t.rhExt

/-- R63, R94: q0 to q7 name a caller's registers: not in the bottom frame and not in the trap window. -/
def qLive (t : Thread) : Bool := t.st != .trap && decide (1 < depth t)

/-- R93: a field names a register. -/
def regOk (f : BitVec 6) : Bool := decide (f.toNat < 40)

/-- R93, R94: the value of register n. -/
def regGet (t : Thread) (n : Nat) : Word :=
  if n < 16 then t.t.getD n 0
  else if n < 24 then t.l.getD (n - 16) 0
  else if n < 32 then t.p.getD (n - 24) 0
  else if n < 40 then (if qLive t then t.q.getD (n - 32) 0 else 0)
  else 0

/-- R93, R94: register n written. -/
def regSet (t : Thread) (n : Nat) (v : Word) : Thread :=
  if n < 16 then { t with t := t.t.set n v }
  else if n < 24 then { t with l := t.l.set (n - 16) v }
  else if n < 32 then { t with p := t.p.set (n - 24) v }
  else if n < 40 then (if qLive t then { t with q := t.q.set (n - 32) v } else t)
  else t

def rget (t : Thread) (f : BitVec 6) : Word := regGet t f.toNat
def rset (t : Thread) (f : BitVec 6) (v : Word) : Thread := regSet t f.toNat v

/-- R109: a block of 8 registers starts at t0, t8, l0, p0 or q0. -/
def blockOk (f : BitVec 6) : Bool := [0, 8, 16, 24, 32].contains f.toNat

/-- The eight values of a block. -/
def blockGet (t : Thread) (f : BitVec 6) : List Word := (List.range 8).map (fun i => regGet t (f.toNat + i))

/-! ### Immediates and sizes -/

/-- R92: a signed 32-bit immediate. -/
def sextImm (imm : BitVec 32) : Word := imm.signExtend 64

/-- R108, R109: SIZE as bytes. -/
def sizeBytes (z : Nat) : Nat := 2 ^ (z % 4)

/-- R108: the value of loaded bytes, extended to 64 bits. -/
def extendLoad (b : List Byte) (sx : Bool) : Word :=
  if sx then BitVec.ofInt 64 (signed (leNat b) (8 * b.length)) else BitVec.ofNat 64 (leNat b)

/-- The low n bytes of a register. -/
def lowBytes (w : Word) (n : Nat) : List Byte := leBytes n w.toNat

/-- R119, R123: bits 63:48 of a data address are clear. -/
def vaOk (a : Word) : Bool := decide (a.toNat < 2 ^ 48)

/-! ### Special registers (R120) -/

/-- R120: the value of a special register, if its number is listed. -/
def specialGet (s : State) (th : Nat) (t : Thread) (n : Nat) : Option Word :=
  match n with
  | 0 => some (t.trapEpc.zeroExtend 64)
  | 1 => some (t.trapCause.zeroExtend 64)
  | 2 => some t.trapAddr
  | 3 => some (t.trapPc.zeroExtend 64)
  | 4 => some (t.cond.zeroExtend 64)
  | 5 => some (BitVec.ofNat 64 t.cls)
  | 6 => some (BitVec.ofNat 64 t.deadline)
  | 7 => some (BitVec.ofNat 64 th)
  | 8 => some (BitVec.ofNat 64 t.tenant)
  | 9 => some (BitVec.ofNat 64 (s.now (thDie th)))
  | 10 => some (BitVec.ofNat 64 t.rhUsed)
  | 11 => some (BitVec.ofNat 64 t.rhExt)
  | 12 => some (BitVec.ofNat 64 (frames t))
  | 13 => some ((s.die (thDie th)).epoch.zeroExtend 64)
  | _ => none

/-! ### Issue -/

/-- R441: no Freight work while Freight is gated. -/
def State.gated (s : State) (d cls : Nat) : Bool := (s.pkg (diePkg d)).freightGated && cls == 2

/-- Token units (R50): one token is 32768. -/
def tokenUnit : Nat := 32768

/-- R49, R51: a consumer of a die holds a token and owes none for work in progress, or the die has no rate limit. -/
def hasToken (x : Die) (consumer : Nat) : Bool :=
  x.limit.isNone || (decide (tokenUnit ≤ tget x.banks consumer 0) && tget x.debt consumer 0 == 0)

def spendToken (x : Die) (consumer : Nat) : Die :=
  if x.limit.isNone then x else { x with banks := tset x.banks consumer (tget x.banks consumer 0 - tokenUnit) }

/-- R49: n beats of work take their tokens: those the bank holds now, the rest are owed (log 33). -/
def spendTokens (x : Die) (consumer n : Nat) : Die :=
  if x.limit.isNone then x
  else
    let owed := tget x.debt consumer 0 + n
    let paid := min owed (tget x.banks consumer 0 / tokenUnit)
    { x with banks := tset x.banks consumer (tget x.banks consumer 0 - paid * tokenUnit),
             debt := if owed = paid then terase x.debt consumer else tset x.debt consumer (owed - paid) }

/-- R91, R592: the word at the PC, if its sector is in the fetch buffer. -/
def fetchWord (t : Thread) : Option (BitVec 64) :=
  let pc := t.pc.toNat
  (t.fetch.find? (fun f => f.va == pc / 32 * 32)).map (fun f => BitVec.ofNat 64 (leNat ((f.bytes.drop (pc % 32)).take 8)))

/-- R62, R441: the thread runs and waits on nothing, and its die and cluster are in service. -/
def State.runs (s : State) (th : Nat) : Bool :=
  let t := s.thread th
  let d := thDie th
  (t.st == .running || t.st == .trap) && t.wait == .none && s.dieUp d && s.unitRuns d (clNo (thCluster th)) && !s.gated d t.cls

/-- R592: the thread is ready: its word is in the fetch buffer (a PC that is no multiple of 8 fetches none: R124). -/
def State.ready (s : State) (th : Nat) : Bool :=
  s.runs th && ((s.thread th).pc.toNat % 8 != 0 || (fetchWord (s.thread th)).isSome)

/-- The ready threads of a thread processor. -/
def State.tpReqs (s : State) (c tp : Nat) : List Req :=
  (List.range 32).filterMap (fun slot =>
    let th := c * 128 + tp * 32 + slot
    if s.ready th then some { key := slot, cls := (s.thread th).cls, deadline := (s.thread th).deadline, age := tget (s.cluster c).ages (tp * 32 + slot) 0 }
    else none)

/-- R60: the slot that a thread processor issues from next: class, deadline, round robin after the last slot, with the floor of R33. -/
def State.tpPick (s : State) (c tp : Nat) : Option (Req × Nat) :=
  grantOf 32 (tget (s.cluster c).lastSlot tp 31) (tget (s.cluster c).tpStreak tp 0) (s.tpReqs c tp)

/-- R140: the port of the Depot cache that an instruction word uses: none (0), A (1) or B (2). -/
def wordPort (w : BitVec 64) : Nat :=
  let op := wOp w
  if op = 0x20 ∨ op = 0x21 ∨ op = 0x28 ∨ op = 0x59 ∨ op = 0x5A then 1 else if op = 0x22 ∨ op = 0x23 then 2 else 0

def threadPort (t : Thread) : Nat := if t.pc.toNat % 8 != 0 then 0 else ((fetchWord t).map wordPort).getD 0

/-- R592: the thread waits for the sector that it issues from. -/
def State.fetches (s : State) (th : Nat) : Bool := s.runs th && !s.ready th

/-- R182: a queue is open to a class. -/
def pqOpen (c : Cluster) (q cls : Nat) : Bool :=
  let l := tget c.pq q []
  decide (0 < tget c.pqFree q 16) &&
  (if cls = 0 then true
   else if cls = 1 then decide ((l.filter (fun e => decide (1 ≤ e.cls))).length < 14)
   else decide ((l.filter (fun e => e.cls == 2)).length < 10) && decide ((l.filter (fun e => decide (1 ≤ e.cls))).length < 14))

/-- R183, R184: the waiting fetch that a lane offers next: of those that the queue is open to and that no earlier fetch of their issuer
precedes, by class, deadline and age, with the floor of R33. -/
def pqPick (c : Cluster) (q : Nat) : Option (PqEntry × Nat) :=
  let firsts := c.pqWait.zipIdx.filter (fun (e, i) => e.1 == q && pqOpen c q e.2.cls && !((c.pqWait.take i).any (fun f => f.2.issuer == e.2.issuer)))
  (arbitrate (fun e => e.1.2.cls) (fun a b => workLt (a.1.2.cls, a.1.2.deadline, a.2) (b.1.2.cls, b.1.2.deadline, b.2)) (fun a b => decide (a.2 < b.2))
    (tget c.laneStreak q 0) firsts).map (fun r => (r.1.1.2, r.2))

/-- R140: what asks for a port: the instructions that the thread processors issue next; on port A the fetches that threads wait for, on port B
the fetches that the gather lanes offer. -/
def State.portReqs (s : State) (c port : Nat) : List Req :=
  let x := s.cluster c
  let issue := (List.range 4).filterMap (fun tp =>
    match s.tpPick c tp with
    | some (r, _) =>
      let i := tp * 32 + r.key
      if threadPort (s.thread (c * 128 + i)) = port ∧ hasToken (s.die (clDie c)) (thTp (c * 128 + i)) then some { r with key := i } else none
    | none => none)
  if port = 1 then
    issue ++ (List.range 128).filterMap (fun i =>
      if s.fetches (c * 128 + i) then
        some { key := 128 + i, cls := (s.thread (c * 128 + i)).cls, deadline := (s.thread (c * 128 + i)).deadline, age := tget x.ages i 0 }
      else none)
  else issue ++ (List.range 16).filterMap (fun q => (pqPick x q).map (fun e => { key := 128 + q, cls := e.1.cls, deadline := e.1.deadline }))

/-- R140, R33, R34: the grant of a port, among what asks for it and more. -/
def State.portGrant (s : State) (c port : Nat) (more : List Req) : Option (Req × Nat) :=
  grantOf 256 (tget (s.cluster c).portLast port 255) (tget (s.cluster c).portStreak port 0) (s.portReqs c port ++ more)

def State.portPick (s : State) (c port : Nat) : Option (Req × Nat) := s.portGrant c port []

/-- A port is granted to a requester (or is not asked: port 0). -/
def State.portFree (s : State) (c port key : Nat) : Bool := port == 0 || (s.portPick c port).map (·.1.key) == some key

/-- The grant of a port is noted. -/
def State.portNote (s : State) (c port key n : Nat) : State :=
  s.modCluster c (fun x => { x with portLast := tset x.portLast port key, portStreak := tset x.portStreak port n })

def State.portUse (s : State) (c port key : Nat) : State :=
  if port = 0 then s else s.portNote c port key (((s.portPick c port).map (·.2)).getD 0)

/-- R49, R59, R60, R140: the thread issues now: it is its thread processor's pick, a token is held, and the port its instruction uses is
granted to it. -/
def canIssue (s : State) (th : Nat) : Bool :=
  s.ready th && hasToken (s.die (thDie th)) (thTp th) && (s.tpPick (thCluster th) (th / 32 % 4)).map (·.1.key) == some (th % 32) &&
  s.portFree (thCluster th) (threadPort (s.thread th)) (th % 128)

/-- One issue: the token is spent, and the grants of the thread processor and of the port are noted (R49, R60, R140). -/
def issued (s : State) (th : Nat) : State :=
  let c := thCluster th
  let tp := th / 32 % 4
  let n := ((s.tpPick c tp).map (·.2)).getD 0
  let s := s.portUse c (threadPort (s.thread th)) (th % 128)
  let s := s.modDie (thDie th) (fun x => spendToken x (thTp th))
  let s := s.charge (thDie th) (s.thread th).tenant actTp 1
  s.modCluster c (fun x => { x with lastSlot := tset x.lastSlot tp (th % 32), tpStreak := tset x.tpStreak tp n,
                                    issues := x.issues + 1, ages := tset x.ages (th % 128) (x.issues + 1) })

/-! ### Exceptions -/

/-- R72, R123: causes. -/
abbrev cRhFull := 0x01
abbrev cRhEmpty := 0x02
abbrev cIllegal := 0x03
abbrev cPrivileged := 0x04
abbrev cNotInTrap := 0x05
abbrev cFetchAlign := 0x06
abbrev cFetchFault := 0x07
abbrev cAddrRange := 0x08
abbrev cMisaligned := 0x09
abbrev cUnmapped := 0x0A
abbrev cRights := 0x0B
abbrev cAtomicSpace := 0x0C
abbrev cAccessError := 0x0D
abbrev cSigHandle := 0x0E
abbrev cRhCount := 0x0F
abbrev cBreak := 0x10
abbrev cNoHandler := 0x11

/-- R72: trap entry. -/
def enterTrap (t : Thread) (cause : Nat) (addr : Word) : Thread :=
  { t with trapEpc := t.pc, trapCause := BitVec.ofNat 8 cause, trapAddr := addr, st := .trap,
           saved := some ⟨t.l, t.p, t.q⟩, l := zeros8, p := zeros8, q := zeros8, pc := t.trapPc, wait := .none }

/-- R72, R75, R125: an exception of a thread: the trap window; or double-fault halt, in state TRAP or with TRAP_PC 0. -/
def State.raise (s : State) (th cause : Nat) (addr : Word) : State :=
  let t := s.thread th
  if t.st == .trap then
    (s.setThread th { t with st := .halted, wait := .none }).threadFault th 1 t.pc.toNat t.trapCause.toNat cause t.trapEpc.toNat addr
  else if t.trapPc = 0 then
    (s.setThread th { t with st := .halted, wait := .none }).threadFault th 1 t.pc.toNat cause cNoHandler t.pc.toNat addr
  else s.setThread th (enterTrap t cause addr)

/-- R91: the next instruction in sequence. -/
def nextPc (t : Thread) : Thread := { t with pc := t.pc + 8 }

/-- One instruction of a thread: nothing while it cannot issue (log 1); FETCH_ALIGN (R124 step 1) before anything else; nothing where the word
at the PC is not the instruction's (log 6); otherwise its own effect, on the state in which its token is spent. -/
def performIf (word : BitVec 64 → Bool) (th : BitVec 23) (s : State) (f : Nat → Thread → State → State) : Out :=
  let n := th.toNat
  let t := s.thread n
  if canIssue s n then
    if t.pc.toNat % 8 = 0 then
      (if (fetchWord t).any word then .next (f n t (issued s n)) else .next s)
    else .next ((issued s n).raise n cFetchAlign (t.pc.zeroExtend 64))
  else .next s

/-- An instruction that the word at the PC spells (R92). -/
def perform (i : Instr) (th : BitVec 23) (s : State) (f : Nat → Thread → State → State) : Out :=
  performIf (fun w => spells th w i) th s f

/-- An instruction that may raise one exception (cause and address), else changes only its own thread. -/
def performReg (i : Instr) (th : BitVec 23) (s : State) (bad : Thread → Option (Nat × Word)) (f : Thread → Thread) : Out :=
  perform i th s (fun n t s =>
    match bad t with
    | some (c, a) => s.raise n c a
    | none => s.setThread n (nextPc (f t)))

/-- ILLEGAL (R93, R95) unless a test holds. -/
def illegalUnless (b : Bool) : Option (Nat × Word) := if b then none else some (cIllegal, 0)

end Sys2Proof.Machine
end

