-- ==== Sys2Proof/Machine/Flags.lean ====
section
/-! DEFINITION. Condition flags (R98 to R101): the COND byte's bits, what integer, compare and floating-point instructions write
there, and the tests that condition codes name. -/
set_option Elab.async false
namespace Sys2Proof.Machine

/-- R98: flags of the COND byte. -/
def fZ (c : BitVec 8) : Bool := c.getLsbD 0
def fN (c : BitVec 8) : Bool := c.getLsbD 1
def fC (c : BitVec 8) : Bool := c.getLsbD 2
def fV (c : BitVec 8) : Bool := c.getLsbD 3
def fNv (c : BitVec 8) : Bool := c.getLsbD 7

/-- COND with Z, N, C and V written and the sticky flags kept. -/
def setZncv (cond : BitVec 8) (z n c v : Bool) : BitVec 8 :=
  (cond &&& 0xF0#8) ||| BitVec.ofNat 8 (b2n z + 2 * b2n n + 4 * b2n c + 8 * b2n v)

/-- R98: exception conditions of IEEE 754 as the four sticky flags, NX at bit 0 to NV at bit 3. -/
abbrev FpFlags := BitVec 4

def fpNX : FpFlags := 1
def fpUF : FpFlags := 2
def fpOF : FpFlags := 4
def fpNV : FpFlags := 8

/-- R100: sticky flags ORed in. -/
def orSticky (cond : BitVec 8) (f : FpFlags) : BitVec 8 := cond ||| (f.zeroExtend 8 <<< 4)

/-- R99: Z and N from a result. -/
def zOf (r : Word) : Bool := r == 0
def nOf (r : Word) : Bool := r.getLsbD 63

/-- R99: C and V of ADD. -/
def addC (a b : Word) : Bool := decide (2 ^ 64 ≤ a.toNat + b.toNat)
def addV (a b : Word) : Bool := (a.getLsbD 63 == b.getLsbD 63) && ((a + b).getLsbD 63 != a.getLsbD 63)

/-- R99: C and V of SUB and CMP. -/
def subC (a b : Word) : Bool := decide (a.toNat < b.toNat)
def subV (a b : Word) : Bool := (a.getLsbD 63 != b.getLsbD 63) && ((a - b).getLsbD 63 != a.getLsbD 63)

/-- R99: the flags of ADD, of SUB and CMP, and of every other integer instruction. -/
def flagsAdd (cond : BitVec 8) (a b : Word) : BitVec 8 := setZncv cond (zOf (a + b)) (nOf (a + b)) (addC a b) (addV a b)
def flagsSub (cond : BitVec 8) (a b : Word) : BitVec 8 := setZncv cond (zOf (a - b)) (nOf (a - b)) (subC a b) (subV a b)
def flagsLogic (cond : BitVec 8) (r : Word) : BitVec 8 := setZncv cond (zOf r) (nOf r) false false

/-- R101: the flag test of a condition code, if the code is assigned. -/
def flagTest (cc : Nat) (c : BitVec 8) : Option Bool :=
  match cc with
  | 0 => some (fZ c)
  | 1 => some (!fZ c)
  | 2 => some (fN c != fV c)
  | 3 => some (fN c == fV c)
  | 4 => some (fC c)
  | 5 => some (!fC c)
  | 6 => some (fN c)
  | 7 => some (fV c)
  | 8 => some true
  | 9 => some (fNv c)
  | _ => none

/-- R101: the register test of a condition code on two values of w bits, if the code is assigned. -/
def regTest (cc w a b : Nat) : Option Bool :=
  match cc with
  | 0 => some (a == b)
  | 1 => some (a != b)
  | 2 => some (decide (signed a w < signed b w))
  | 3 => some (decide (signed b w ≤ signed a w))
  | 4 => some (decide (a < b))
  | 5 => some (decide (b ≤ a))
  | _ => none

end Sys2Proof.Machine
end

