-- ==== Sys2Proof/Machine/Num.lean ====
section
/-! DEFINITION. Numbers (07_arithmetic): exact values, the storage formats and their decoding (R202, R203, R206, R207), encoding and
rounding (R209 to R214), stochastic rounding (R218, R219), MX scales (R215 to R217), F32 arithmetic (R104, R105, R166) and the
accumulators A32F and A40I (R221 to R227). -/
set_option Elab.async false
namespace Sys2Proof.Machine

/-- A decoded value: (−1)^neg × m × 2^e exactly, an infinity, or a NaN (signaling or quiet). -/
inductive Val where
  | fin (neg : Bool) (m : Nat) (e : Int)
  | inf (neg : Bool)
  | nan (signaling : Bool)
  deriving DecidableEq, Repr

def Val.zero : Val := .fin false 0 0

def Val.isNan : Val → Bool
  | .nan _ => true
  | _ => false

def Val.isSnan : Val → Bool
  | .nan b => b
  | _ => false

def Val.isInf : Val → Bool
  | .inf _ => true
  | _ => false

def Val.isZero : Val → Bool
  | .fin _ m _ => m == 0
  | _ => false

def Val.neg : Val → Val
  | .fin n m e => .fin (!n) m e
  | .inf n => .inf (!n)
  | .nan s => .nan s

def Val.abs : Val → Val
  | .fin _ m e => .fin false m e
  | .inf _ => .inf false
  | .nan s => .nan s

def Val.sign : Val → Bool
  | .fin n _ _ => n
  | .inf n => n
  | .nan _ => false

def Val.ofInt (i : Int) : Val := .fin (decide (i < 0)) i.natAbs 0

/-! ### Storage formats (R202) -/

/-- A floating format: exponent and fraction bits, bias, largest finite magnitude code, infinity and NaN codes. -/
structure FFmt where
  eb : Nat
  mb : Nat
  bias : Int
  maxCode : Nat
  inf : Option Nat
  nan : Option Nat
  deriving DecidableEq, Repr

def fmtF32 : FFmt := ⟨8, 23, 127, 0x7F7FFFFF, some 0x7F800000, some 0x7FC00000⟩
def fmtF16 : FFmt := ⟨5, 10, 15, 0x7BFF, some 0x7C00, some 0x7E00⟩
def fmtBF16 : FFmt := ⟨8, 7, 127, 0x7F7F, some 0x7F80, some 0x7FC0⟩
def fmtE4M3 : FFmt := ⟨4, 3, 7, 0x7E, none, some 0x7F⟩
def fmtE5M2 : FFmt := ⟨5, 2, 15, 0x7B, some 0x7C, some 0x7E⟩
def fmtE3M2 : FFmt := ⟨3, 2, 3, 0x1F, none, none⟩
def fmtE2M1 : FFmt := ⟨2, 1, 1, 0x7, none, none⟩

/-- R106: the floating formats by code. -/
def fFmt (code : Nat) : Option FFmt :=
  match code with
  | 0 => some fmtF32
  | 1 => some fmtF16
  | 2 => some fmtBF16
  | 3 => some fmtE4M3
  | 4 => some fmtE5M2
  | 5 => some fmtE3M2
  | 6 => some fmtE2M1
  | _ => none

/-- R106: the integer formats' widths by code. -/
def iFmt (code : Nat) : Option Nat :=
  match code with
  | 8 => some 8
  | 9 => some 4
  | 10 => some 32
  | 11 => some 64
  | _ => none

/-- Bits of an element of a format. -/
def fmtBits (code : Nat) : Nat :=
  match code with
  | 0 => 32 | 1 => 16 | 2 => 16 | 3 => 8 | 4 => 8 | 5 => 6 | 6 => 4 | 7 => 8 | 8 => 8 | 9 => 4 | 10 => 32 | _ => 64

/-- R202: decoding of a floating format. A NaN is signaling when its top fraction bit is 0 (F32, F16, BF16, E5M2); E4M3's single NaN is
quiet (log 19). -/
def decodeF (f : FFmt) (code : Nat) : Val :=
  let w := f.eb + f.mb
  let neg := bit code w
  let mag := code % 2 ^ w
  if f.inf = some mag then .inf neg
  else if f.maxCode < mag then .nan (f.inf.isSome && !bit mag (f.mb - 1))
  else
    let e := mag / 2 ^ f.mb
    let m := mag % 2 ^ f.mb
    if e = 0 then .fin neg m (1 - f.bias - f.mb) else .fin neg (2 ^ f.mb + m) (e - f.bias - f.mb)

/-- R207: 2^(k/8 + 23) to the nearest integer, for k from 0 to 7. -/
def l8Sig : List Nat := [8388608, 9147842, 9975792, 10878679, 11863283, 12937002, 14107901, 15384775]

/-- R203, R207. -/
def decodeL8 (code : Nat) : Val :=
  let m := code % 128
  if code % 256 = 128 then .zero
  else .fin (bit code 7) (l8Sig.getD (m % 8) 0) ((m / 8 : Int) - 8 - 23)

/-- R206: decoding by format code. -/
def decodeFmt (fmt code : Nat) : Val :=
  match fFmt fmt with
  | some f => decodeF f code
  | none =>
    match iFmt fmt with
    | some w => Val.ofInt (signed code w)
    | none => decodeL8 code

/-- An F32 bit pattern's value. -/
def f32Val (b : BitVec 32) : Val := decodeF fmtF32 b.toNat

/-! ### Rounding (R209 to R213, R218) -/

/-- Rounding modes: 0 RNE, 1 RTZ, 2 SR. -/
abbrev RMode := Nat

/-- R209, R218: m × 2^e as a multiple of 2^q, and whether that is inexact; u is SR's draw. -/
def roundTo (m : Nat) (e q : Int) (mode : RMode) (u : Nat) : Nat × Bool :=
  if q ≤ e then (m * 2 ^ (e - q).toNat, false)
  else
    let sh := (q - e).toNat
    let lo := m / 2 ^ sh
    let rem := m % 2 ^ sh
    let up := match mode with
      | 0 => decide (2 ^ sh < 2 * rem) || (2 ^ sh == 2 * rem && lo % 2 == 1)
      | 1 => false
      | _ => decide (2 ^ 16 ≤ rem * 2 ^ 16 / 2 ^ sh + u)
    (if up then lo + 1 else lo, rem != 0)

/-- ⌊log2⌋ of m × 2^e, m above 0. -/
def log2Val (m : Nat) (e : Int) : Int := (Nat.log2 m : Int) + e

/-- R209 to R213: encoding into a floating format: code and flags. -/
def encodeF (f : FFmt) (mode : RMode) (flush : Bool) (u : Nat) (v : Val) : Nat × FpFlags :=
  let w := f.eb + f.mb
  match v with
  | .nan s =>
    match f.nan with
    | some c => (c, if s then fpNV else 0)
    | none => (0, fpNV)
  | .inf n =>
    match f.inf with
    | some c => (b2n n * 2 ^ w + c, 0)
    | none => (b2n n * 2 ^ w + f.maxCode, fpOF ||| fpNX)
  | .fin n m e =>
    if m = 0 then (b2n n * 2 ^ w, 0)
    else
      let qmin : Int := 1 - f.bias - f.mb
      let q := max (log2Val m e - f.mb) qmin
      let (k, inexact) := roundTo m e q mode u
      let mag := (q - qmin).toNat * 2 ^ f.mb + k
      if f.maxCode < mag then
        -- R210
        let c := if mode = 1 ∨ f.inf.isNone ∨ f = fmtE5M2 then f.maxCode else f.inf.getD f.maxCode
        (b2n n * 2 ^ w + c, fpOF ||| fpNX)
      else if mag < 2 ^ f.mb then
        -- R212: tiny
        if flush ∧ mag ≠ 0 then (b2n n * 2 ^ w, fpUF ||| fpNX)
        else (b2n n * 2 ^ w + mag, if inexact then fpUF ||| fpNX else 0)
      else (b2n n * 2 ^ w + mag, if inexact then fpNX else 0)

/-- R209 to R211: encoding into an integer format of w bits. -/
def encodeI (w : Nat) (mode : RMode) (u : Nat) (v : Val) : Nat × FpFlags :=
  match v with
  | .nan _ => (0, fpNV)
  | .inf n => (if n then 2 ^ (w - 1) else 2 ^ (w - 1) - 1, fpOF ||| fpNX)
  | .fin n m e =>
    let (k, inexact) := roundTo m e 0 mode u
    if n then
      (if 2 ^ (w - 1) < k then (2 ^ (w - 1), fpOF ||| fpNX) else ((2 ^ w - k) % 2 ^ w, if inexact then fpNX else 0))
    else if 2 ^ (w - 1) ≤ k then (2 ^ (w - 1) - 1, fpOF ||| fpNX)
    else (k, if inexact then fpNX else 0)

/-- R214: encoding into L8: ⌊t⌋ and ⌊t + 1/2⌋ for t = 8 log2 |x| + 64, by integer powers; exact for powers of two. -/
def encodeL8 (mode : RMode) (v : Val) : Nat × FpFlags :=
  match v with
  | .nan _ => (0x80, fpNV)
  | .inf n => (if n then 0xFF else 0x7F, fpOF ||| fpNX)
  | .fin n m e =>
    if m = 0 then (0x80, 0)
    else
      let t : Int := if mode = 1 then log2Val (m ^ 8) (8 * e) + 64 else (log2Val (m ^ 16) (16 * e) + 129) / 2
      if t > 127 then (if n then 0xFF else 0x7F, fpOF ||| fpNX)
      else if t < 0 ∨ (n ∧ t = 0) then (0x80, fpUF ||| fpNX)
      else (b2n n * 128 + t.toNat, if 2 ^ Nat.log2 m = m then 0 else fpNX)

/-- R209 to R214: encoding by format code. -/
def encodeFmt (fmt : Nat) (mode : RMode) (flush : Bool) (u : Nat) (v : Val) : Nat × FpFlags :=
  match fFmt fmt with
  | some f => encodeF f mode flush u v
  | none =>
    match iFmt fmt with
    | some w => encodeI w mode u v
    | none => encodeL8 mode v

/-! ### Stochastic rounding (R219) -/

def mixStep (z : BitVec 64) (sh : Nat) (k : BitVec 64) : BitVec 64 := (z ^^^ (z >>> sh)) * k

/-- R219: u of a seed and an ordinal n. -/
def srDraw (seed : Word) (n : Nat) : Nat :=
  let z := seed + (BitVec.ofNat 64 n + 1) * 0x9E3779B97F4A7C15#64
  let z := mixStep z 30 0xBF58476D1CE4E5B9#64
  let z := mixStep z 27 0x94D049BB133111EB#64
  let z := z ^^^ (z >>> 31)
  z.toNat % 65536

/-! ### Exact arithmetic -/

/-- The exact sum of two finite values; an exact zero sum takes the sign of IEEE addition under RNE (R223). -/
def addFin (n1 : Bool) (m1 : Nat) (e1 : Int) (n2 : Bool) (m2 : Nat) (e2 : Int) : Val :=
  let e := min e1 e2
  let a : Int := (if n1 then -1 else 1) * (m1 * 2 ^ (e1 - e).toNat : Nat)
  let b : Int := (if n2 then -1 else 1) * (m2 * 2 ^ (e2 - e).toNat : Nat)
  let s := a + b
  if s = 0 then .fin (n1 && n2) 0 0 else .fin (decide (s < 0)) s.natAbs e

/-- The exact sum of two values, and NV (R223). -/
def vAdd (a b : Val) : Val × FpFlags :=
  match a, b with
  | .nan x, .nan y => (.nan false, if x || y then fpNV else 0)
  | .nan x, _ => (.nan false, if x then fpNV else 0)
  | _, .nan y => (.nan false, if y then fpNV else 0)
  | .inf x, .inf y => if x = y then (.inf x, 0) else (.nan false, fpNV)
  | .inf x, _ => (.inf x, 0)
  | _, .inf y => (.inf y, 0)
  | .fin n1 m1 e1, .fin n2 m2 e2 => (addFin n1 m1 e1 n2 m2 e2, 0)

/-- The exact product of two values, and NV (R222, R223). -/
def vMul (a b : Val) : Val × FpFlags :=
  match a, b with
  | .nan x, .nan y => (.nan false, if x || y then fpNV else 0)
  | .nan x, _ => (.nan false, if x then fpNV else 0)
  | _, .nan y => (.nan false, if y then fpNV else 0)
  | .inf x, .inf y => (.inf (x != y), 0)
  | .inf x, .fin n m _ => if m = 0 then (.nan false, fpNV) else (.inf (x != n), 0)
  | .fin n m _, .inf y => if m = 0 then (.nan false, fpNV) else (.inf (n != y), 0)
  | .fin n1 m1 e1, .fin n2 m2 e2 => (.fin (n1 != n2) (m1 * m2) (e1 + e2), 0)

/-- a × b + c, exact: a fused term (R104, R222).  0 × infinity is an invalid operation (NV) and gives a NaN even where c is a quiet NaN, which IEEE 754
leaves to the implementation (DESIGN CHOICE, log 87). -/
def vFma (a b c : Val) : Val × FpFlags :=
  let (p, f) := vMul a b
  let (r, g) := vAdd p c
  (r, f ||| g)

/-- The integer square root, two bits a round from the top. -/
def isqrtGo (n : Nat) : Nat → Nat → Nat
  | 0, r => r
  | k + 1, r => let t := r + 2 ^ k; isqrtGo n k (if t * t ≤ n then t else r)

def isqrt (n : Nat) : Nat := isqrtGo n (Nat.log2 n / 2 + 1) 0

/-- The quotient of two values, to 80 bits and a sticky bit below (enough for every rounding), and NV. -/
def vDiv (a b : Val) : Val × FpFlags :=
  match a, b with
  | .nan x, .nan y => (.nan false, if x || y then fpNV else 0)
  | .nan x, _ => (.nan false, if x then fpNV else 0)
  | _, .nan y => (.nan false, if y then fpNV else 0)
  | .inf _, .inf _ => (.nan false, fpNV)
  | .inf x, .fin n _ _ => (.inf (x != n), 0)
  | .fin n _ _, .inf y => (.fin (n != y) 0 0, 0)
  | .fin n1 m1 e1, .fin n2 m2 e2 =>
    if m2 = 0 then (if m1 = 0 then (.nan false, fpNV) else (.inf (n1 != n2), 0))
    else if m1 = 0 then (.fin (n1 != n2) 0 0, 0)
    else
      let sh := 80 + Nat.log2 m2
      let q := m1 * 2 ^ sh / m2
      let st := if m1 * 2 ^ sh % m2 = 0 then 0 else 1
      (.fin (n1 != n2) (2 * q + st) (e1 - e2 - sh - 1), 0)

/-- The square root, to 80 bits and a sticky bit below, and NV. -/
def vSqrt (a : Val) : Val × FpFlags :=
  match a with
  | .nan x => (.nan false, if x then fpNV else 0)
  | .inf n => if n then (.nan false, fpNV) else (.inf false, 0)
  | .fin n m e =>
    if m = 0 then (.fin n 0 0, 0)
    else if n then (.nan false, fpNV)
    else
      let m' := if e % 2 = 0 then m * 2 ^ 160 else m * 2 ^ 161
      let e' : Int := if e % 2 = 0 then e - 160 else e - 161
      let r := isqrt m'
      (.fin false (2 * r + (if r * r = m' then 0 else 1)) (e' / 2 - 1), 0)

/-- a < b for values that are not NaN. -/
def vLt (a b : Val) : Bool :=
  match a, b with
  | .inf x, .inf y => x && !y
  | .inf x, _ => x
  | _, .inf y => !y
  | .fin n1 m1 e1, .fin n2 m2 e2 =>
    let e := min e1 e2
    let x : Int := (if n1 then -1 else 1) * (m1 * 2 ^ (e1 - e).toNat : Nat)
    let y : Int := (if n2 then -1 else 1) * (m2 * 2 ^ (e2 - e).toNat : Nat)
    decide (x < y)
  | _, _ => false

def vEq (a b : Val) : Bool := !a.isNan && !b.isNan && !vLt a b && !vLt b a

/-- R105: a total order on values that are not NaN with −0 below +0. -/
def vLtZ (a b : Val) : Bool := vLt a b || (vEq a b && a.sign && !b.sign)

/-! ### F32 -/

/-- Encoding to F32 bits, flags merged with those already met. -/
def toF32 (mode : RMode) (flush : Bool) (r : Val × FpFlags) : BitVec 32 × FpFlags :=
  let (c, f) := encodeF fmtF32 mode flush 0 r.1
  (BitVec.ofNat 32 c, r.2 ||| f)

def f32Nan : BitVec 32 := 0x7FC00000#32

/-- R105: FMIN (or FMAX) of two values, and NV of a signaling operand. -/
def vMinMax (isMax : Bool) (a b : Val) : Val × FpFlags :=
  let nv : FpFlags := if a.isSnan || b.isSnan then fpNV else 0
  match a.isNan, b.isNan with
  | true, true => (.nan false, nv)
  | true, false => (b, nv)
  | false, true => (a, nv)
  | false, false => (if vLtZ a b != isMax then a else b, nv)

/-! ### The accumulators -/

/-- R221, R223: acc + term, rounded once under RNE. -/
def a32Add (acc : BitVec 32) (term : Val) : BitVec 32 × FpFlags := toF32 0 false (vAdd (f32Val acc) term)

/-- R221, R222: acc + a × b, a fused term. -/
def a32Fma (acc : BitVec 32) (a b : Val) : BitVec 32 × FpFlags := toF32 0 false (vFma a b (f32Val acc))

/-- R221, R222: the first term of a sum: the product rounded once. -/
def a32First (a b : Val) : BitVec 32 × FpFlags := toF32 0 false (vMul a b)

/-- R224: the A40I working range. -/
def a40Max : Int := 2 ^ 39 - 1

/-- R225: saturating addition: value, and whether it overflowed. -/
def a40Add (acc t : Int) : Int × Bool :=
  let s := acc + t
  if s > a40Max then (a40Max, true) else if s < -a40Max then (-a40Max, true) else (s, false)

/-! ### MX blocks (R205, R215 to R217) -/

/-- R215: EMAX by element format code. -/
def emax (fmt : Nat) : Int :=
  match fmt with
  | 6 => 2 | 5 => 4 | 9 => 2 | 8 => 6 | 3 => 8 | 4 => 15 | _ => 0

/-- v × 2^k. -/
def vScale (v : Val) (k : Int) : Val :=
  match v with
  | .fin n m e => .fin n m (e + k)
  | v => v

/-- R205, R216: an element under a scale code. -/
def mxDecode (fmt code scale : Nat) : Val :=
  if scale = 255 then .nan false else vScale (decodeFmt fmt code) ((scale : Int) - 127)

/-- ⌊log2⌋ of the largest magnitude of finite values, none if all are zero. -/
def maxLog2 (l : List Val) : Option Int :=
  l.foldl (fun a v => match v with
    | .fin _ m e => if m = 0 then a else
      match a with
      | none => some (log2Val m e)
      | some k => some (max k (log2Val m e))
    | _ => a) none

/-- R215: the E8M0 scale of a block. -/
def mxScale (fmt : Nat) (l : List Val) : Nat :=
  if l.any (fun v => v.isNan || v.isInf) then 255
  else match maxLog2 l with
    | none => 127
    | some k => (max (-127) (min 127 (k - emax fmt)) + 127).toNat

/-- R215, R217: a block encoded: scale code, element codes and flags; `draw i` is element i's SR draw. -/
def mxEncode (fmt : Nat) (mode : RMode) (flush : Bool) (draw : Nat → Nat) (l : List Val) : Nat × List Nat × FpFlags :=
  let sc := mxScale fmt l
  if sc = 255 then
    (255, l.map (fun _ => 0),
      (if l.any (·.isNan) then fpNV else 0) ||| (if l.any (·.isInf) then fpOF else 0))
  else
    let es := l.zipIdx.map (fun (v, i) => encodeFmt fmt mode flush (draw i) (vScale v (127 - (sc : Int))))
    (sc, es.map (·.1), es.foldl (fun a e => a ||| e.2) 0)

end Sys2Proof.Machine
end

