-- ==== Sys2Proof/Machine/Depot.lean ====
section
/-! DEFINITION. The Depot cache of a cluster (R139 to R151, R155 to R158, R165, R169): lookup, the Siding, stores and streams, misses
and fills, write-backs, release and acquire, and what its arrays' errors do. -/
set_option Elab.async false
namespace Sys2Proof.Machine

/-! ### Lines -/

/-- R139: the set of a line: PA[14:7] XOR PA[22:15]. -/
def depotSet (line : Nat) : Nat := (line % 256) ^^^ (line / 256 % 256)

/-- The way that holds a line for a tenant (R139): its place set * 8 + way. -/
def findWay (c : Cluster) (tenant line : Nat) : Option Nat :=
  (List.range 8).map (fun w => depotSet line * 8 + w) |>.find? (fun k =>
    match tget? c.lines k with
    | some l => l.line == line && l.tenant == tenant
    | none => false)

def findSiding (c : Cluster) (tenant line : Nat) : Option Nat :=
  c.siding.findIdx? (fun l => l.line == line && l.tenant == tenant)

/-- R150: a line's place in its VI's dirty-line count, before and after a change. -/
def isDirty (l : Option Line) : Bool := match l with | some l => l.dirty != 0 | none => false

def bumpDirty (c : Cluster) (vi : Nat) (was now : Bool) : Cluster :=
  match was, now with
  | false, true => { c with dirtyCount := tset c.dirtyCount vi (tget c.dirtyCount vi 0 + 1) }
  | true, false => { c with dirtyCount := tset c.dirtyCount vi (tget c.dirtyCount vi 0 - 1) }
  | _, _ => c

/-- A way written; a line with no valid and no dirty sector is no line. -/
def putLine (c : Cluster) (k : Nat) (l : Line) : Cluster :=
  let c := bumpDirty c l.vi (isDirty (tget? c.lines k)) (l.dirty != 0)
  if l.valid = 0 ∧ l.dirty = 0 then { c with lines := terase c.lines k } else { c with lines := tset c.lines k l }

def dropLine (c : Cluster) (k : Nat) : Cluster :=
  match tget? c.lines k with
  | some l => { bumpDirty c l.vi (l.dirty != 0) false with lines := terase c.lines k }
  | none => c

/-- Whether byte i of a line can be read (R139, R141): its sector is valid, or the byte is written. -/
def byteOk (l : Line) (i : Nat) : Bool := l.valid.getLsbD (i / 32) || l.written.getLsbD i

def lineOk (l : Line) (off n : Nat) : Bool := (List.range n).all (fun i => byteOk l (off + i))

def lineBytes (l : Line) (off n : Nat) : List Byte := (List.range n).map (fun i => l.data.getD (off + i) 0)

def zeroLine : List Byte := List.replicate 128 0

/-- The byte mask of n bytes from an offset of a line, and the sectors it touches. -/
def byteMask (off n : Nat) : BitVec 128 := BitVec.ofNat 128 ((2 ^ n - 1) * 2 ^ off)
def sectorsOf (off n : Nat) : BitVec 4 :=
  BitVec.ofNat 4 ((List.range 4).foldl (fun a i => if off < 32 * (i + 1) ∧ 32 * i < off + n then a + 2 ^ i else a) 0)

/-- Bytes written into a line's data from an offset. -/
def overlay (data : List Byte) (off : Nat) (b : List Byte) : List Byte :=
  data.take off ++ b ++ data.drop (off + b.length)

/-- Bytes of one list where a mask selects them, of another elsewhere. -/
def blend (mask : BitVec 128) (sel other : List Byte) : List Byte :=
  (List.range 128).map (fun i => if mask.getLsbD i then sel.getD i 0 else other.getD i 0)

/-! ### Write-back -/

/-- R145: a write-back's packet: written bytes of dirty sectors, with the line's tenant. -/
def State.sendWb (s : State) (c line tenant vi cls : Nat) (mask : BitVec 128) (data : List Byte) : State :=
  if mask = 0 then s
  else s.send (clDie c) (.wb c line) tenant vi cls 0 (paDie (line * 128)) (.wr (BitVec.ofNat 52 (line * 128)) mask data true)

/-- R155 (log 14): bytes that leave the cache while a fetch of their line is out stay with its miss register. -/
def keepOverlay (c : Cluster) (l : Line) : Cluster :=
  { c with miss := c.miss.map (fun m =>
      if m.line == l.line && m.tenant == l.tenant then
        { m with ovMask := m.ovMask ||| l.written, ovData := blend l.written l.data m.ovData }
      else m) }

/-- R141, R145: what a line is after its write-back: clean, its never-fetched sectors invalid. -/
def cleaned (l : Line) : Line := { l with dirty := 0, written := 0 }

/-- R145: the way's dirty sectors are written back in a class. -/
def State.wbWay (s : State) (c k cls : Nat) : State :=
  match tget? (s.cluster c).lines k with
  | none => s
  | some l =>
    if l.dirty = 0 then s
    else
      let s := s.modCluster c (fun x => putLine (keepOverlay x l) k (cleaned l))
      s.sendWb c l.line l.tenant l.vi cls l.written l.data

/-- The same for a Siding line by its place; an emptied line stays until dropped. -/
def State.wbSiding (s : State) (c i cls : Nat) : State :=
  match (s.cluster c).siding[i]? with
  | none => s
  | some l =>
    if l.dirty = 0 then s
    else
      let s := s.modCluster c (fun x =>
        let x := bumpDirty (keepOverlay x l) l.vi true false
        { x with siding := x.siding.set i (cleaned l) })
      s.sendWb c l.line l.tenant l.vi cls l.written l.data

/-- R142: a line enters the Siding; when it is full its oldest leaves, written back at Freight if dirty (R145). -/
def State.sidingPut (s : State) (c : Nat) (l : Line) : State :=
  let x := s.cluster c
  let x := bumpDirty x l.vi false (l.dirty != 0)
  let all := x.siding ++ [l]
  if all.length ≤ 32 then s.setCluster c { x with siding := all }
  else
    match all with
    | [] => s
    | o :: rest =>
      let s := s.setCluster c (bumpDirty (keepOverlay { x with siding := rest } o) o.vi (o.dirty != 0) false)
      s.sendWb c o.line o.tenant o.vi 2 o.written o.data

/-- The way a line goes to in its set: an empty one, else a free choice (log 15), whose line goes to the Siding. -/
def State.victim (s : State) (c line : Nat) : Nat × State :=
  let x := s.cluster c
  let base := depotSet line * 8
  match (List.range 8).find? (fun w => !thas x.lines (base + w)) with
  | some w => (base + w, s)
  | none =>
    let k := base + (Config.victimWay s.free).val
    let s := { s with free := s.free + 1 }
    match tget? (s.cluster c).lines k with
    | some l => (k, (s.modCluster c (fun x => dropLine x k)).sidingPut c l)
    | none => (k, s)

/-- R142: a line found in the Siding is swapped with the victim of its set. -/
def State.fromSiding (s : State) (c tenant line : Nat) : State :=
  let x := s.cluster c
  match findWay x tenant line with
  | some _ => s
  | none =>
    match findSiding x tenant line with
    | none => s
    | some i =>
      match x.siding[i]? with
      | none => s
      | some l =>
        let s := s.setCluster c (bumpDirty { x with siding := x.siding.eraseIdx i } l.vi (l.dirty != 0) false)
        let (k, s) := s.victim c line
        s.modCluster c (fun x => putLine x k l)

/-- An access to a line: a sector access counted (R460), and a line of the Siding brought back (R142). -/
def State.touch (s : State) (c tenant line : Nat) : State := (s.charge (clDie c) tenant actDepot 1).fromSiding c tenant line

/-- R139: a lookup: the bytes, on a hit. -/
def State.lookup (s : State) (c tenant pa n : Nat) : Option (List Byte) :=
  let x := s.cluster c
  match findWay x tenant (pa / 128) with
  | none => none
  | some k =>
    match tget? x.lines k with
    | none => none
    | some l => if lineOk l (pa % 128) n then some (lineBytes l (pa % 128) n) else none

/-! ### Streams (R146) -/

/-- A stream's buffers are written out; a full line or the bytes collected. -/
def State.flushBufs (s : State) (c : Nat) (t : Tracker) (cls : Nat) : State :=
  t.bufs.foldl (fun s b => s.sendWb c b.line t.tenant t.vi cls b.mask b.data) s

/-- R146 step 5: a stream ends: its buffers are written out and the tracker becomes free. -/
def State.endStream (s : State) (c : Nat) (t : Tracker) : State :=
  let s := s.modCluster c (fun x => { x with trackers := x.trackers.filter (fun u => !(u.tp == t.tp && u.tenant == t.tenant)) })
  s.flushBufs c t t.cls

/-- R146 step 4: a load miss into a streamed region of the tenant ends that stream. -/
def State.streamLoad (s : State) (c tenant line : Nat) : State :=
  let hit := (s.cluster c).trackers.filter (fun t => t.stream && t.tenant == tenant && decide (t.firstLine ≤ line) && decide (line ≤ t.curLine))
  hit.foldl (fun s t => s.endStream c t) s

/-- R146: the trackers with one moved to the front. -/
def putTracker (ts : List Tracker) (t : Tracker) : List Tracker :=
  t :: ts.filter (fun u => !(u.tp == t.tp && u.tenant == t.tenant))

/-- R146: the tracker that a pair holds or takes: a free one, else the least recently used one not in stream mode. -/
def takeTracker (ts : List Tracker) (fresh : Tracker) : Option (List Tracker) :=
  if ts.length < 4 then some (fresh :: ts)
  else
    match (ts.reverse.find? (fun t => !t.stream)) with
    | some u => some (fresh :: ts.filter (fun t => !(t.tp == u.tp && t.tenant == u.tenant)))
    | none => none

/-- R146 steps 1 and 2: a pair's store counted: the bytes of each line being filled, lines that become fully written in sequence, stream mode
after 16. The streamed region begins at the first line of the run that was counted (log 77). -/
def countStore (t : Tracker) (pa n : Nat) : Tracker :=
  let line := pa / 128
  let mask := tget t.masks line 0 ||| byteMask (pa % 128) n
  let t := { t with curLine := line, next := pa + n }
  if mask = BitVec.allOnes 128 then
    let t := { t with masks := terase t.masks line }
    if t.lastFull == some line then t
    else
      let seq := decide (0 < line) && t.lastFull == some (line - 1)
      let k := if seq then t.count + 1 else 1
      { t with count := k, lastFull := some line, firstLine := if seq || t.stream then t.firstLine else line, stream := t.stream || decide (16 ≤ k) }
  else { t with masks := tset t.masks line mask }

/-- R146 step 2: a store in stream mode collects in the write-combining buffers: a third line writes out the older; a full buffer is
written out. A fetch of the line that is out keeps the bytes too (R155, log 14). -/
def State.combine (s : State) (c : Nat) (t : Tracker) (cls pa : Nat) (b : List Byte) : State :=
  let line := pa / 128
  let m := byteMask (pa % 128) b.length
  let upd : WcBuf → WcBuf := fun w => { w with mask := w.mask ||| m, data := overlay w.data (pa % 128) b }
  let (out, bufs) :=
    if t.bufs.any (fun w => w.line == line) then (([] : List WcBuf), t.bufs.map (fun w => if w.line == line then upd w else w))
    else
      let nw := upd { line := line, mask := 0, data := zeroLine }
      if t.bufs.length < 2 then ([], t.bufs ++ [nw]) else (t.bufs.take 1, t.bufs.drop 1 ++ [nw])
  let full := bufs.filter (fun w => w.mask == BitVec.allOnes 128)
  let t' := { t with bufs := bufs.filter (fun w => w.mask != BitVec.allOnes 128) }
  let mine : Line := { line := line, tenant := t.tenant, written := m, data := overlay zeroLine (pa % 128) b }
  let s := s.modCluster c (fun x => { keepOverlay x mine with trackers := putTracker x.trackers t' })
  (out ++ full).foldl (fun s w => s.sendWb c w.line t.tenant t.vi cls w.mask w.data) s

/-! ### Stores -/

/-- R141: a store into a line that is present, or into a line allocated without fetching. -/
def State.storeLine (s : State) (c tenant vi : Nat) (stable : Bool) (pa : Nat) (b : List Byte) : State :=
  let line := pa / 128
  let s := s.touch c tenant line
  let (k, s) := match findWay (s.cluster c) tenant line with
    | some k => (k, s)
    | none => s.victim c line
  let l := (tget? (s.cluster c).lines k).getD { line := line, tenant := tenant, data := zeroLine, stable := stable, vi := vi }
  let l := { l with data := overlay l.data (pa % 128) b, written := l.written ||| byteMask (pa % 128) b.length,
                    dirty := l.dirty ||| sectorsOf (pa % 128) b.length }
  s.modCluster c (fun x => putLine x k l)

/-- R146: a cached store of a thread processor: tracked, and collected or allocated. -/
def State.depotStore (s : State) (c tp tenant vi cls : Nat) (stable : Bool) (pa : Nat) (b : List Byte) : State :=
  let line := pa / 128
  let mine : Tracker → Bool := fun t => t.tp == tp && t.tenant == tenant
  -- step 4: a store far from the next expected address ends the pair's stream
  let s := match (s.cluster c).trackers.find? mine with
    | some t => if t.stream && (decide (t.next + 4096 < pa) || decide (pa + 4096 < t.next)) then s.endStream c t else s
    | none => s
  let x := s.cluster c
  let present := (findWay x tenant line).isSome || (findSiding x tenant line).isSome
  let ts := match x.trackers.find? mine with
    | some t => some (putTracker x.trackers (countStore { t with cls := cls } pa b.length))
    | none => takeTracker x.trackers (countStore { tp := tp, tenant := tenant, vi := vi, cls := cls, curLine := line, firstLine := line, next := pa } pa b.length)
  let streaming := match x.trackers.find? mine with | some t => t.stream | none => false
  let s := match ts with
    | some ts => s.setCluster c { x with trackers := ts }
    | none => s
  match (s.cluster c).trackers.find? mine with
  | some t => if streaming && !present then s.combine c t cls pa b else s.storeLine c tenant vi stable pa b
  | none => s.storeLine c tenant vi stable pa b

/-! ### Release, acquire, atomics (R157, R158, R165) -/

/-- The places of a tenant's lines in the ways. -/
def waysOf (x : Cluster) (tenant : Nat) : List Nat := (x.lines.filter (fun e => e.2.tenant == tenant)).map (·.1)

/-- R157, R158: every dirty sector of a tenant in the ways and the Siding is written back. -/
def State.wbTenant (s : State) (c tenant cls : Nat) : State :=
  let s := (waysOf (s.cluster c) tenant).foldl (fun s k => s.wbWay c k cls) s
  (List.range 32).foldl (fun s i =>
    match (s.cluster c).siding[i]? with
    | some l => if l.tenant = tenant then s.wbSiding c i cls else s
    | none => s) s

/-- R157: the flush of a release: the cache, the Siding and the stream buffers of the tenant. -/
def State.releaseFlush (s : State) (c tenant cls : Nat) : State :=
  let s := s.wbTenant c tenant cls
  let ts := (s.cluster c).trackers.filter (fun t => t.tenant == tenant && !t.bufs.isEmpty)
  let s := s.modCluster c (fun x => { x with trackers := x.trackers.map (fun t => if t.tenant == tenant then { t with bufs := [] } else t) })
  ts.foldl (fun s t => s.flushBufs c t cls) s

/-- R158: an acquire: write-back of the tenant's dirty sectors, then invalidation of its lines outside STABLE sections; its miss
registers outside STABLE sections accept no more misses and install no line. -/
def State.acquire (s : State) (c tenant cls : Nat) : State :=
  let s := s.wbTenant c tenant cls
  s.modCluster c (fun x =>
    let keep : Line → Bool := fun l => l.tenant != tenant || l.stable
    { x with lines := x.lines.filter (fun e => keep e.2), siding := x.siding.filter keep,
             miss := x.miss.map (fun m => if m.tenant == tenant && !m.stable then { m with install := false } else m) })

/-- R165: before an AMO: stream buffers of the tenant that hold the line are written out, then the line is written back and
invalidated; a fetch of it that is out takes no later miss (R155). -/
def State.amoFlush (s : State) (c tenant cls line : Nat) : State :=
  let ts := (s.cluster c).trackers.filter (fun t => t.tenant == tenant)
  let s := ts.foldl (fun s t =>
    let out := t.bufs.filter (fun b => b.line == line)
    let s := s.modCluster c (fun x => { x with trackers := x.trackers.map (fun u =>
      if u.tp == t.tp && u.tenant == t.tenant then { u with bufs := u.bufs.filter (fun b => b.line != line) } else u) })
    out.foldl (fun s b => s.sendWb c b.line tenant t.vi cls b.mask b.data) s) s
  let s := s.touch c tenant line
  let s := match findWay (s.cluster c) tenant line with
    | some k => (s.wbWay c k cls).modCluster c (fun x => dropLine x k)
    | none => s
  s.modCluster c (fun x => { x with miss := x.miss.map (fun m => if m.line == line && m.tenant == tenant then { m with install := false } else m) })

/-! ### Misses -/

/-- R143: a register may be taken by a class: Freight holds at most 64, Stopping and Freight together at most 88, all at most 96. -/
def missRoom (x : Cluster) (cls : Nat) : Bool :=
  decide (x.miss.length < 96) &&
  (cls == 0 || decide ((x.miss.filter (fun m => decide (1 ≤ m.cls))).length < 88)) &&
  (decide (cls < 2) || decide ((x.miss.filter (fun m => decide (2 ≤ m.cls))).length < 64))

/-- The sectors of a register's line that it asks for: the whole line on the cluster's own die (R144). -/
def fetchSectors (c line : Nat) (need : BitVec 4) : BitVec 4 := if paDie (line * 128) = clDie c then 15 else need

/-- An own write-back of the line is still unanswered (log 14). -/
def State.wbOut (s : State) (c line tenant : Nat) : Bool :=
  (s.die (clDie c)).outst.any (fun e => e.2.kind == .wb c line && e.2.tenant == tenant) ||
  (s.die (clDie c)).sendQ.any (fun e => e.1.kind == .wb c line && e.1.tenant == tenant)

/-- The register that a miss can merge with (R143, R158). -/
def missOf (x : Cluster) (a : Aside) : Option MissReg := x.miss.find? (fun m => m.line == a.line && m.tenant == a.tenant && m.install)

/-- R143: a miss can be served now: it merges with a register that has room (one primary and 16 secondary misses), or a register is within its
class limit; no own write-back of the line is out where it must be fetched. -/
def State.missable (s : State) (c : Nat) (a : Aside) : Bool :=
  match missOf (s.cluster c) a with
  | some m => decide (m.merges.length ≤ 16) && (a.need &&& ~~~m.asked == 0 || !s.wbOut c a.line a.tenant)
  | none => !s.wbOut c a.line a.tenant && missRoom (s.cluster c) a.cls

/-- R143, R144: a miss merges with its line's register, takes a new one, or cannot yet. -/
def State.tryMiss (s : State) (c : Nat) (a : Aside) : Option State :=
  if !s.missable c a then none
  else
    let x := s.cluster c
    let rd (s : State) (id : Nat) (sec : BitVec 4) : State :=
      s.send (clDie c) (.fill c id) a.tenant a.vi a.cls a.deadline (paDie (a.line * 128)) (.rd (BitVec.ofNat 52 (a.line * 128)) sec)
    match missOf x a with
    | some m =>
      let more := a.need &&& ~~~m.asked
      let s := s.setCluster c { x with miss := x.miss.map (fun e =>
        if e.id == m.id then { e with asked := e.asked ||| a.need, merges := e.merges ++ [(a.who, a.need)] } else e) }
      some (if more = 0 then s else rd s m.id more)
    | none =>
      let sec := fetchSectors c a.line a.need
      let id := x.nextMiss
      let m : MissReg := {
                           id := id, line := a.line, tenant := a.tenant, vi := a.vi, cls := a.cls, deadline := a.deadline, asked := sec,
                           merges := [(a.who, a.need)], stable := a.stable, data := zeroLine, ovData := zeroLine }
      some (rd (s.setCluster c { x with miss := x.miss ++ [m], nextMiss := id + 1, missFree := x.missFree - 1 }) id sec)

/-- R143: which request that waits aside is served next, of those that can be: class, deadline, age, with the floor of R33. -/
def State.asidePick (s : State) (c : Nat) (can : Aside → Bool) : Option (Aside × Nat) :=
  let l := ((s.cluster c).aside.zipIdx).filter (fun e => can e.1)
  (arbitrate (fun e => e.1.cls) (fun a b => workLt (a.1.cls, a.1.deadline, a.2) (b.1.cls, b.1.deadline, b.2)) (fun a b => decide (a.2 < b.2))
    (s.cluster c).asideStreak l).map (fun r => (r.1.1, r.2))

/-- R143: a register is free for a request that waits aside and goes before a new miss; a new miss that merges with a register passes. -/
def State.asideFirst (s : State) (c : Nat) (a : Aside) : Bool :=
  (missOf (s.cluster c) a).isNone &&
  (s.cluster c).aside.any (fun b => s.missable c b && (decide (b.cls < a.cls) || (b.cls == a.cls && decide (b.deadline ≤ a.deadline))))

/-- R143: a miss, or a wait aside. A load miss into a streamed region ends the stream first (R146). -/
def State.miss (s : State) (c : Nat) (a : Aside) : State :=
  let s := s.streamLoad c a.tenant a.line
  match (if s.asideFirst c a then none else s.tryMiss c a) with
  | some s => s
  | none => s.modCluster c (fun x => { x with aside := x.aside ++ [a] })

/-! ### Array errors (R147 to R151) -/

/-- The VI of a tenant on a cluster's package, or the one the line was filled for. -/
def State.lineVi (s : State) (c : Nat) (l : Line) : Nat := (s.viOf (clDie c / 8) l.tenant).getD l.vi

/-- R149: a dirty line lost: invalidated without write-back, recorded, and its VI's work failed. -/
def State.loseLine (s : State) (c : Nat) (l : Line) (set_ way : Nat) (siding : Bool) : State :=
  let v := s.lineVi c l
  let s := s.memFault (clDie c) {
    kind := 1, tenant := l.tenant, vi := v, cluster := clNo c, set_ := set_, way := if siding then 0 else way,
    dirty := l.dirty.toNat, pa := l.line * 128, detail := if siding then 2 ^ 23 else 0 }
  s.failVi (clDie c / 8) v

/-- R151: an owner array entry cannot be read: the cluster is fenced, what can be read is written back, and VIs fail.  The record of a Siding line has
WAY 0 and bit 23, as R151 says, and SET 0 (DESIGN CHOICE, log 100). -/
def State.fenceOwner (s : State) (c : Nat) (bad : List Nat) (countsLost : Bool) : State :=
  let d := clDie c
  let p := diePkg d
  let x := s.cluster c
  let first := bad.head?.getD 0
  let firstSiding := decide (2048 ≤ first)
  let firstPa := if firstSiding then ((x.siding[first - 2048]?).map (fun l => l.line * 128)).getD 0
    else ((tget? x.lines first).map (fun l => l.line * 128)).getD 0
  -- step 1: readable lines and the stream buffers are written out
  let good := x.lines.filter (fun e => !bad.contains e.1)
  let s := good.foldl (fun s e => (s.wbWay c e.1 2).modCluster c (fun x => dropLine x e.1)) s
  let s := (List.range 32).foldl (fun s i => if bad.contains (2048 + i) then s else s.wbSiding c i 2) s
  let s := (s.cluster c).trackers.foldl (fun s t => s.flushBufs c t t.cls) s
  -- step 2: the unreadable lines go without write-back; their VIs' counts stay above 0
  let s := s.modCluster c (fun x => { x with lines := [], siding := [], trackers := [], miss := x.miss.map (fun m => { m with install := false }) })
  let s := s.modDie d (fun y => { y with gate := y.gate &&& ~~~(BitVec.ofNat 64 (2 ^ clNo c)) })
  -- steps 3 to 5
  let vis := (List.range 32).filter (fun v => (s.vi p v).st == .bound)
  let threads := vis.filter (fun v => s.threads.any (fun e => thCluster e.1 == c && e.2.st != .free && e.2.vi == v))
  let lost := vis.filter (fun v => countsLost || decide (0 < tget (s.cluster c).dirtyCount v 0))
  let failed := vis.filter (fun v => threads.contains v || lost.contains v)
  failed.foldl (fun s v =>
    let s := s.failVi p v
    s.memFault d {
      kind := 2, tenant := (s.vi p v).tenant, vi := v, cluster := clNo c,
      set_ := if firstSiding then 0 else first / 8, way := if firstSiding then 0 else first % 8, pa := firstPa,
      detail := b2n (lost.contains v) + (if firstSiding then 2 ^ 23 else 0) }) s

/-- R147 to R151: what the cache's arrays report during an access to a line's sector. -/
def State.depotFinding (s : State) (c tenant pa : Nat) (f : DepotFinding) : State :=
  let line := pa / 128
  let sec := pa / 32 % 4
  match f with
  | .clean => s
  | .dataCE => s.count (clDie c) 0
  | .ownerUE bad counts => s.fenceOwner c bad counts
  | .dataUE =>
    let x := s.cluster c
    match findWay x tenant line with
    | some k =>
      match tget? x.lines k with
      | some l =>
        if l.dirty.getLsbD sec then (s.setCluster c (dropLine x k)).loseLine c l (k / 8) (k % 8) false
        else (s.setCluster c (putLine x k { l with valid := l.valid &&& ~~~(BitVec.ofNat 4 (2 ^ sec)) })).count (clDie c) 2
      | none => s
    | none =>
      match findSiding x tenant line with
      | some i =>
        match x.siding[i]? with
        | some l =>
          if l.dirty.getLsbD sec then
            (s.setCluster c (bumpDirty { x with siding := x.siding.eraseIdx i } l.vi true false)).loseLine c l (depotSet line) 0 true
          else (s.setCluster c { x with siding := x.siding.set i { l with valid := l.valid &&& ~~~(BitVec.ofNat 4 (2 ^ sec)) } }).count (clDie c) 2
        | none => s
      | none => s
  | .tagParity =>
    let x := s.cluster c
    match findWay x tenant line with
    | some k =>
      match tget? x.lines k with
      | some l =>
        let s := s.setCluster c (dropLine x k)
        if l.dirty = 0 then s.count (clDie c) 1 else s.loseLine c l (k / 8) (k % 8) false
      | none => s
    | none =>
      match findSiding x tenant line with
      | some i =>
        match x.siding[i]? with
        | some l =>
          let s := s.setCluster c (bumpDirty { x with siding := x.siding.eraseIdx i } l.vi (l.dirty != 0) false)
          if l.dirty = 0 then s.count (clDie c) 1 else s.loseLine c l (depotSet line) 0 true
        | none => s
      | none => s

/-! ### A tenant's lines removed -/

/-- R160, R138: the lines of a range are written back if dirty and invalidated, on one cluster; a fetch of one that is out installs no line. -/
def State.purgeRange (s : State) (c lo hi : Nat) : State :=
  let inR : Line → Bool := fun l => decide (lo ≤ l.line * 128) && decide (l.line * 128 < hi)
  let s := ((s.cluster c).lines.filter (fun e => inR e.2)).foldl (fun s e => (s.wbWay c e.1 2).modCluster c (fun x => dropLine x e.1)) s
  let s := (List.range 32).foldl (fun s i =>
    match (s.cluster c).siding[i]? with
    | some l => if inR l then s.wbSiding c i 2 else s
    | none => s) s
  s.modCluster c (fun x => { x with
    siding := x.siding.filter (fun l => !inR l),
    miss := x.miss.map (fun m => if decide (lo ≤ m.line * 128) && decide (m.line * 128 < hi) then { m with install := false } else m) })

/-- R172: every line of a tenant is invalidated without write-back, and its lookaside entries cleared; its stream trackers go with the bytes that
they hold, unwritten (log 78). -/
def purgeTenant (tenant vi : Nat) (x : Cluster) : Cluster :=
  { x with lines := x.lines.filter (fun e => e.2.tenant != tenant), siding := x.siding.filter (fun l => l.tenant != tenant),
           la := x.la.filter (fun e => e.tenant != tenant), dirtyCount := terase x.dirtyCount vi,
           trackers := x.trackers.filter (fun t => t.tenant != tenant) }

end Sys2Proof.Machine
end

