-- ==== Sys2Proof/Machine/ThreadInt.lean ====
section
/-! DEFINITION. Integer, packed and mask instructions (R99, R102, R103, R107). -/
set_option Elab.async false
namespace Sys2Proof.Machine

/-! ### Results -/

/-- R102: the operation of FN 0x00 to 0x0F of OP 0x01, also of ALUI's FN6. -/
def alu (fn : Nat) (a b : Word) : Word :=
  let sh := b.toNat % 64
  match fn with
  | 0 => a + b
  | 1 => a - b
  | 2 => a &&& b
  | 3 => a ||| b
  | 4 => a ^^^ b
  | 5 => a &&& ~~~b
  | 6 => a <<< sh
  | 7 => a >>> sh
  | 8 => a.sshiftRight sh
  | 9 => a.rotateRight sh
  | 10 => if a.slt b then a else b
  | 11 => if a.slt b then b else a
  | 12 => if a.ult b then a else b
  | 13 => if a.ult b then b else a
  | 14 => if a.slt b then 1 else 0
  | _ => if a.ult b then 1 else 0

/-- R99: the flags that go with it. -/
def aluFlags (fn : Nat) (cond : BitVec 8) (a b : Word) : BitVec 8 :=
  match fn with
  | 0 => flagsAdd cond a b
  | 1 => flagsSub cond a b
  | _ => flagsLogic cond (alu fn a b)

/-- R102: leading zeros; 64 for 0. -/
def clz64 (a : Word) : Nat := ((List.range 64).find? (fun i => a.getLsbD (63 - i))).getD 64
def ctz64 (a : Word) : Nat := ((List.range 64).find? (fun i => a.getLsbD i)).getD 64
def popCount (n : Nat) (a : Word) : Nat := ((List.range n).filter (fun i => a.getLsbD i)).length
def byteSwap (a : Word) : Word := BitVec.ofNat 64 (leNat (leBytes 8 a.toNat).reverse)

/-- R102: high 64 bits of the signed and unsigned products. -/
def mulHigh (a b : Word) : Word := BitVec.ofInt 64 (a.toInt * b.toInt / 2 ^ 64)
def mulHighU (a b : Word) : Word := BitVec.ofNat 64 (a.toNat * b.toNat / 2 ^ 64)

/-- R103: division by zero gives all ones, and the remainder ra; −2^63 by −1 gives −2^63, remainder 0. -/
def divS (a b : Word) : Word := if b = 0 then BitVec.allOnes 64 else BitVec.ofInt 64 (a.toInt.tdiv b.toInt)
def divU (a b : Word) : Word := if b = 0 then BitVec.allOnes 64 else a / b
def remS (a b : Word) : Word := if b = 0 then a else BitVec.ofInt 64 (a.toInt.tmod b.toInt)
def remU (a b : Word) : Word := if b = 0 then a else a % b

/-! ### Shapes of instruction -/

/-- A result written to rd; Z and N from it and C and V cleared when SF is set (R99). -/
def putResult (t : Thread) (rd : BitVec 6) (r : Word) (sf : Bool) : Thread :=
  rset (if sf then { t with cond := flagsLogic t.cond r } else t) rd r

/-- An ALU instruction of two registers (OP 0x01). -/
def execAlu (i : Instr) (fn : Nat) (th : BitVec 23) (rd ra rb : BitVec 6) (sf : Bool) (s : State) : Out :=
  performReg i th s (fun _ => illegalUnless (regOk rd && regOk ra && regOk rb)) (fun t =>
    let a := rget t ra
    let b := rget t rb
    rset (if sf then { t with cond := aluFlags fn t.cond a b } else t) rd (alu fn a b))

/-- One source register. -/
def execUnary (i : Instr) (th : BitVec 23) (rd ra : BitVec 6) (sf : Bool) (f : Word → Word) (s : State) : Out :=
  performReg i th s (fun _ => illegalUnless (regOk rd && regOk ra)) (fun t => putResult t rd (f (rget t ra)) sf)

/-- Two source registers, flags as every integer instruction but ADD and SUB. -/
def execBinary (i : Instr) (th : BitVec 23) (rd ra rb : BitVec 6) (sf : Bool) (f : Word → Word → Word) (s : State) : Out :=
  performReg i th s (fun _ => illegalUnless (regOk rd && regOk ra && regOk rb)) (fun t =>
    putResult t rd (f (rget t ra) (rget t rb)) sf)

/-! ### Integer instructions -/

/-- ADD (R99, R102). -/
def execAdd (th : BitVec 23) (rd ra rb : BitVec 6) (sf : Bool) (s : State) : Out := execAlu (.add th rd ra rb sf) 0 th rd ra rb sf s

/-- SUB (R99, R102). -/
def execSub (th : BitVec 23) (rd ra rb : BitVec 6) (sf : Bool) (s : State) : Out := execAlu (.sub th rd ra rb sf) 1 th rd ra rb sf s

/-- AND (R99, R102). -/
def execAnd (th : BitVec 23) (rd ra rb : BitVec 6) (sf : Bool) (s : State) : Out := execAlu (.and th rd ra rb sf) 2 th rd ra rb sf s

/-- OR (R99, R102). -/
def execOr (th : BitVec 23) (rd ra rb : BitVec 6) (sf : Bool) (s : State) : Out := execAlu (.or th rd ra rb sf) 3 th rd ra rb sf s

/-- XOR (R99, R102). -/
def execXor (th : BitVec 23) (rd ra rb : BitVec 6) (sf : Bool) (s : State) : Out := execAlu (.xor th rd ra rb sf) 4 th rd ra rb sf s

/-- ANDN (R99, R102). -/
def execAndn (th : BitVec 23) (rd ra rb : BitVec 6) (sf : Bool) (s : State) : Out := execAlu (.andn th rd ra rb sf) 5 th rd ra rb sf s

/-- SHL (R99, R102). -/
def execShl (th : BitVec 23) (rd ra rb : BitVec 6) (sf : Bool) (s : State) : Out := execAlu (.shl th rd ra rb sf) 6 th rd ra rb sf s

/-- SHR (R99, R102). -/
def execShr (th : BitVec 23) (rd ra rb : BitVec 6) (sf : Bool) (s : State) : Out := execAlu (.shr th rd ra rb sf) 7 th rd ra rb sf s

/-- SAR (R99, R102). -/
def execSar (th : BitVec 23) (rd ra rb : BitVec 6) (sf : Bool) (s : State) : Out := execAlu (.sar th rd ra rb sf) 8 th rd ra rb sf s

/-- ROR (R99, R102). -/
def execRor (th : BitVec 23) (rd ra rb : BitVec 6) (sf : Bool) (s : State) : Out := execAlu (.ror th rd ra rb sf) 9 th rd ra rb sf s

/-- MIN (R99, R102). -/
def execMin (th : BitVec 23) (rd ra rb : BitVec 6) (sf : Bool) (s : State) : Out := execAlu (.min th rd ra rb sf) 10 th rd ra rb sf s

/-- MAX (R99, R102). -/
def execMax (th : BitVec 23) (rd ra rb : BitVec 6) (sf : Bool) (s : State) : Out := execAlu (.max th rd ra rb sf) 11 th rd ra rb sf s

/-- MINU (R99, R102). -/
def execMinu (th : BitVec 23) (rd ra rb : BitVec 6) (sf : Bool) (s : State) : Out := execAlu (.minu th rd ra rb sf) 12 th rd ra rb sf s

/-- MAXU (R99, R102). -/
def execMaxu (th : BitVec 23) (rd ra rb : BitVec 6) (sf : Bool) (s : State) : Out := execAlu (.maxu th rd ra rb sf) 13 th rd ra rb sf s

/-- SLT (R99, R102). -/
def execSlt (th : BitVec 23) (rd ra rb : BitVec 6) (sf : Bool) (s : State) : Out := execAlu (.slt th rd ra rb sf) 14 th rd ra rb sf s

/-- SLTU (R99, R102). -/
def execSltu (th : BitVec 23) (rd ra rb : BitVec 6) (sf : Bool) (s : State) : Out := execAlu (.sltu th rd ra rb sf) 15 th rd ra rb sf s

/-- CLZ (R102). -/
def execClz (th : BitVec 23) (rd ra : BitVec 6) (sf : Bool) (s : State) : Out := execUnary (.clz th rd ra sf) th rd ra sf (fun a => BitVec.ofNat 64 (clz64 a)) s

/-- CTZ (R102). -/
def execCtz (th : BitVec 23) (rd ra : BitVec 6) (sf : Bool) (s : State) : Out := execUnary (.ctz th rd ra sf) th rd ra sf (fun a => BitVec.ofNat 64 (ctz64 a)) s

/-- POPC (R102). -/
def execPopc (th : BitVec 23) (rd ra : BitVec 6) (sf : Bool) (s : State) : Out := execUnary (.popc th rd ra sf) th rd ra sf (fun a => BitVec.ofNat 64 (popCount 64 a)) s

/-- BSWAP (R102). -/
def execBswap (th : BitVec 23) (rd ra : BitVec 6) (sf : Bool) (s : State) : Out := execUnary (.bswap th rd ra sf) th rd ra sf (byteSwap) s

/-- MUL (R102, R103). -/
def execMul (th : BitVec 23) (rd ra rb : BitVec 6) (sf : Bool) (s : State) : Out := execBinary (.mul th rd ra rb sf) th rd ra rb sf (· * ·) s

/-- MULH (R102, R103). -/
def execMulh (th : BitVec 23) (rd ra rb : BitVec 6) (sf : Bool) (s : State) : Out := execBinary (.mulh th rd ra rb sf) th rd ra rb sf mulHigh s

/-- MULHU (R102, R103). -/
def execMulhu (th : BitVec 23) (rd ra rb : BitVec 6) (sf : Bool) (s : State) : Out := execBinary (.mulhu th rd ra rb sf) th rd ra rb sf mulHighU s

/-- DIV (R102, R103). -/
def execDiv (th : BitVec 23) (rd ra rb : BitVec 6) (sf : Bool) (s : State) : Out := execBinary (.div th rd ra rb sf) th rd ra rb sf divS s

/-- DIVU (R102, R103). -/
def execDivu (th : BitVec 23) (rd ra rb : BitVec 6) (sf : Bool) (s : State) : Out := execBinary (.divu th rd ra rb sf) th rd ra rb sf divU s

/-- REM (R102, R103). -/
def execRem (th : BitVec 23) (rd ra rb : BitVec 6) (sf : Bool) (s : State) : Out := execBinary (.rem th rd ra rb sf) th rd ra rb sf remS s

/-- REMU (R102, R103). -/
def execRemu (th : BitVec 23) (rd ra rb : BitVec 6) (sf : Bool) (s : State) : Out := execBinary (.remu th rd ra rb sf) th rd ra rb sf remU s

/-- MADD (R102): rd = ra × rb + rc, low 64 bits. -/
def execMadd (th : BitVec 23) (rd ra rb rc : BitVec 6) (sf : Bool) (s : State) : Out :=
  performReg (.madd th rd ra rb rc sf) th s (fun _ => illegalUnless (regOk rd && regOk ra && regOk rb && regOk rc)) (fun t =>
    putResult t rd (rget t ra * rget t rb + rget t rc) sf)

/-- ALUI (R102): FN6 0x00 to 0x0F; an IMM tail holds no SF, so COND stays. -/
def execAlui (th : BitVec 23) (rd ra fn6 : BitVec 6) (imm : BitVec 32) (s : State) : Out :=
  performReg (.alui th rd ra fn6 imm) th s (fun _ => illegalUnless (regOk rd && regOk ra && decide (fn6.toNat < 16))) (fun t =>
    rset t rd (alu fn6.toNat (rget t ra) (sextImm imm)))

/-- LI (R102). -/
def execLi (th : BitVec 23) (rd : BitVec 6) (imm : BitVec 32) (s : State) : Out :=
  performReg (.li th rd imm) th s (fun _ => illegalUnless (regOk rd)) (fun t => rset t rd (sextImm imm))

/-- LIH (R102): bits 63:32 written, bits 31:0 unchanged. -/
def execLih (th : BitVec 23) (rd : BitVec 6) (imm : BitVec 32) (s : State) : Out :=
  performReg (.lih th rd imm) th s (fun _ => illegalUnless (regOk rd)) (fun t => rset t rd (imm ++ (rget t rd).truncate 32))

/-- CMP (R99, R102): the flags of ra − rb; no register. -/
def execCmp (th : BitVec 23) (ra rb : BitVec 6) (s : State) : Out :=
  performReg (.cmp th ra rb) th s (fun _ => illegalUnless (regOk ra && regOk rb)) (fun t =>
    { t with cond := flagsSub t.cond (rget t ra) (rget t rb) })

/-- CMPI (R102): the flags of ra − sext(imm). -/
def execCmpi (th : BitVec 23) (ra : BitVec 6) (imm : BitVec 32) (s : State) : Out :=
  performReg (.cmpi th ra imm) th s (fun _ => illegalUnless (regOk ra)) (fun t =>
    { t with cond := flagsSub t.cond (rget t ra) (sextImm imm) })

/-- SEL (R101, R102): RC codes a condition, tested on the flags as they were. -/
def execSel (th : BitVec 23) (rd ra rb rc : BitVec 6) (sf : Bool) (s : State) : Out :=
  performReg (.sel th rd ra rb rc sf) th s (fun _ => illegalUnless (regOk rd && regOk ra && regOk rb && decide (rc.toNat < 10))) (fun t =>
    putResult t rd (if (flagTest rc.toNat t.cond).getD false then rget t ra else rget t rb) sf)

/-! ### Packed and mask instructions (R107) -/

/-- MOD[1:0]: lane width in bits, if assigned. -/
def laneWidth (md : BitVec 8) : Option Nat :=
  match md.toNat % 4 with
  | 0 => some 8
  | 1 => some 16
  | 2 => some 32
  | _ => none

/-- MOD[7]: every lane active, RC ignored. -/
def unmasked (md : BitVec 8) : Bool := md.getLsbD 7

/-- Bit i of the mask governs lane i. -/
def laneActive (md : BitVec 8) (mask : Word) (i : Nat) : Bool := unmasked md || mask.getLsbD i

/-- Lane i of a register. -/
def laneGet (w : Nat) (a : Word) (i : Nat) : Nat := bits a.toNat (i * w) w

/-- A register from its lanes, the lowest first. -/
def lanesJoin (w : Nat) : List Nat → Nat
  | [] => 0
  | x :: r => x % 2 ^ w + 2 ^ w * lanesJoin w r

/-- The lane operation of FN 0x00 to 0x05 of OP 0x18. -/
def packOp (fn w a b : Nat) : Nat :=
  match fn with
  | 0 => (a + b) % 2 ^ w
  | 1 => (a + 2 ^ w - b) % 2 ^ w
  | 2 => if signed a w < signed b w then a else b
  | 3 => if signed a w < signed b w then b else a
  | 4 => min a b
  | _ => max a b

/-- The fields that a packed instruction uses are assigned: RC only when it is read. -/
def packOk (md : BitVec 8) (rd ra rb rc : BitVec 6) : Bool :=
  regOk rd && regOk ra && regOk rb && (unmasked md || regOk rc) && (laneWidth md).isSome

/-- A packed instruction: active lanes take the result, inactive lanes of rd stay. -/
def execPacked (i : Instr) (fn : Nat) (th : BitVec 23) (rd ra rb rc : BitVec 6) (md : BitVec 8) (sf : Bool) (s : State) : Out :=
  performReg i th s (fun _ => illegalUnless (packOk md rd ra rb rc)) (fun t =>
    let w := (laneWidth md).getD 8
    let a := rget t ra
    let b := rget t rb
    let old := rget t rd
    let r := lanesJoin w ((List.range (64 / w)).map (fun i =>
      if laneActive md (rget t rc) i then packOp fn w (laneGet w a i) (laneGet w b i) else laneGet w old i))
    putResult t rd (BitVec.ofNat 64 r) sf)

/-- PADD (R107). -/
def execPadd (th : BitVec 23) (rd ra rb rc : BitVec 6) (md : BitVec 8) (sf : Bool) (s : State) : Out := execPacked (.padd th rd ra rb rc md sf) 0 th rd ra rb rc md sf s

/-- PSUB (R107). -/
def execPsub (th : BitVec 23) (rd ra rb rc : BitVec 6) (md : BitVec 8) (sf : Bool) (s : State) : Out := execPacked (.psub th rd ra rb rc md sf) 1 th rd ra rb rc md sf s

/-- PMIN (R107). -/
def execPmin (th : BitVec 23) (rd ra rb rc : BitVec 6) (md : BitVec 8) (sf : Bool) (s : State) : Out := execPacked (.pmin th rd ra rb rc md sf) 2 th rd ra rb rc md sf s

/-- PMAX (R107). -/
def execPmax (th : BitVec 23) (rd ra rb rc : BitVec 6) (md : BitVec 8) (sf : Bool) (s : State) : Out := execPacked (.pmax th rd ra rb rc md sf) 3 th rd ra rb rc md sf s

/-- PMINU (R107). -/
def execPminu (th : BitVec 23) (rd ra rb rc : BitVec 6) (md : BitVec 8) (sf : Bool) (s : State) : Out := execPacked (.pminu th rd ra rb rc md sf) 4 th rd ra rb rc md sf s

/-- PMAXU (R107). -/
def execPmaxu (th : BitVec 23) (rd ra rb rc : BitVec 6) (md : BitVec 8) (sf : Bool) (s : State) : Out := execPacked (.pmaxu th rd ra rb rc md sf) 5 th rd ra rb rc md sf s

/-- PCMP (R101, R107): FN codes the condition; bit i of rd is the test of active lane i, every other bit 0. -/
def execPcmp (th : BitVec 23) (fn : BitVec 8) (rd ra rb rc : BitVec 6) (md : BitVec 8) (sf : Bool) (s : State) : Out :=
  performReg (.pcmp th fn rd ra rb rc md sf) th s (fun _ => illegalUnless (packOk md rd ra rb rc && decide (fn.toNat < 6))) (fun t =>
    let w := (laneWidth md).getD 8
    let a := rget t ra
    let b := rget t rb
    let r := lanesJoin 1 ((List.range (64 / w)).map (fun i =>
      b2n (laneActive md (rget t rc) i && (regTest fn.toNat w (laneGet w a i) (laneGet w b i)).getD false)))
    putResult t rd (BitVec.ofNat 64 r) sf)

/-- MPOP (R107). -/
def execMpop (th : BitVec 23) (rd ra : BitVec 6) (sf : Bool) (s : State) : Out :=
  execUnary (.mpop th rd ra sf) th rd ra sf (fun a => BitVec.ofNat 64 (popCount 8 a)) s

/-- MFIRST (R107): 8 if none. -/
def execMfirst (th : BitVec 23) (rd ra : BitVec 6) (sf : Bool) (s : State) : Out :=
  execUnary (.mfirst th rd ra sf) th rd ra sf (fun a => BitVec.ofNat 64 (((List.range 8).find? (fun i => a.getLsbD i)).getD 8)) s

/-- MLAST (R107): 8 if none. -/
def execMlast (th : BitVec 23) (rd ra : BitVec 6) (sf : Bool) (s : State) : Out :=
  execUnary (.mlast th rd ra sf) th rd ra sf (fun a => BitVec.ofNat 64 (((List.range 8).reverse.find? (fun i => a.getLsbD i)).getD 8)) s

/-- MRANGE (R107): 2^min(ra, 8) − 1, ra unsigned. -/
def execMrange (th : BitVec 23) (rd ra : BitVec 6) (sf : Bool) (s : State) : Out :=
  execUnary (.mrange th rd ra sf) th rd ra sf (fun a => BitVec.ofNat 64 (2 ^ min a.toNat 8 - 1)) s

end Sys2Proof.Machine
end

