-- ==== Sys2Proof/Machine/ThreadMem.lean ====
section
/-! DEFINITION. Memory instructions of threads (R108 to R113), instruction fetch (R592), release and acquire as threads meet them (R117
to R119, R157, R158), and what a reply does to a thread that waits. -/
set_option Elab.async false
namespace Sys2Proof.Machine

/-! ### Replies to waiting threads -/

/-- A thread's acquire in its cluster (R158); its fetch buffer goes with the lines it came from, so that it sees other threads' instruction
stores (R592, log 79). -/
def State.threadAcquire (s : State) (th : Nat) : State :=
  let t := s.thread th
  (s.acquire (thCluster th) t.tenant t.cls).modThread th (fun t => { t with fetch := [] })

/-- A load is done: rd takes the value, the thread goes on, and an acquire completes (R97, R108, R158). -/
def State.loadDone (s : State) (th rd : Nat) (v : Word) (acq : Bool) : State :=
  let s := s.modThread th (fun t => nextPc (regSet { t with wait := .none } rd v))
  if acq then s.threadAcquire th else s

/-- R111, R124: a gather whose lanes have all returned: the lowest lane in error gives ACCESS_ERROR; otherwise every active lane's
register is written. -/
def State.gatherDone (s : State) (th : Nat) : State :=
  let t := s.thread th
  match t.wait with
  | .gather rd size sx lanes =>
    if lanes.all (fun l => l.done.isSome || l.err) then
      match lanes.find? (fun l => l.err) with
      | some l => (s.setThread th { t with wait := .none }).raise th cAccessError l.va
      | none =>
        let _ := size
        let _ := sx
        s.setThread th (nextPc (lanes.foldl (fun t l => regSet t (rd + l.lane) (l.done.getD 0)) { t with wait := .none }))
    else s
  | _ => s

/-- One lane of a gather returns: a value, or an error. -/
def State.laneDone (s : State) (th lane : Nat) (v : Option Word) : State :=
  let s := s.modThread th (fun t =>
    match t.wait with
    | .gather rd size sx lanes =>
      { t with wait := .gather rd size sx (lanes.map (fun l =>
          if l.lane = lane then { l with done := v, err := v.isNone } else l)) }
    | _ => t)
  s.gatherDone th

/-- R181: a lane's Platform queue entry is released. -/
def State.pqRelease (s : State) (th lane : Nat) : State :=
  s.modCluster (thCluster th) (fun c =>
    let q := 4 * (th / 32 % 4) + lane % 4
    let l := tget c.pq q []
    let is : PqEntry → Bool := fun e => e.who == .thread (BitVec.ofNat 23 th) lane
    if l.any is then { c with pq := tset c.pq q (dropFirst is l), pqFree := tset c.pqFree q (tget c.pqFree q 16 + 1) } else c)

/-- R181: the Platform queue entry of a Shunter's fetch is released when nothing of the fetch is out. -/
def walkRelease (out : List Nat) (pre : Nat) (x : Cluster) : Cluster :=
  if pre = 0 ∨ out.any (fun k => k / 2 ^ 64 == pre) then x
  else
    let q := (pre - 1) % 16
    let is : PqEntry → Bool := fun e => e.who == .walk (pre - 1)
    if (tget x.pq q []).any is then
      { x with pq := tset x.pq q (dropFirst is (tget x.pq q [])), pqFree := tset x.pqFree q (tget x.pqFree q 16 + 1) }
    else x

/-- R187: a sector that a Shunter's work asked for arrives, or ends in error (none). -/
def State.walkPut (s : State) (c no key : Nat) (b : Option (List Byte)) : State :=
  s.modCluster c (fun x =>
    match x.work with
    | some k =>
      if k.no == no && k.out.contains key then
        let out := k.out.filter (· != key)
        walkRelease out (key / 2 ^ 64) { x with work := some { k with got := tset k.got key b, out := out } }
      else x
    | none => x)

/-- R592: the sector a thread issues from and the next one stay in its fetch buffer. -/
def putFetch (t : Thread) (va : Nat) (b : List Byte) : Thread :=
  let cur := t.pc.toNat / 32 * 32
  { t with fetch := ({ va := va, bytes := b } :: t.fetch.filter (fun f => f.va != va)).filter (fun f => f.va == cur || f.va == cur + 32) }

/-- A fetch returns its sector (or an error): the buffer takes it, and a thread that waited for it goes on; an error at the sector the
thread issues from raises FETCH_FAULT. -/
def State.fetchDone (s : State) (th va : Nat) (b : Option (List Byte)) : State :=
  let t := s.thread th
  match t.wait with
  | .fetch w =>
    if w.toNat / 32 * 32 = va then
      match b with
      | some b => s.setThread th (putFetch { t with wait := .none } va b)
      | none => (s.setThread th { t with wait := .none }).raise th cFetchFault (t.pc.zeroExtend 64)
    else match b with
      | some b => s.setThread th (putFetch t va b)
      | none => s
  | _ => match b with
    | some b => if t.st == .running || t.st == .trap then s.setThread th (putFetch t va b) else s
    | none => s

/-- R144: one merged miss of a line is answered: from the line's bytes, or in error. -/
def State.answer (s : State) (m : Merge) (line : Nat) (view : Option (List Byte)) : State :=
  match m with
  | .load th =>
    let n := th.toNat
    match (s.thread n).wait with
    | .load rd size sx acq va pa =>
      if pa / 128 = line then
        match view with
        | some b => s.loadDone n rd (extendLoad ((b.drop (pa % 128)).take size) sx) acq
        | none => (s.modThread n (fun t => { t with wait := .none })).raise n cAccessError va
      else s
    | _ => s
  | .lane th lane =>
    let n := th.toNat
    match (s.thread n).wait with
    | .gather _ size sx lanes =>
      match lanes.find? (fun l => l.lane == lane && l.pa / 128 == line) with
      | some l =>
        let s := s.pqRelease n lane
        s.laneDone n lane (view.map (fun b => extendLoad ((b.drop (l.pa % 128)).take size) sx))
      | none => s
    | _ => s
  | .fetch th va => s.fetchDone th.toNat va (view.map (fun b => (b.drop (va % 128)).take 32))
  | .walk c no key => s.walkPut c no key (view.map (fun b => (b.drop (key % 4 * 32)).take 32))

/-- R144, R169, R152: a fill is complete: the line is installed (unless an acquire or an error forbids it), every merged miss answered in
arrival order, and the register freed. -/
def State.fillDone (s : State) (c : Nat) (m : MissReg) : State :=
  let x := s.cluster c
  let s := s.setCluster c { x with miss := x.miss.filter (fun e => e.id != m.id), missFree := x.missFree + 1 }
  if m.err ∨ m.gone then m.merges.foldl (fun s e => s.answer e.1 m.line none) s
  else
    let fetched := blend m.ovMask m.ovData m.data
    let s := s.touch c m.tenant m.line
    let (old, k, s) : Option Line × Nat × State :=
      match findWay (s.cluster c) m.tenant m.line with
      | some k => (tget? (s.cluster c).lines k, k, s)
      | none => if m.install then (let (k, s) := s.victim c m.line; (none, k, s)) else (none, 0, s)
    let view := match old with
      | some l => blend l.written l.data ((List.range 128).map (fun i =>
          if m.got.getLsbD (i / 32) then fetched.getD i 0 else l.data.getD i 0))
      | none => fetched
    let s :=
      if !m.install then s
      else
        let l : Line := match old with
          | some l => { l with data := view, valid := l.valid ||| m.got }
          | none => { line := m.line, tenant := m.tenant, valid := m.got, data := view, stable := m.stable, vi := m.vi }
        s.modCluster c (fun x => putLine x k l)
    m.merges.foldl (fun s e => s.answer e.1 m.line (some view)) s

/-! ### Checks of data addresses (R124 steps 9 to 13) -/

/-- What the checks of a data access give. -/
inductive DataAt where
  | bad (cause : Nat) (addr : Word)
  | ok (x : Xlat)

/-- R108, R124: range, alignment, translation and right of one access. -/
def State.dataAt (s : State) (th : Nat) (va : Word) (size : Nat) (write : Bool) : DataAt × State :=
  let t := s.thread th
  if !vaOk va then (.bad cAddrRange va, s)
  else if va.toNat % size ≠ 0 then (.bad cMisaligned va, s)
  else
    match s.xlatCl (thCluster th) t.tenant t.vi va.toNat with
    | (none, s) => (.bad cUnmapped va, s)
    | (some x, s) =>
      if (if write then entryWr x.entry else entryRd x.entry) then (.ok x, s) else (.bad cRights va, s)

/-! ### Release conditions -/

/-- The line that an operation which has not left yet will write. -/
def Held.line? : Held → Option Nat
  | .sig .. => none
  | .store pa .. => some (pa / 128)
  | .amo pa .. => some (pa / 128)

/-- R155: an earlier operation of the thread on one of the lines has not left yet (log 20). -/
def behindHeld (t : Thread) (lines : List Nat) : Bool :=
  t.held.any (fun h => match h.line? with | some l => lines.contains l | none => false)

/-- R118, R157, R323: the operation waits for release conditions. -/
def Held.release : Held → Bool
  | .sig .. => true
  | .store _ _ _ _ rel => rel
  | .amo _ _ _ order .. => decide (2 ≤ order)

/-- R157: no write-back of the tenant's lines from the cluster, no store and no atomic of the thread is unanswered. -/
def State.relReady (s : State) (th : Nat) : Bool :=
  let t := s.thread th
  let c := thCluster th
  s.unanswered (thDie th) (fun o => match o.kind with
    | .wb k _ => k == c && o.tenant == t.tenant
    | .store w => w.toNat == th
    | .amo w _ => w.toNat == th
    | _ => false) == 0

/-- Posted signals of the thread all answered (FENCE FULL and DRAIN, R118). -/
def State.sigsDone (s : State) (th : Nat) : Bool :=
  s.unanswered (thDie th) (fun o => match o.kind with
    | .sigPost 0 w _ => w.toNat == th
    | _ => false) == 0

/-- A store leaves: into the cache, or to home from an UNCACHED section (R141, R161). -/
def State.storeOut (s : State) (th : Nat) (pa : Nat) (b : List Byte) (uncached stable : Bool) : State :=
  let t := s.thread th
  if uncached then
    s.send (thDie th) (.store (BitVec.ofNat 23 th)) t.tenant t.vi t.cls t.deadline (paDie pa)
      (.wr (BitVec.ofNat 52 (pa / 128 * 128)) (byteMask (pa % 128) b.length) (overlay zeroLine (pa % 128) b) false)
  else s.depotStore (thCluster th) (thTp th) t.tenant t.vi t.cls stable pa b

/-- An atomic leaves (R112, R165). -/
def State.amoOut (s : State) (th pa fn : Nat) (wide : Bool) (order : Nat) (a b : Word) (posted : Bool) : State :=
  let t := s.thread th
  s.send (thDie th) (.amo (BitVec.ofNat 23 th) posted) t.tenant t.vi t.cls t.deadline (paDie pa)
    (.amo (BitVec.ofNat 52 pa) (BitVec.ofNat 3 fn) wide (BitVec.ofNat 2 order) a b)

/-- R114, R320, R323: a posted signal write of a thread leaves. -/
def State.sigOut (s : State) (th : Nat) (fn : SigFn) (handle : Word) (hd key : Nat) (value : BitVec 32) : State :=
  let t := s.thread th
  let e := if handle = 0 then (s.die (thDie th)).epoch else hEpoch handle
  s.sendSig (thDie th) (.sigPost 0 (BitVec.ofNat 23 th) handle) t.tenant t.vi t.cls t.deadline hd key e fn value.toNat lwThread th

/-- One held operation leaves. -/
def State.heldOut (s : State) (th : Nat) (h : Held) : State :=
  match h with
  | .sig fn handle dpkg ddie key v => s.sigOut th fn handle (dpkg * 8 + ddie) key v
  | .store pa b u st _ => s.storeOut th pa b u st
  | .amo pa fn wide order a b posted => s.amoOut th pa fn wide order a b posted

/-- The thread waits in a drain. -/
def draining (t : Thread) : Bool := match t.wait with | .drain _ => true | _ => false

/-- A write-back of one of the lines is still unanswered (log 14). -/
def State.linesBusy (s : State) (c tenant : Nat) (lines : List Nat) : Bool :=
  s.unanswered (clDie c) (fun o => match o.kind with
    | .wb k l => k == c && o.tenant == tenant && lines.contains l
    | _ => false) != 0

/-- R155, R157, R165: whether an operation may leave: the release conditions, and for an atomic no unanswered write-back of its line. -/
def State.heldReady (s : State) (th : Nat) (h : Held) : Bool :=
  (!h.release || s.relReady th) &&
  (match h with
   | .amo pa .. => !s.linesBusy (thCluster th) (s.thread th).tenant [pa / 128]
   | _ => true)

/-- R165: an atomic that is about to leave writes back and invalidates its line. -/
def State.heldFlush (s : State) (th : Nat) (h : Held) : State :=
  match h with
  | .amo pa .. => s.amoFlush (thCluster th) (s.thread th).tenant (s.thread th).cls (pa / 128)
  | _ => s

/-- R157, R323: held operations leave in order, each once it may; a store that left is itself written back before a release that follows it
leaves, or before a drain that waits behind it ends. -/
def State.runHeld (s : State) (th : Nat) : Nat → State
  | 0 => s
  | n + 1 =>
    match (s.thread th).held with
    | [] => s
    | h :: r =>
      let s := s.heldFlush th h
      if s.heldReady th h then
        let s := (s.modThread th (fun t => { t with held := r })).heldOut th h
        let t := s.thread th
        let s := if r.any Held.release || draining t then s.releaseFlush (thCluster th) t.tenant t.cls else s
        s.runHeld th n
      else s

/-- R155: a thread that waited behind its held operations goes on once they have left. -/
def wake (t : Thread) : Thread := if t.wait == .behind && t.held.isEmpty then { t with wait := .none } else t

/-! ### Travel (R80 to R82, R87, R119) -/

/-- R80: the ticket of a thread: its frame, t0 to t14, COND and the address after TRAVEL. -/
def ticketOf (t : Thread) : Ticket := { cond := t.cond, resumePc := t.pc + 8, l := t.l, p := t.p, t := t.t.take 15 }

/-- R87: a thread resumes at its origin with a status in t15. -/
def resumeAt (t : Thread) (status : Nat) : Thread :=
  nextPc { t with st := .running, wait := .none, t := t.t.set 15 (BitVec.ofNat 64 status), tReset := none, tHeld := false }

/-- R82, R119: TRAVEL after its drain: UNMAPPED, LOCAL, or the ticket sent with the context kept in state TRAVELLING. -/
def State.travelGo (s : State) (th : Nat) (va : Word) : State :=
  let s := s.modThread th (fun t => { t with travelCount := t.travelCount + 1, wait := .none })
  let t := s.thread th
  let d := thDie th
  if !vaOk va then s.setThread th (resumeAt t 2)
  else
    match s.xlatCl (thCluster th) t.tenant t.vi va.toNat with
    | (none, s) => s.setThread th (resumeAt t 2)
    | (some x, s) =>
      let target := paDie x.pa
      if target = d then s.setThread th (resumeAt t 1)
      else
        let env : Envelope := { deadline := BitVec.ofNat 64 t.deadline, travelNo := t.travelCount, origin := BitVec.ofNat 23 th, cls := BitVec.ofNat 2 t.cls }
        let s := s.setThread th { t with st := .travelling, tPkg := diePkg target, tDie := dieNo target, tEpoch := s.knownDie d target, tVa := va, tPc := t.pc,
                                         tStart := s.now d, tQuery := s.now d, tHeld := false, tReset := none }
        s.send d (.travel (BitVec.ofNat 23 th)) t.tenant t.vi t.cls t.deadline target (.ticket env (ticketOf t))

/-! ### Drains -/

/-- R117 to R119: a thread whose drain is complete goes on: past its fence, to its end, or on its travel. -/
def State.drained (s : State) (th : Nat) : State :=
  let t := s.thread th
  match t.wait with
  | .drain a =>
    let sigs := match a with | .fence _ w => w | _ => true
    if t.held.isEmpty && s.relReady th && (!sigs || s.sigsDone th) then
      match a with
      | .fence acq _ =>
        let s := s.setThread th (nextPc { t with wait := .none })
        if acq then s.threadAcquire th else s
      | .exit => s.endThread th false
      | .travel va => (s.threadAcquire th).travelGo th va
    else s
  | _ => s

/-- After an acknowledgement: held operations and drains of the threads of a cluster go on where they can. -/
def State.progress (s : State) (th : Nat) : State :=
  ((s.runHeld th ((s.thread th).held.length)).modThread th wake).drained th

def State.progressCl (s : State) (c : Nat) : State :=
  (s.threads.filter (fun e => thCluster e.1 == c && (!e.2.held.isEmpty || match e.2.wait with | .drain _ => true | _ => false))).foldl
    (fun s e => s.progress e.1) s

/-- A fence, EXIT or TRAVEL begins its drain: the tenant's dirty data is written back (R157), and it completes at once if nothing is
outstanding. -/
def State.startDrain (s : State) (th : Nat) (a : After) : State :=
  let t := s.thread th
  let s := s.releaseFlush (thCluster th) t.tenant t.cls
  (s.modThread th (fun t => { t with wait := .drain a })).drained th

/-- A posted release operation: it waits behind earlier ones for its release conditions. -/
def State.postHeld (s : State) (th : Nat) (h : Held) : State :=
  let t := s.thread th
  let s := s.releaseFlush (thCluster th) t.tenant t.cls
  (s.modThread th (fun t => { t with held := t.held ++ [h] })).progress th

/-- R155: a store of a thread leaves at once, or queues behind an earlier operation on its line. -/
def State.storeNow (s : State) (th pa : Nat) (b : List Byte) (uncached stable : Bool) : State :=
  if behindHeld (s.thread th) [pa / 128] then s.modThread th (fun t => { t with held := t.held ++ [.store pa b uncached stable false] })
  else s.storeOut th pa b uncached stable

/-- R155: a read waits while an earlier operation of its thread on one of its lines has not left. -/
def State.readBehind (s : State) (th : Nat) (lines : List Nat) (f : State → State) : State :=
  if behindHeld (s.thread th) lines then s.modThread th (fun t => { t with wait := .behind }) else f s

/-! ### Loads and stores -/

/-- Modifier MOD6 of the M form (R108): SIZE, SX, ORD. -/
def m6Size (m : BitVec 6) : Nat := sizeBytes (m.toNat / 16)
def m6Sx (m : BitVec 6) : Bool := m.getLsbD 3
def m6Ord (m : BitVec 6) : Nat := m.toNat / 2 % 4

/-- A load through the Depot cache, or past it from an UNCACHED section (R141, R143, R161). -/
def State.loadAt (s : State) (th rd size : Nat) (sx acq : Bool) (va : Word) (x : Xlat) (dep : DepotFinding) : State :=
  let t := s.thread th
  let c := thCluster th
  if entryUncached x.entry then
    let s := s.modThread th (fun t => { t with wait := .load rd size sx acq va x.pa })
    s.send (thDie th) (.uload (BitVec.ofNat 23 th)) t.tenant t.vi t.cls t.deadline (paDie x.pa)
      (.rd (BitVec.ofNat 52 (x.pa / 128 * 128)) (sectorsOf (x.pa % 128) size))
  else
    let s := s.depotFinding c t.tenant x.pa dep
    if (s.thread th).st != t.st then s
    else
      let s := s.touch c t.tenant (x.pa / 128)
      match s.lookup c t.tenant x.pa size with
      | some b => s.loadDone th rd (extendLoad b sx) acq
      | none =>
        let s := s.modThread th (fun t => { t with wait := .load rd size sx acq va x.pa })
        s.miss c { who := .load (BitVec.ofNat 23 th), line := x.pa / 128, need := sectorsOf (x.pa % 128) size, tenant := t.tenant, vi := t.vi,
                   cls := t.cls, deadline := t.deadline, stable := entryStable x.entry }

/-- LD (R108): ORD 0 plain, 1 acquire. -/
def execLd (th : BitVec 23) (rd ra : BitVec 6) (imm : BitVec 32) (mod6 : BitVec 6) (dep : DepotFinding) (s : State) : Out :=
  perform (.ld th rd ra imm mod6 dep) th s (fun n t s =>
    if !(regOk rd && regOk ra && decide (m6Ord mod6 < 2)) then s.raise n cIllegal 0
    else
      let va := rget t ra + sextImm imm
      match s.dataAt n va (m6Size mod6) false with
      | (.bad c a, s) => s.raise n c a
      | (.ok x, s) => s.readBehind n [x.pa / 128] (fun s => s.loadAt n rd.toNat (m6Size mod6) (m6Sx mod6) (m6Ord mod6 == 1) va x dep))

/-- ST (R108, R97): posted; ORD 0 plain, 2 release. -/
def execSt (th : BitVec 23) (ra rb : BitVec 6) (imm : BitVec 32) (mod6 : BitVec 6) (dep : DepotFinding) (s : State) : Out :=
  perform (.st th ra rb imm mod6 dep) th s (fun n t s =>
    if !(regOk ra && regOk rb && (m6Ord mod6 == 0 || m6Ord mod6 == 2)) then s.raise n cIllegal 0
    else
      let va := rget t ra + sextImm imm
      match s.dataAt n va (m6Size mod6) true with
      | (.bad c a, s) => s.raise n c a
      | (.ok x, s) =>
        let s := if entryUncached x.entry then s else s.depotFinding (thCluster n) t.tenant x.pa dep
        if (s.thread n).st != t.st then s
        else
          let b := lowBytes (rget t rb) (m6Size mod6)
          let s := s.modThread n nextPc
          if m6Ord mod6 = 2 then s.postHeld n (.store x.pa b (entryUncached x.entry) (entryStable x.entry) true)
          else s.storeNow n x.pa b (entryUncached x.entry) (entryStable x.entry))

/-! ### Gathers and scatters -/

/-- MOD of GLD and SST (R109). -/
def gSize (md : BitVec 8) : Nat := sizeBytes (md.toNat % 4)
def gSx (md : BitVec 8) : Bool := md.getLsbD 2

/-- R109: the active lanes and their addresses. -/
def gatherLanes (t : Thread) (ra rb rc : BitVec 6) (md : BitVec 8) : List (Nat × Word) :=
  let idx := blockGet t rb
  ((List.range 8).filter (laneActive md (if unmasked md then 0 else rget t rc))).map (fun i =>
    (i, rget t ra + idx.getD i 0 * BitVec.ofNat 64 (gSize md)))

/-- R110: every active lane is checked before any is performed; the lowest faulting lane gives the cause. -/
def State.checkLanes (s : State) (th size : Nat) (write : Bool) : List (Nat × Word) → List GLane → (List GLane ⊕ (Nat × Word)) × State
  | [], acc => (.inl acc.reverse, s)
  | (i, va) :: r, acc =>
    match s.dataAt th va size write with
    | (.bad c a, s) => (.inr (c, a), s)
    | (.ok x, s) => s.checkLanes th size write r
        ({ lane := i, va := va, pa := x.pa, uncached := entryUncached x.entry } :: acc)

/-- R183: the queue of lane i of a thread. -/
def pqOf (th lane : Nat) : Nat := 4 * (th / 32 % 4) + lane % 4

/-- A gather lane that holds its queue entry is offered to port B: a hit returns at once; a miss waits for its fill. -/
def State.laneAccess (s : State) (th size : Nat) (sx : Bool) (l : GLane) : State :=
  let t := s.thread th
  let c := thCluster th
  if l.uncached then
    s.send (thDie th) (.ulane (BitVec.ofNat 23 th) l.lane) t.tenant t.vi t.cls t.deadline (paDie l.pa)
      (.rd (BitVec.ofNat 52 (l.pa / 128 * 128)) (sectorsOf (l.pa % 128) size))
  else
    let s := s.touch c t.tenant (l.pa / 128)
    match s.lookup c t.tenant l.pa size with
    | some b => (s.pqRelease th l.lane).laneDone th l.lane (some (extendLoad b sx))
    | none =>
      let (x, s) := s.xlatCl c t.tenant t.vi l.va.toNat
      s.miss c { who := .lane (BitVec.ofNat 23 th) l.lane, line := l.pa / 128, need := sectorsOf (l.pa % 128) size, tenant := t.tenant, vi := t.vi,
                 cls := t.cls, deadline := t.deadline, stable := match x with | some x => entryStable x.entry | none => false }

/-- A scatter lane's store, and its queue entry released at once (R181). -/
def State.scatterLane (s : State) (th : Nat) (l : GLane) (b : List Byte) : State :=
  let t := s.thread th
  let (x, s) := s.xlatCl (thCluster th) t.tenant t.vi l.va.toNat
  s.storeNow th l.pa b l.uncached (match x with | some x => entryStable x.entry | none => false)

/-- A lane takes a Platform queue entry (R181, R183). -/
def State.pqTake (s : State) (th lane : Nat) : State :=
  let t := s.thread th
  s.modCluster (thCluster th) (fun c =>
    let q := pqOf th lane
    { c with pq := tset c.pq q (tget c.pq q [] ++ [{ who := .thread (BitVec.ofNat 23 th) lane, tenant := t.tenant, cls := t.cls, deadline := t.deadline }]),
             pqFree := tset c.pqFree q (tget c.pqFree q 16 - 1) })

/-- R183: a lane whose queue is closed stalls its issuer; it and every later lane wait in order. -/
def State.pqStall (s : State) (th : Nat) (lanes : List GLane) : State :=
  let t := s.thread th
  s.modCluster (thCluster th) (fun c => { c with pqWait := c.pqWait ++ lanes.map (fun l =>
    (pqOf th l.lane, { who := .thread (BitVec.ofNat 23 th) l.lane, tenant := t.tenant, cls := t.cls, deadline := t.deadline })) })

/-- R147: what the arrays report as the lanes that use the Depot cache are served, one finding a lane. -/
def State.laneFindings (s : State) (c tenant : Nat) (lanes : List GLane) (dep : List DepotFinding) : State :=
  ((lanes.filter (fun l => !l.uncached)).zip dep).foldl (fun s e => s.depotFinding c tenant e.1.pa e.2) s

/-- The lanes of a gather are offered in order until one finds its queue closed. -/
def State.offerGather (s : State) (th size : Nat) (sx : Bool) : List GLane → State
  | [] => s
  | l :: r =>
    if pqOpen (s.cluster (thCluster th)) (pqOf th l.lane) (s.thread th).cls then
      ((s.pqTake th l.lane).laneAccess th size sx l).offerGather th size sx r
    else s.pqStall th (l :: r)

/-- GLD (R109 to R111). -/
def execGld (th : BitVec 23) (rd ra rb rc : BitVec 6) (md : BitVec 8) (dep : List DepotFinding) (s : State) : Out :=
  perform (.gld th rd ra rb rc md dep) th s (fun n t s =>
    if !(blockOk rd && regOk ra && blockOk rb && (unmasked md || regOk rc)) then s.raise n cIllegal 0
    else
      let lanes := gatherLanes t ra rb rc md
      match s.checkLanes n (gSize md) false lanes [] with
      | (.inr (c, a), s) => s.raise n c a
      | (.inl ls, s) =>
        if ls.isEmpty then s.modThread n nextPc
        else s.readBehind n (ls.map (·.pa / 128)) (fun s =>
          let s := s.laneFindings (thCluster n) t.tenant ls dep
          if (s.thread n).st != t.st then s
          else
            let s := s.modThread n (fun t => { t with wait := .gather rd.toNat (gSize md) (gSx md) ls })
            s.offerGather n (gSize md) (gSx md) ls))

/-- The lanes of a scatter are performed in ascending order until one finds its queue closed (R111, R183). -/
def State.offerScatter (s : State) (th size : Nat) (data : List Word) : List GLane → State
  | [] => s.modThread th (fun t => nextPc { t with wait := .none })
  | l :: r =>
    if pqOpen (s.cluster (thCluster th)) (pqOf th l.lane) (s.thread th).cls then
      (s.scatterLane th l (lowBytes (data.getD l.lane 0) size)).offerScatter th size data r
    else (s.modThread th (fun t => { t with wait := .scatter size ((l :: r).map (fun l => { l with done := some (data.getD l.lane 0) })) })).pqStall th (l :: r)

/-- SST (R109 to R111). -/
def execSst (th : BitVec 23) (rd ra rb rc : BitVec 6) (md : BitVec 8) (dep : List DepotFinding) (s : State) : Out :=
  perform (.sst th rd ra rb rc md dep) th s (fun n t s =>
    if !(blockOk rd && regOk ra && blockOk rb && (unmasked md || regOk rc)) then s.raise n cIllegal 0
    else
      let lanes := gatherLanes t ra rb rc md
      match s.checkLanes n (gSize md) true lanes [] with
      | (.inr (c, a), s) => s.raise n c a
      | (.inl ls, s) =>
        let s := s.laneFindings (thCluster n) t.tenant ls dep
        if (s.thread n).st != t.st then s
        else s.offerScatter n (gSize md) (blockGet t rd) ls)

/-- What a fetch that waited for its queue does on taking an entry. -/
def State.laneStart (s : State) (th : BitVec 23) (i : Nat) : State :=
  let n := th.toNat
  match (s.thread n).wait with
  | .gather _ size sx lanes =>
    match lanes.find? (fun l => l.lane == i) with
    | some l => (s.pqTake n i).laneAccess n size sx l
    | none => s
  | .scatter size lanes =>
    match lanes with
    | l :: r =>
      let s := s.scatterLane n l (lowBytes (l.done.getD 0) size)
      s.modThread n (fun t => if r.isEmpty then nextPc { t with wait := .none } else { t with wait := .scatter size r })
    | [] => s
  | _ => s

/-! ### Miss registers that wait, and instruction fetch -/

/-- The line of a request, if it now hits every sector asked. -/
def State.asideHit (s : State) (c : Nat) (a : Aside) : Option Line :=
  let x := s.cluster c
  let l := match findWay x a.tenant a.line with
    | some k => tget? x.lines k
    | none => (findSiding x a.tenant a.line).bind (fun i => x.siding[i]?)
  l.bind (fun l => if (List.range 4).all (fun i =>
    !a.need.getLsbD i || l.valid.getLsbD i || l.written.extractLsb' (32 * i) 32 == BitVec.allOnes 32) then some l else none)

/-- One request that waits aside is served: a hit is answered, a miss takes or joins a register. -/
def State.serveAside (s : State) (c : Nat) (a : Aside) : State :=
  let s := (s.touch c a.tenant a.line).modCluster c (fun x => { x with aside := dropFirst (· == a) x.aside })
  match s.asideHit c a with
  | some l => s.answer a.who a.line (some l.data)
  | none => (s.tryMiss c a).getD s

/-- A fetch of a thread's sector is on its way: with a miss register, waiting aside for one, or to an UNCACHED section. -/
def State.fetchOut (s : State) (th : BitVec 23) (va : Nat) : Bool :=
  let x := s.cluster (thCluster th.toNat)
  x.miss.any (fun m => m.merges.any (fun e => e.1 == .fetch th va)) || x.aside.any (fun a => a.who == .fetch th va) ||
  s.unanswered (thDie th.toNat) (fun o => o.kind == .ufetch th va) != 0

/-- R592: the sector that a thread may fetch ahead: the next one, while it issues from a sector in its buffer. -/
def State.aheadOf (s : State) (th : BitVec 23) : Option Nat :=
  let t := s.thread th.toNat
  let cur := t.pc.toNat / 32 * 32
  if (t.st == .running || t.st == .trap) && t.fetch.any (fun f => f.va == cur) && !t.fetch.any (fun f => f.va == cur + 32) &&
    decide (cur + 32 < 2 ^ 48) && !s.fetchOut th (cur + 32) then some (cur + 32) else none

/-- R592: one sector is fetched through port A; it needs the EX right. A sector that the thread waits for raises FETCH_FAULT where it cannot be
had; one fetched ahead is then not fetched. -/
def State.fetchSector (s : State) (th : BitVec 23) (va : Nat) (ahead : Bool) (dep : DepotFinding) : State :=
  let n := th.toNat
  let t := s.thread n
  let c := thCluster n
  let fault (s : State) : State := if ahead then s else s.raise n cFetchFault (t.pc.zeroExtend 64)
  let hold (s : State) : State := if ahead then s else s.modThread n (fun t => { t with wait := .fetch (BitVec.ofNat 64 va) })
  match s.xlatCl c t.tenant t.vi va with
  | (none, s) => fault s
  | (some x, s) =>
    if !entryEx x.entry then fault s
    else if entryUncached x.entry then
      (hold s).send (thDie n) (.ufetch th va) t.tenant t.vi t.cls t.deadline (paDie x.pa) (.rd (BitVec.ofNat 52 (x.pa / 128 * 128)) (sectorsOf (x.pa % 128) 32))
    else
      let s := s.depotFinding c t.tenant x.pa dep
      if (s.thread n).st != t.st then s
      else
        let s := s.touch c t.tenant (x.pa / 128)
        match s.lookup c t.tenant x.pa 32 with
        | some b => s.fetchDone n va (some b)
        | none => (hold s).miss c { who := .fetch th va, line := x.pa / 128, need := sectorsOf (x.pa % 128) 32, tenant := t.tenant, vi := t.vi,
                                    cls := t.cls, deadline := t.deadline, stable := entryStable x.entry }

/-- INSTRUCTION_FETCH (R140, R592): the sector the thread issues from, or else the next sequential sector, once port A is granted. -/
def execInstructionFetch (th : BitVec 23) (dep : DepotFinding) (s : State) : Out :=
  let n := th.toNat
  let t := s.thread n
  let c := thCluster n
  let cur := t.pc.toNat / 32 * 32
  if !(s.dieUp (thDie n) && s.unitRuns (thDie n) (clNo c)) then .next s
  else if s.fetches n then
    if !s.portFree c 1 (128 + n % 128) then .next s
    else if s.fetchOut th cur then .next (s.modThread n (fun t => { t with wait := .fetch (BitVec.ofNat 64 cur) }))
    else .next ((s.portUse c 1 (128 + n % 128)).fetchSector th cur false dep)
  else
    match s.aheadOf th with
    | none => .next s
    | some va =>
      match s.portGrant c 1 [{ key := 128 + n % 128, cls := t.cls, deadline := t.deadline, age := tget (s.cluster c).ages (n % 128) 0 }] with
      | some (r, k) => if r.key == 128 + n % 128 then .next ((s.portNote c 1 r.key k).fetchSector th va true dep) else .next s
      | none => .next s

/-! ### Atomics (R112, R113, R165) -/

/-- MOD of AMO: wide (8 bytes), order, NORET. -/
def amoWide (md : BitVec 8) : Bool := md.getLsbD 0
def amoSizeOk (md : BitVec 8) : Bool := md.getLsbD 1
def amoOrder (md : BitVec 8) : Nat := md.toNat / 4 % 4
def amoNoret (md : BitVec 8) : Bool := md.getLsbD 7

/-- One AMO. It waits behind the write-back of its own line and, for release orders, for the release conditions; it is posted when it
returns nothing and does not acquire (R97). -/
def execAmo (i : Instr) (fn : Nat) (th : BitVec 23) (rd ra rb : BitVec 6) (rc : Option (BitVec 6)) (md : BitVec 8) (s : State) : Out :=
  perform i th s (fun n t s =>
    let noret := amoNoret md
    if !((noret || regOk rd) && regOk ra && regOk rb && (match rc with | some r => regOk r | none => true) && amoSizeOk md && !(fn == 1 && amoWide md))
    then s.raise n cIllegal 0
    else
      let size := if amoWide md then 8 else 4
      let va := rget t ra
      match s.dataAt n va size true with
      | (.bad c a, s) => s.raise n c a
      | (.ok x, s) =>
        if paSpace x.pa = 1 then s.raise n cAtomicSpace va
        else
          let c := thCluster n
          let acq := amoOrder md % 2 == 1
          let rel := decide (2 ≤ amoOrder md)
          let posted := noret && !acq
          let s := s.amoFlush c t.tenant t.cls (x.pa / 128)
          let s := if rel then s.releaseFlush c t.tenant t.cls else s
          let s := s.modThread n (fun t => if posted then nextPc t
            else { t with wait := .amo (if noret then none else some rd.toNat) fn (amoWide md) acq va })
          let op : Held := .amo x.pa fn (amoWide md) (amoOrder md) (rget t rb) (match rc with | some r => rget t r | none => 0) posted
          let queues := (rel && !(s.thread n).held.isEmpty) || behindHeld (s.thread n) [x.pa / 128] || !s.heldReady n op
          if queues then s.modThread n (fun t => { t with held := t.held ++ [op] }) else s.heldOut n op)

/-- AMO.ADD (R112). -/
def execAmoAdd (th : BitVec 23) (rd ra rb : BitVec 6) (md : BitVec 8) (s : State) : Out := execAmo (.amoAdd th rd ra rb md) 0 th rd ra rb none md s
/-- AMO.FADD32 (R112, R166): 4 bytes only. -/
def execAmoFadd32 (th : BitVec 23) (rd ra rb : BitVec 6) (md : BitVec 8) (s : State) : Out := execAmo (.amoFadd32 th rd ra rb md) 1 th rd ra rb none md s
/-- AMO.MIN (R112). -/
def execAmoMin (th : BitVec 23) (rd ra rb : BitVec 6) (md : BitVec 8) (s : State) : Out := execAmo (.amoMin th rd ra rb md) 2 th rd ra rb none md s
/-- AMO.MAX (R112). -/
def execAmoMax (th : BitVec 23) (rd ra rb : BitVec 6) (md : BitVec 8) (s : State) : Out := execAmo (.amoMax th rd ra rb md) 3 th rd ra rb none md s
/-- AMO.MINU (R112). -/
def execAmoMinu (th : BitVec 23) (rd ra rb : BitVec 6) (md : BitVec 8) (s : State) : Out := execAmo (.amoMinu th rd ra rb md) 4 th rd ra rb none md s
/-- AMO.MAXU (R112). -/
def execAmoMaxu (th : BitVec 23) (rd ra rb : BitVec 6) (md : BitVec 8) (s : State) : Out := execAmo (.amoMaxu th rd ra rb md) 5 th rd ra rb none md s
/-- AMO.OR (R112). -/
def execAmoOr (th : BitVec 23) (rd ra rb : BitVec 6) (md : BitVec 8) (s : State) : Out := execAmo (.amoOr th rd ra rb md) 6 th rd ra rb none md s
/-- AMO.CAS (R112): rb is stored only if memory equals rc. -/
def execAmoCas (th : BitVec 23) (rd ra rb rc : BitVec 6) (md : BitVec 8) (s : State) : Out := execAmo (.amoCas th rd ra rb rc md) 7 th rd ra rb (some rc) md s

/-- R112: the value that an atomic returns to its register. -/
def amoOldWord (fn : Nat) (wide : Bool) (old : Word) : Word :=
  if wide then old
  else if fn = 2 ∨ fn = 3 then BitVec.ofInt 64 (signed old.toNat 32) else BitVec.ofNat 64 (old.toNat % 2 ^ 32)

end Sys2Proof.Machine
end

