-- ==== Sys2Proof/Machine/ThreadSig.lean ====
section
/-! DEFINITION. SIG instructions (R114 to R116), the end of a wait at its waiter (R328, R334), and timeouts (R331 to R333). -/
set_option Elab.async false
namespace Sys2Proof.Machine

/-! ### SIG instructions -/

/-- R114: MOD[0] names a core signal of the thread's own thread processor, number MOD[7:1]. -/
def sigCore (md : BitVec 8) : Bool := md.getLsbD 0
def sigNo (md : BitVec 8) : Nat := md.toNat / 2

/-- The handle of the signal that a SIG instruction names: a core signal's own, or ra. -/
def sigHandle (s : State) (th : Nat) (t : Thread) (ra : BitVec 6) (md : BitVec 8) : Word :=
  if sigCore md then mkHandle 2 (s.die (thDie th)).epoch.toNat (thDie th) (thTp th * 64 + sigNo md) else rget t ra

/-- ILLEGAL: an unassigned register, or a core number above 47. -/
def sigOk (ra : BitVec 6) (md : BitVec 8) : Bool := if sigCore md then decide (sigNo md ≤ 47) else regOk ra

/-- R331: µs as ticks from now. -/
def waitDue (now us : Nat) : Nat := now + us * tickUs

/-- R115: the timeout of a wait in µs: 0 takes the VI's default; at most 60 s. -/
def waitUs (dflt : Nat) (v : Nat) : Nat := if v = 0 then dflt else min v 60000000

/-- A posted SIG.ADD or SIG.SET (R114, R323). -/
def execSigPost (i : Instr) (fn : SigFn) (th : BitVec 23) (ra rb : BitVec 6) (md : BitVec 8) (s : State) : Out :=
  perform i th s (fun n t s =>
    if !(sigOk ra md && regOk rb) then s.raise n cIllegal 0
    else
      let h := sigHandle s n t ra md
      if !handleValid h then s.raise n cSigHandle h
      else
        (s.modThread n nextPc).postHeld n (.sig fn h (diePkg (hDie h)) (dieNo (hDie h)) (hKey h) ((rget t rb).truncate 32)))

/-- SIG.ADD (R114, R311). -/
def execSigAdd (th : BitVec 23) (ra rb : BitVec 6) (md : BitVec 8) (s : State) : Out := execSigPost (.sigAdd th ra rb md) .add th ra rb md s

/-- SIG.SET (R114, R311). -/
def execSigSet (th : BitVec 23) (ra rb : BitVec 6) (md : BitVec 8) (s : State) : Out := execSigPost (.sigSet th ra rb md) .set th ra rb md s

/-- A signal request of a thread on a handle. -/
def State.sigAsk (s : State) (th : Nat) (kind : OKind) (h : Word) (fn : SigFn) (v : BitVec 32) : State :=
  let t := s.thread th
  s.sendSig (thDie th) kind t.tenant t.vi t.cls t.deadline (hDie h) (hKey h) (hEpoch h) fn v.toNat lwThread th

/-- SIG.READ (R114): it waits for the answer. -/
def execSigRead (th : BitVec 23) (rd ra : BitVec 6) (md : BitVec 8) (s : State) : Out :=
  perform (.sigRead th rd ra md) th s (fun n t s =>
    if !(regOk rd && sigOk ra md) then s.raise n cIllegal 0
    else
      let h := sigHandle s n t ra md
      if !handleValid h then s.raise n cSigHandle h
      else (s.modThread n (fun t => { t with wait := .sigRead rd.toNat h })).sigAsk n (.sigRead th) h .read 0)

/-- SIG.WAIT and SIG.TAKE (R115): not in the trap window; threshold rb, timeout rc. -/
def execSigHold (i : Instr) (take : Bool) (th : BitVec 23) (rd ra rb rc : BitVec 6) (md : BitVec 8) (s : State) : Out :=
  perform i th s (fun n t s =>
    if !(regOk rd && sigOk ra md && regOk rb && regOk rc) then s.raise n cIllegal 0
    else if t.st == .trap then s.raise n cNotInTrap 0
    else
      let h := sigHandle s n t ra md
      if !handleValid h then s.raise n cSigHandle h
      else
        let us := waitUs (s.vi (diePkg (thDie n)) t.vi).timeoutUs (rget t rc).toNat
        let thr : BitVec 32 := (rget t rb).truncate 32
        let s := s.modThread n (fun t => { t with
          wait := .sig rd.toNat take h (diePkg (hDie h)) (dieNo (hDie h)) (hKey h) thr us (waitDue (s.now (thDie n)) us) none })
        s.sigAsk n (.sigWait (.thread th)) h (if take then .take else .wait) thr)

/-- SIG.WAIT (R114, R115). -/
def execSigWait (th : BitVec 23) (rd ra rb rc : BitVec 6) (md : BitVec 8) (s : State) : Out := execSigHold (.sigWait th rd ra rb rc md) false th rd ra rb rc md s

/-- SIG.TAKE (R114, R115). -/
def execSigTake (th : BitVec 23) (rd ra rb rc : BitVec 6) (md : BitVec 8) (s : State) : Out := execSigHold (.sigTake th rd ra rb rc md) true th rd ra rb rc md s

/-! ### The end of a wait -/

/-- REASON of a signal event record (R337). -/
abbrev srTimeout := 1
abbrev srGone := 2
abbrev srFreed := 3
abbrev srWriteGone := 4

/-- Fields of a SIG_WAIT command (R488). -/
def RCmd.take (k : RCmd) : Bool := bit (k.word 2) 0
def RCmd.swTimeout (k : RCmd) : Nat := bits (k.word 4) 0 32

/-- R334: a thread's wait ends with a status; status 1 leaves a record, status 0 acquires (R158). -/
def State.endThreadWait (s : State) (th : Nat) (status reason count : Nat) : State :=
  let t := s.thread th
  match t.wait with
  | .sig rd take h _ _ _ thr us _ _ =>
    let s := if status = 1 then
        s.sigEvent (thDie th) { reason := reason, tenant := t.tenant, vi := t.vi, wkind := 0, waiter := th, handle := h, threshold := thr.toNat,
                                count := if reason = srGone then 0 else count, timeoutUs := us, take := take }
      else s
    let s := s.modThread th (fun t => nextPc (regSet { t with wait := .none } rd (BitVec.ofNat 64 status)))
    let s := s.scopeChanged (thDie th) t.tenant
    if status = 0 then s.threadAcquire th else s
  | _ => s

/-- R492, R334: a SIG_WAIT command's wait ends. -/
def State.endCmdWait (s : State) (c : CmdRef) (status reason count : Nat) : State :=
  match s.rcmd? c with
  | none => s
  | some k =>
    match k.work with
    | .sigWait _ us _ =>
      let s := s.scopeChanged (hDie k.signal) (s.vi c.p c.v).tenant
      if k.result.isSome then s
      else if status = 0 then s.finishCmd c 0 (ringResult 0 0 0 count)
      else if status = 1 then
        let s := s.sigEvent (s.cmdDie c k) { reason := reason, tenant := (s.vi c.p c.v).tenant, vi := c.v, wkind := 1, waiter := c.r,
                                             handle := k.signal, threshold := k.sigval, count := if reason = srGone then 0 else count,
                                             timeoutUs := us, take := k.take }
        s.finishCmd c 2 (ringResult 2 2 0 count)
      else s.finishCmd c 2 (ringResult 2 3 0 0)
    | _ => s

def State.endWait (s : State) (w : WaiterRef) (status reason count : Nat) : State :=
  match w with
  | .thread th => s.endThreadWait th.toNat status reason count
  | .cmd c => s.endCmdWait c status reason count

/-- A wait as its waiter's Signal box sees it. -/
structure WaitInfo where
  die : Nat
  handle : Word
  take : Bool
  threshold : BitVec 32
  due : Nat
  retry : Option Nat
  tenant : Nat
  vi : Nat
  cls : Cls
  deadline : Nat
  writer : Nat

def State.waitInfo (s : State) (w : WaiterRef) : Option WaitInfo :=
  match w with
  | .thread th =>
    let n := th.toNat
    let t := s.thread n
    match t.wait with
    | .sig _ take h _ _ _ thr _ due retry =>
      some { die := thDie n, handle := h, take := take, threshold := thr, due := due, retry := retry, tenant := t.tenant, vi := t.vi,
             cls := t.cls, deadline := t.deadline, writer := n }
    | _ => none
  | .cmd c =>
    match s.rcmd? c with
    | some k =>
      match k.work with
      | .sigWait due _ retry =>
        if k.result.isSome then none
        else some { die := s.cmdDie c k, handle := k.signal, take := k.take, threshold := BitVec.ofNat 32 k.sigval, due := due, retry := retry,
                    tenant := (s.vi c.p c.v).tenant, vi := c.v, cls := k.cls, deadline := k.deadline,
                    writer := c.p * 2 ^ 15 + c.v * 16 + c.r }
      | _ => none
    | none => none

/-- The wait's tick of expiry and of its next send (R330) rewritten. -/
def State.setWait (s : State) (w : WaiterRef) (due : Nat) (retry : Option Nat) : State :=
  match w with
  | .thread th => s.modThread th.toNat (fun t =>
      match t.wait with
      | .sig rd take h p d k thr us _ _ => { t with wait := .sig rd take h p d k thr us due retry }
      | _ => t)
  | .cmd c => s.modCmd c (fun k =>
      match k.work with
      | .sigWait _ us _ => { k with work := .sigWait due us retry }
      | _ => k)

/-- R333: after CANCEL the home decides: the waiter's own timing is over. -/
def noTimeout : Nat := 2 ^ 80

/-- The request of a wait leaves (again). -/
def State.sendWait (s : State) (w : WaiterRef) (i : WaitInfo) : State :=
  s.sendSig i.die (.sigWait w) i.tenant i.vi i.cls i.deadline (hDie i.handle) (hKey i.handle) (hEpoch i.handle)
    (if i.take then .take else .wait) i.threshold.toNat (match w with | .thread _ => lwThread | .cmd _ => lwRing) i.writer

/-- WAIT_TIMEOUT_EXPIRE (R332, R333, R330): on the waiter's own die the condition is evaluated once, be the wait held or not; a wait on another
die sends CANCEL, and one that no entry holds ends. -/
def execWaitTimeoutExpire (w : WaiterRef) (s : State) : Out :=
  match s.waitInfo w with
  | none => .next s
  | some i =>
    if s.now i.die < i.due ∨ !s.dieUp i.die then .next s
    else if hDie i.handle = i.die then
      let g := tget (s.die i.die).signals (hKey i.handle) {}
      let answered := s.net.any (fun p => p.src == i.die && p.dst == i.die && some p.tag.toNat == waitTag (s.die i.die) w && p.vc.toNat % 2 == 1)
      if answered then .next s
      else
        let s := s.dropWait i.die i.die w
        if i.threshold.toNat ≤ g.count.toNat ∧ (i.tenant = 0 ∨ g.owner = i.tenant) then
          let s := if i.take then s.modDie i.die (fun x => { x with signals := tset x.signals (hKey i.handle) { tget x.signals (hKey i.handle) {} with count := g.count - i.threshold } }) else s
          .next (s.endWait w 0 0 (g.count.toNat - (if i.take then i.threshold.toNat else 0)))
        else .next (s.endWait w 1 srTimeout g.count.toNat)
    else if i.retry.isSome then .next ((s.setWait w noTimeout none).endWait w 1 srTimeout 0)
    else
      match waitTag (s.die i.die) w with
      | some _ => .next ((s.setWait w noTimeout none).cancelWait i.die w i.handle i.cls i.deadline)
      | none => .next ((s.cancelWait i.die w i.handle i.cls i.deadline).endWait w 1 srTimeout 0)

/-- REMOTE_WAIT_RETRY (R330): a wait answered NOROOM is sent again every 1 µs. -/
def execRemoteWaitRetry (w : WaiterRef) (s : State) : Out :=
  match s.waitInfo w with
  | none => .next s
  | some i =>
    match i.retry with
    | none => .next s
    | some at_ =>
      if s.now i.die < at_ ∨ i.due ≤ s.now i.die ∨ !s.dieUp i.die then .next s
      else .next ((s.setWait w i.due none).sendWait w i)

end Sys2Proof.Machine
end

