-- ==== Sys2Proof/Machine/ThreadCtl.lean ====
section
/-! DEFINITION. Control and system instructions (R117 to R122): branches, calls and the Roundhouse (R64 to R74), the end of a thread,
travel, fences, special registers, the trap window. -/
set_option Elab.async false
namespace Sys2Proof.Machine

/-! ### Branches and jumps -/

/-- R117: the PC of a branch plus sext(imm) × 8. -/
def branchTo (t : Thread) (imm : BitVec 32) : BitVec 48 := t.pc + (imm.signExtend 48) * 8

def goto_ (t : Thread) (pc : BitVec 48) : Thread := { t with pc := pc }

/-- BC (R101, R117). -/
def execBc (th : BitVec 23) (cc : BitVec 6) (imm : BitVec 32) (s : State) : Out :=
  perform (.bc th cc imm) th s (fun n t s =>
    match flagTest cc.toNat t.cond with
    | none => s.raise n cIllegal 0
    | some b => s.setThread n (if b then goto_ t (branchTo t imm) else nextPc t))

/-- BR (R101, R117). -/
def execBr (th : BitVec 23) (cc ra rb : BitVec 6) (imm : BitVec 32) (s : State) : Out :=
  perform (.br th cc ra rb imm) th s (fun n t s =>
    if !(regOk ra && regOk rb) then s.raise n cIllegal 0
    else
      match regTest cc.toNat 64 (rget t ra).toNat (rget t rb).toNat with
      | none => s.raise n cIllegal 0
      | some b => s.setThread n (if b then goto_ t (branchTo t imm) else nextPc t))

/-- JMP (R117). -/
def execJmp (th : BitVec 23) (imm : BitVec 32) (s : State) : Out :=
  perform (.jmp th imm) th s (fun n t s => s.setThread n (goto_ t (branchTo t imm)))

/-- JMPR (R117, R91: the PC takes 48 bits). -/
def execJmpr (th : BitVec 23) (ra : BitVec 6) (s : State) : Out :=
  perform (.jmpr th ra) th s (fun n t s =>
    if !regOk ra then s.raise n cIllegal 0 else s.setThread n (goto_ t ((rget t ra).truncate 48)))

/-! ### Calls and the Roundhouse -/

/-- R67: RH_SIZE in bytes, and records that a region holds. -/
def rhSize (x : Die) : Nat := 1024 * 2 ^ min x.rhCode.toNat 2
def rhCap (x : Die) : Nat := rhSize x / 64

/-- R130, R194: the partial pool stands first in the firmware reserve, 64 KiB for each cluster (log 92). -/
def poolBase (x : Die) : Nat := rhSize x * 4096 + 8 * 2 ^ 20

/-- R67, R130: physical address of record k of a thread's region; RH_BASE is 0. -/
def rhPa (x : Die) (th k : Nat) : Nat := mkPa 1 (thDie th) (th % 4096 * rhSize x + 64 * k)

/-- A record's eight words, and its bytes. -/
def recBytes (l : List Word) : List Byte := (l.map (fun w => leBytes 8 w.toNat)).flatten
def State.recRead (s : State) (pa : Nat) : List Word := wordsOf (s.readPa pa 64) 8

/-- R64: the new frame. -/
def newFrame (t : Thread) (pc : BitVec 48) : Thread :=
  { t with stack := t.l :: t.stack, l := zeros8.set 7 ((t.pc + 8).zeroExtend 64), p := zeros8, q := t.p, pc := pc }

/-- R64, R68, R71: CALL and CALLR to a target read in the caller's frame. -/
def State.callTo (s : State) (n : Nat) (t : Thread) (pc : BitVec 48) : State :=
  let x := s.die (thDie n)
  if t.st == .trap then s.raise n cNotInTrap 0
  else if frames t < 6 then s.setThread n (newFrame t pc)
  else if rhCap x ≤ t.rhUsed then s.raise n cRhFull 0
  else
    let s := s.writePa (rhPa x n t.rhUsed) (recBytes (t.stack.getLast?.getD zeros8))
    s.setThread n (newFrame { t with stack := t.stack.dropLast, rhUsed := t.rhUsed + 1 } pc)

/-- CALL (R64, R68, R71, R117). -/
def execCall (th : BitVec 23) (imm : BitVec 32) (s : State) : Out :=
  perform (.call th imm) th s (fun n t s => s.callTo n t (branchTo t imm))

/-- CALLR (R117). -/
def execCallr (th : BitVec 23) (ra : BitVec 6) (s : State) : Out :=
  perform (.callr th ra) th s (fun n t s => if !regOk ra then s.raise n cIllegal 0 else s.callTo n t ((rget t ra).truncate 48))

/-- R65: the caller's frame with its locals becomes current. -/
def backFrame (t : Thread) (l : List Word) (stack : List (List Word)) : Thread :=
  { t with l := l, p := t.q, q := zeros8, stack := stack, pc := (t.l.getD 7 0).truncate 48 }

/-- R152: a record of the region that cannot be read: FLT_MEM_UE, and ACCESS_ERROR with the word's physical address (log 52). -/
def State.rhError (s : State) (n w : Nat) : State :=
  let t := s.thread n
  (s.memFault (thDie n) { kind := 3, tenant := t.tenant, vi := t.vi, pa := w, detail := s.ueDetail w false }).raise n cAccessError (BitVec.ofNat 64 w)

/-- RET (R65, R69, R71). -/
def execRet (th : BitVec 23) (s : State) : Out :=
  perform (.ret th) th s (fun n t s =>
    let x := s.die (thDie n)
    if t.st == .trap then s.raise n cNotInTrap 0
    else
      match t.stack with
      | l :: r => s.setThread n (backFrame t l r)
      | [] =>
        if 0 < t.rhUsed then
          let pa := rhPa x n (t.rhUsed - 1)
          let s := (s.chargeMem t.tenant pa 64).ceFoundAt pa
          match s.poisonIn pa 64 with
          | none => s.setThread n (backFrame { t with rhUsed := t.rhUsed - 1 } (s.recRead pa) [])
          | some w => s.rhError n w
        else if 0 < t.rhExt then s.raise n cRhEmpty 0
        else s.startDrain n .exit)

/-! ### End, travel, fences -/

/-- EXIT (R117). -/
def execExit (th : BitVec 23) (s : State) : Out := perform (.exit th) th s (fun n _ s => s.startDrain n .exit)

/-- TRAVEL (R119): not in the trap window. -/
def execTravel (th : BitVec 23) (ra : BitVec 6) (s : State) : Out :=
  perform (.travel th ra) th s (fun n t s =>
    if !regOk ra then s.raise n cIllegal 0
    else if t.st == .trap then s.raise n cNotInTrap 0
    else s.startDrain n (.travel (rget t ra)))

/-- BRK (R117, R123). -/
def execBrk (th : BitVec 23) (imm : BitVec 32) (s : State) : Out :=
  perform (.brk th imm) th s (fun n _ s => s.raise n cBreak (imm.zeroExtend 64))

/-- NOP (R117). -/
def execNop (th : BitVec 23) (s : State) : Out := perform (.nop th) th s (fun n t s => s.setThread n (nextPc t))

/-- FENCE FULL (R118, R158). -/
def execFenceFull (th : BitVec 23) (s : State) : Out := perform (.fenceFull th) th s (fun n _ s => s.startDrain n (.fence true true))

/-- FENCE ACQUIRE (R118, R158): earlier loads are complete; the acquire is made. -/
def execFenceAcquire (th : BitVec 23) (s : State) : Out := perform (.fenceAcquire th) th s (fun n t s => (s.setThread n (nextPc t)).threadAcquire n)

/-- FENCE RELEASE (R118, R157). -/
def execFenceRelease (th : BitVec 23) (s : State) : Out := perform (.fenceRelease th) th s (fun n _ s => s.startDrain n (.fence false false))

/-- FENCE DRAIN (R118): also a FULL. -/
def execFenceDrain (th : BitVec 23) (s : State) : Out := perform (.fenceDrain th) th s (fun n _ s => s.startDrain n (.fence true true))

/-! ### Special registers -/

/-- MFS (R120). -/
def execMfs (th : BitVec 23) (rd : BitVec 6) (imm : BitVec 32) (s : State) : Out :=
  perform (.mfs th rd imm) th s (fun n t s =>
    match specialGet s n t imm.toNat with
    | none => s.raise n cIllegal 0
    | some v => if !regOk rd then s.raise n cIllegal 0 else s.setThread n (nextPc (rset t rd v)))

/-- R120: the class that a write to CLASS leaves: the less urgent of old and new, 3 and more taken as 2. -/
def classAfter (old : Nat) (v : Word) : Nat := max old (min v.toNat 2)

/-- R120: the registers MTS may write. -/
def specialWritable (n : Nat) : Bool := n == 0 || n == 3 || n == 4 || n == 5

/-- R120: a special register written. -/
def specialSet (t : Thread) (n : Nat) (v : Word) : Thread :=
  match n with
  | 0 => { t with trapEpc := v.truncate 48 }
  | 3 => { t with trapPc := v.truncate 48 }
  | 4 => { t with cond := v.truncate 8 }
  | 5 => { t with cls := classAfter t.cls v }
  | _ => t

/-- MTS (R120): TRAP_EPC only in state TRAP. -/
def execMts (th : BitVec 23) (ra : BitVec 6) (imm : BitVec 32) (s : State) : Out :=
  perform (.mts th ra imm) th s (fun n t s =>
    if !(specialWritable imm.toNat && regOk ra) then s.raise n cIllegal 0
    else if imm.toNat = 0 ∧ t.st ≠ .trap then s.raise n cPrivileged 0
    else s.setThread n (nextPc (specialSet t imm.toNat (rget t ra))))

/-! ### The trap window -/

/-- R74: the frame that was current, state RUNNING, the PC at TRAP_EPC. -/
def leaveTrap (t : Thread) : Thread :=
  let w := t.saved.getD ⟨zeros8, zeros8, zeros8⟩
  { t with st := .running, l := w.l, p := w.p, q := w.q, saved := none, pc := t.trapEpc }

/-- TRET (R74): PRIVILEGED outside TRAP. -/
def execTret (th : BitVec 23) (s : State) : Out :=
  perform (.tret th) th s (fun n t s => if t.st == .trap then s.setThread n (leaveTrap t) else s.raise n cPrivileged 0)

/-- What the checks of a record move give: the physical places of its records, or an exception. -/
inductive RhAt where
  | bad (cause : Nat) (addr : Word)
  | ok (l : List Xlat)

/-- The records' translations, in order. -/
def State.rhXlats (s : State) (n : Nat) : List Word → List (Option Xlat) × State
  | [] => ([], s)
  | va :: r =>
    let t := s.thread n
    let (x, s) := s.xlatCl (thCluster n) t.tenant t.vi va.toNat
    let (l, s) := s.rhXlats n r
    (x :: l, s)

/-- R122, R124: every record's address is checked before any is moved: of the conditions that its records meet, the first in the order of
R124, at the first record that meets it. -/
def State.rhCheck (s : State) (n : Nat) (write : Bool) (va : Word) (k : Nat) : RhAt × State :=
  let vas := (List.range k).map (fun i => va + BitVec.ofNat 64 (64 * i))
  match vas.find? (fun a => !vaOk a) with
  | some a => (.bad cAddrRange a, s)
  | none =>
    if va.toNat % 64 ≠ 0 then (.bad cMisaligned va, s)
    else
      let (xs, s) := s.rhXlats n vas
      match (vas.zip xs).find? (fun e => e.2.isNone) with
      | some (a, _) => (.bad cUnmapped a, s)
      | none =>
        match (vas.zip xs).find? (fun e => e.2.any (fun x => !(if write then entryWr x.entry else entryRd x.entry))) with
        | some (a, _) => (.bad cRights a, s)
        | none => (.ok (xs.filterMap id), s)

/-- R73: the records from index k to the end of use move down to the region's start. -/
def State.rhShiftDown (s : State) (x : Die) (n k used : Nat) : State :=
  let b := s.readPa (rhPa x n k) (64 * (used - k))
  s.writePa (rhPa x n 0) b

/-- RHOUT (R73, R122): the n oldest records go to ra onward, the oldest first; the region is compacted. -/
def execRhout (th : BitVec 23) (ra rb : BitVec 6) (s : State) : Out :=
  perform (.rhout th ra rb) th s (fun n t s =>
    let k := (rget t rb).toNat
    let x := s.die (thDie n)
    if !(regOk ra && regOk rb) then s.raise n cIllegal 0
    else if t.st != .trap then s.raise n cPrivileged 0
    else if !(decide (1 ≤ k) && decide (k ≤ t.rhUsed)) then s.raise n cRhCount (rget t rb)
    else
      match s.rhCheck n true (rget t ra) k with
      | (.bad c a, s) => s.raise n c a
      | (.ok l, s) =>
        let s := (s.chargeMem t.tenant (rhPa x n 0) (64 * t.rhUsed)).ceFoundAt (rhPa x n 0)
        match s.poisonIn (rhPa x n 0) (64 * t.rhUsed) with
        | some w => s.rhError n w
        | none =>
        let recs := (List.range k).map (fun i => s.readPa (rhPa x n i) 64)
        let s := (l.zip recs).foldl (fun s (a, b) => s.storeNow n a.pa b (entryUncached a.entry) (entryStable a.entry)) s
        (s.rhShiftDown x n k t.rhUsed).modThread n (fun t => nextPc { t with rhUsed := t.rhUsed - k, rhExt := t.rhExt + k }))

/-- Home bytes of a range within one line with the bytes that the cluster's Depot holds for the tenant (log 10). -/
def State.depotView (s : State) (c tenant pa : Nat) (home : List Byte) : List Byte :=
  let line := pa / 128
  let x := s.cluster c
  let l := match findWay x tenant line with
    | some k => tget? x.lines k
    | none => (findSiding x tenant line).bind (fun i => x.siding[i]?)
  match l with
  | none => home
  | some l => home.zipIdx.map (fun (b, i) => if byteOk l (pa % 128 + i) then l.data.getD (pa % 128 + i) 0 else b)

/-- RHIN's reads: each record from the Depot and home memory, or the address that ended in error. -/
def State.rhRead (s : State) (n : Nat) (va : Word) : List Xlat → (List (List Byte) ⊕ Word) × State
  | [] => (.inl [], s)
  | x :: r =>
    let t := s.thread n
    match s.readHome (thDie n) t.tenant x.pa 64 with
    | (.inr _, f, s) => (.inr va, s.accFault (thDie n) t.tenant t.vi f)
    | (.inl b, _, s) =>
      match s.rhRead n (va + 64) r with
      | (.inl l, s) => (.inl (s.depotView (thCluster n) t.tenant x.pa b :: l), s)
      | (.inr a, s) => (.inr a, s)

/-- RHIN (R73, R122): n records from ra onward become the n oldest records (its reads are made in the step, log 9; it waits for a
write-back of its own lines). -/
def execRhin (th : BitVec 23) (ra rb : BitVec 6) (s : State) : Out :=
  perform (.rhin th ra rb) th s (fun n t s =>
    let k := (rget t rb).toNat
    let x := s.die (thDie n)
    if !(regOk ra && regOk rb) then s.raise n cIllegal 0
    else if t.st != .trap then s.raise n cPrivileged 0
    else if !(decide (1 ≤ k) && decide (k ≤ t.rhExt) && decide (t.rhUsed + k ≤ rhCap x)) then s.raise n cRhCount (rget t rb)
    else
      match s.rhCheck n false (rget t ra) k with
      | (.bad c a, s) => s.raise n c a
      | (.ok l, s) =>
        let lines := l.map (fun x => x.pa / 128)
        s.readBehind n lines (fun s =>
        let s := lines.foldl (fun s i => s.streamLoad (thCluster n) t.tenant i) s
        if s.linesBusy (thCluster n) t.tenant lines then s
        else
          match s.poisonIn (rhPa x n 0) (64 * t.rhUsed) with
          | some w => s.rhError n w
          | none =>
          match s.rhRead n (rget t ra) l with
          | (.inr a, s) => s.raise n cAccessError a
          | (.inl recs, s) =>
            let old := s.readPa (rhPa x n 0) (64 * t.rhUsed)
            let s := s.writePa (rhPa x n 0) (recs.flatten ++ old)
            s.modThread n (fun t => nextPc { t with rhUsed := t.rhUsed + k, rhExt := t.rhExt - k })))

/-! ### Unassigned words -/

/-- UNASSIGNED_OP (R95): a word whose OP or FN no table assigns raises ILLEGAL. -/
def execUnassignedOp (th : BitVec 23) (word : BitVec 64) (s : State) : Out :=
  performIf (fun w => w == word && (decodeWord th w).isNone) th s (fun n _ s => s.raise n cIllegal 0)

end Sys2Proof.Machine
end

