-- ==== Sys2Proof/Machine/Home.lean ====
section
/-! DEFINITION. The home die of memory (R22 to R24, R128 to R132, R152 to R154, R156, R165 to R167, R517, R589): RD, WR and AMO
packets, patrol, refresh and power-down of pseudo-channels. -/
set_option Elab.async false
namespace Sys2Proof.Machine

/-! ### DRAM pseudo-channels (R589, R440) -/

/-- DRAM_REFRESH (R589, R173): a refreshed bank's row is closed; no waiting request delays it. -/
def execDramRefresh (die : BitVec 11) (pc : BitVec 5) (bank : Nat) (s : State) : Out :=
  let d := die.toNat
  if !s.pkgUp (diePkg d) then .next s
  else .next (s.modDie d (fun x => { x with openRow := terase x.openRow (pc.toNat * 1024 + bank % 1024), refreshes := x.refreshes + 1 }))

/-- PSEUDO_CHANNEL_POWER_DOWN (R440): under the DRAM power-down lever, a pseudo-channel idle for 100 ns. -/
def execPseudoChannelPowerDown (die : BitVec 11) (pc : BitVec 5) (s : State) : Out :=
  let d := die.toNat
  let x := s.die d
  if s.pkgUp (diePkg d) && x.pdLever && !x.pdown.contains pc.toNat && after (s.now d) (tget x.lastAccess pc.toNat 0) 10 then
    .next (s.setDie d { x with pdown := pc.toNat :: x.pdown })
  else .next s

/-! ### Errors of memory words -/

/-- R129: what a read of a word finds: a corrected error is counted, an uncorrectable one stays with the word. -/
def State.eccFinding (s : State) (pa : Nat) (e : EccFinding) : State :=
  match e with
  | .clean => s
  | .corrected => s.count (paDie pa) (if paSpace pa = 0 then 3 else 4)
  | .uncorrectable => s.markUe (pa / 8)

/-- PATROL_SCRUB (R153): one word read and corrected; an uncorrectable word is a package-level record. -/
def execPatrolScrub (die : BitVec 11) (yard : Bool) (off : BitVec 37) (ecc : EccFinding) (s : State) : Out :=
  let d := die.toNat
  let pa := mkPa (b2n yard) d (off.toNat / 8 * 8)
  if !s.dieUp d || !paPopulated pa then .next s
  else
    let s := s.dramTouch pa
    let s := s.eccFinding pa ecc
    match s.poisonIn pa 8 with
    | some w => .next (s.memFault d { kind := 3, pa := w, detail := s.ueDetail w false, pkg := true })
    | none => .next s

/-! ### The control space (R24, R517) -/

/-- What an offset of space 3 is. -/
inductive CtlAt where
  | gate (u : Nat)
  | word (off : Nat)
  | epochs
  | ticks
  | monitor (m : Nat)
  | route (p : Nat)
  | owner (i : Nat)
  | none
  deriving DecidableEq, Repr

/-- R516: the units that have a control block. -/
def ctlUnit (u : Nat) : Bool :=
  decide (u ≤ 0x23) || (decide (0x28 ≤ u) && decide (u ≤ 0x36)) || (decide (0x38 ≤ u) && decide (u ≤ 0x3A))

/-- R517: the access at an offset, of 2 bytes in the owner map and 8 elsewhere. -/
def ctlAt (off : Nat) : CtlAt :=
  if off < 0x3B000 then
    if off % 8 ≠ 0 ∨ !ctlUnit (off / 0x1000) then .none
    else if off % 0x1000 = 0 then .gate (off / 0x1000) else .word off
  else if off = 0x100000 then .epochs
  else if off = 0x100008 then .ticks
  else if 0x100040 ≤ off ∧ off < 0x100080 ∧ off % 8 = 0 then .monitor ((off - 0x100040) / 8)
  else if 0x110000 ≤ off ∧ off < 0x110800 ∧ off % 8 = 0 then .route ((off - 0x110000) / 8)
  else if 0x120000 ≤ off ∧ off < 0x120600 ∧ off % 2 = 0 then .owner ((off - 0x120000) / 2)
  else if 0x120800 ≤ off ∧ off < 0x121000 ∧ off % 2 = 0 then .owner (768 + (off - 0x120800) / 2)
  else .none

def ctlSize (off : Nat) : Nat := match ctlAt off with | .owner _ => 2 | _ => 8

/-- R47: the ring monitor record of monitor m of a die. -/
def monitorWord (d m : Nat) (r : Monitor) : Nat :=
  r.rateMin.toNat * 2 ^ 48 + r.rateNow.toNat * 2 ^ 32 + r.temp.toNat * 2 ^ 24 + m % 16 * 2 ^ 20 + dieNo d * 2 ^ 16 + b2n r.stale

/-- R517: the value read. -/
def State.ctlRead (s : State) (d : Nat) (a : CtlAt) : Nat :=
  let x := s.die d
  match a with
  | .gate u => b2n ((s.gates d).getLsbD u)
  | .word off => (tget x.control off (Config.controlWord off)).toNat
  | .epochs => x.epoch.toNat + (s.pkg (diePkg d)).epoch.toNat * 2 ^ 8
  | .ticks => s.now d % 2 ^ 64
  | .monitor m => monitorWord d m (tget x.monitors m {})
  | .route p => tget x.routes p 0xFF
  | .owner i => tget x.owner i 0
  | .none => 0

/-- R517: a write; read-only words are left. -/
def State.ctlWrite (s : State) (d : Nat) (a : CtlAt) (v : Nat) : State :=
  s.modDie d (fun x =>
    match a with
    | .gate u => { x with gate := if v % 2 = 1 then x.gate ||| BitVec.ofNat 64 (2 ^ u) else x.gate &&& ~~~(BitVec.ofNat 64 (2 ^ u)) }
    | .word off => { x with control := tset x.control off (BitVec.ofNat 64 v) }
    | .route p => { x with routes := tset x.routes p (v % 256) }
    | .owner i => { x with owner := tset x.owner i (v % 4096) }
    | _ => x)

/-! ### Checks at the home die -/

/-- R23, R24, R131, R405: why a request to memory is not performed: its status and the fault it raises.  `issued` is the package of the VI
that issued a write: those of a VI that resets complete (R406 step 4). -/
def State.homeRefuses (s : State) (tenant pa : Nat) (issued : Option Nat := none) : Option (Nat × (Nat × Nat × Nat)) :=
  let p := diePkg (paDie pa)
  if !(paSpace pa = 0 || paSpace pa = 1) || !paPopulated pa then some (stError, (5, pa, 0))
  else if !s.owns tenant pa || !(s.served p tenant || (issued == some p && s.resets p tenant)) then some (stForeign, (4, pa, s.owner pa))
  else none

/-- The sectors of a line that are asked, as offsets. -/
def sectorList (m : BitVec 4) : List Nat := (List.range 4).filter (fun i => m.getLsbD i)

/-! ### RD (R131, R152) -/

/-- A read of memory: the sectors asked, or the first uncorrectable word among them. -/
def State.homeRead (s : State) (p : Packet) (pa : Nat) (sectors : BitVec 4) (ecc : EccFinding) : State :=
  let line := pa / 128 * 128
  match s.homeRefuses p.tenant.toNat line with
  | some (st, f) => s.respond p false st .ack (some f)
  | none =>
    let secs := sectorList sectors
    let s := (s.dramTouch line).chargeMem p.tenant.toNat line (32 * secs.length)
    let s := match secs with
      | i :: _ => s.eccFinding (line + 32 * i) ecc
      | [] => s
    match secs.findSome? (fun i => s.poisonIn (line + 32 * i) 32) with
    | some w => s.respond p false stError .ack (some (3, w, s.ueDetail w false))
    | none =>
      let b := ((List.range 4).map (fun i => if sectors.getLsbD i then s.readPa (line + 32 * i) 32 else List.replicate 32 0)).flatten
      s.respond p false stOk (.data (BitVec.ofNat 52 line) sectors b) none

/-! ### WR (R129, R145, R156) -/

/-- The bytes of a masked write, from the line's first. -/
def maskBytes (mask : BitVec 128) (data : List Byte) : List (Bool × Byte) :=
  (List.range 128).map (fun i => (mask.getLsbD i, data.getD i 0))

/-- A write of memory performed: merged at home, bit by bit (R204); a partial write of an uncorrectable word is reported and completes.  `bits`
are, for each byte of the line, the bits written. -/
def State.homePut (s : State) (p : Packet) (line : Nat) (bits data : List Byte) (ecc : EccFinding) : State :=
  let sel := bits.map (· != 0)
  let whole := bits.map (· == 0xFF)
  let s := (s.dramTouch line).chargeMem p.tenant.toNat line 128
  let words := (List.range 16).map (line / 8 + ·)
  let part := words.filter (fun w => touchesWord line sel w && !(fullWords line whole).contains w)
  -- a word covered in part is read before it is stored (R129)
  let s := match part with
    | w :: _ => s.eccFinding (8 * w) ecc
    | [] => s
  let f := (s.partialPoison line sel whole).map (fun w => (3, w, s.ueDetail w true))
  let old := s.readPa line 128
  let bs := (List.range 128).map (fun i =>
    let m := bits.getD i 0
    (sel.getD i false, (old.getD i 0 &&& ~~~m) ||| (data.getD i 0 &&& m)))
  -- a word merged into a marked word reads anew (R594)
  ((s.writeMerged line bs whole).readAs (part.filter (fun w => s.poison.contains w))).respond p false stOk .ack f

def State.homeWrite (s : State) (p : Packet) (pa : Nat) (bits data : List Byte) (ecc : EccFinding) : State :=
  let line := pa / 128 * 128
  match s.homeRefuses p.tenant.toNat line (some p.spkg.toNat) with
  | some (st, f) => s.respond p false st .ack (some f)
  | none => s.homePut p line bits data ecc

/-- R194, R195: part of a partial arrives at its home cluster's share of the partial pool; its request's TAG tells which it is (log 55). One that
no hub row waits for is dropped. -/
def State.poolWrite (s : State) (p : Packet) (line : Nat) (bits data : List Byte) (ecc : EccFinding) (home : Nat) (c : CmdRef) (pos n bytes : Nat) : State :=
  if (s.cluster home).hubs.any (fun h => h.c == c && h.pos == pos && h.running.contains n) then
    let s := s.homePut p line bits data ecc
    (s.modHub home c pos (fun h =>
      let k := tget h.arrived n 0 + bytes
      { h with arrived := tset h.arrived n k, running := if h.size ≤ k then h.running.filter (· != n) else h.running })).hubSettle home c pos
  else s.respond p false stOk .ack none

/-- A write of memory, or part of a partial. -/
def State.wrAt (s : State) (p : Packet) (line : Nat) (bits data : List Byte) (ecc : EccFinding) : State :=
  match tget? (s.die p.src).outst p.tag.toNat with
  | some o =>
    (match o.kind with
     | .partial_ home c pos n bytes => s.poolWrite p line bits data ecc home c pos n bytes
     | _ => s.homeWrite p line bits data ecc)
  | none => s.homeWrite p line bits data ecc

/-- A byte mask as the bits it writes. -/
def byteBits (mask : BitVec 128) : List Byte := (List.range 128).map (fun i => if mask.getLsbD i then 0xFF else 0)

/-! ### AMO (R112, R165, R166) -/

/-- The value an atomic stores, if it stores one. -/
def amoNew (fn w : Nat) (old a b : Nat) : Option Nat :=
  match fn with
  | 0 => some ((old + a) % 2 ^ w)
  | 1 => some (toF32 0 false (vAdd (f32Val (BitVec.ofNat 32 old)) (f32Val (BitVec.ofNat 32 a)))).1.toNat
  | 2 => some (if signed a w < signed old w then a % 2 ^ w else old)
  | 3 => some (if signed old w < signed a w then a % 2 ^ w else old)
  | 4 => some (min old (a % 2 ^ w))
  | 5 => some (max old (a % 2 ^ w))
  | 6 => some (old ||| (a % 2 ^ w))
  | _ => if old = b % 2 ^ w then some (a % 2 ^ w) else none

/-- An atomic performed on home memory: the old value, or the error it meets (status and fault). Its read may meet a single-bit error (log 80). -/
def State.amoAt (s : State) (tenant pa fn : Nat) (wide : Bool) (a b : Nat) (issued : Option Nat := none) : (Nat ⊕ (Nat × Option (Nat × Nat × Nat))) × State :=
  let n := if wide then 8 else 4
  match s.homeRefuses tenant pa issued with
  | some (st, f) => (.inr (st, some f), s)
  | none =>
    if paSpace pa ≠ 0 ∨ pa % n ≠ 0 then (.inr (stError, none), s)
    else
      let s := ((s.dramTouch pa).chargeMem tenant pa n).ceFoundAt pa
      match s.poisonIn pa n with
      | some w => (.inr (stError, some (3, w, s.ueDetail w false)), s)
      | none =>
        let old := leNat (s.readPa pa n)
        match amoNew fn (8 * n) old a b with
        | some v => (.inl old, s.writePa pa (leBytes n v))
        | none => (.inl old, s)

/-- AMO_PACKET (R165). -/
def execAmoPacket (pk : Packet) (s : State) : Out :=
  match pk.body with
  | .amo pa fn wide _ a b =>
    match s.arrive pk with
    | .notNext s => .next s
    | .answered s => .next s
    | .here s =>
      match s.amoAt pk.tenant.toNat pa.toNat fn.toNat wide a.toNat b.toNat (some pk.spkg.toNat) with
      | (.inl old, s) => .next (s.respond pk false stOk (.amorsp (BitVec.ofNat 64 old)) none)
      | (.inr (st, f), s) => .next (s.respond pk false st .ack f)
  | _ => .next s

end Sys2Proof.Machine
end

