-- ==== Sys2Proof/Machine/Signals.lean ====
section
/-! DEFINITION. Signal boxes (R309 to R337): requests as they arrive and are applied, waiters, CANCEL and the answers; core signals;
the block-section detector (R339 to R342). -/
set_option Elab.async false
namespace Sys2Proof.Machine

/-! ### Signals of a die -/

def State.signal (s : State) (d key : Nat) : Signal := tget (s.die d).signals key {}
def State.setSignal (s : State) (d key : Nat) (g : Signal) : State :=
  s.modDie d (fun x => { x with signals := tset x.signals key g })

/-- The fields of a SIG request. -/
structure SigAsk where
  key : Nat
  fn : SigFn
  value : BitVec 32
  src : BitVec 8
  writer : BitVec 23
  deadline : Nat
  vi : Nat

def sigAsk? (p : Packet) : Option SigAsk :=
  match p.body with
  | .sig addr fn v src w dl vi =>
    some { key := slotKey (paOff addr.toNat), fn := fn, value := v, src := src, writer := w, deadline := dl.toNat, vi := vi.toNat }
  | _ => none

/-- R312: a thread of the core signal's own thread processor. -/
def ofOwnTp (d : Nat) (a : SigAsk) : Bool :=
  decide (65536 ≤ a.key) && a.src.toNat == lwThread && thDie a.writer.toNat == d && thTp a.writer.toNat == (a.key - 65536) / 64

/-- R312, R321, R405: the signal as the request's tenant finds it: foreign, or its own (claimed by a first operation). -/
def State.sigFind (s : State) (d : Nat) (p : Packet) (a : SigAsk) : Option Signal :=
  let g := s.signal d a.key
  let t := p.tenant.toNat
  if !s.served (diePkg d) t then none
  else if t = 0 then some g
  else if g.owner = 0 ∧ ofOwnTp d a then some { g with owner := t }
  else if g.owner = t then some g
  else none

/-! ### Waiters (R328, R329) -/

def Waiter.cls (w : Waiter) : Nat := vcCls w.rq.vc.toNat
def Waiter.deadline (w : Waiter) : Nat := ((sigAsk? w.rq).map (·.deadline)).getD 0

/-- Class, then earlier deadline (insertion keeps arrival order among equals). -/
def waiterLt (a b : Waiter) : Bool := decide (a.cls < b.cls) || (a.cls == b.cls && decide (a.deadline < b.deadline))
def waiterOrder (l : List Waiter) : List Waiter := l.foldl (fun acc w => insertBy waiterLt w acc) []

/-- The answer of a wait that is satisfied or freed: status of R115 and COUNT. -/
def State.answerWait (s : State) (w : Packet) (status count : Nat) : State :=
  s.respond w false stOk (.sigrsp (BitVec.ofNat 64 status) (BitVec.ofNat 32 count)) none

/-- R329: waiters evaluated in order; each whose threshold COUNT meets is released. -/
def State.release (s : State) (d key : Nat) : List Waiter → State
  | [] => s
  | w :: r =>
    let g := s.signal d key
    if w.threshold.toNat ≤ g.count.toNat then
      let c := if w.take then g.count - w.threshold else g.count
      let s := s.setSignal d key { g with count := c, waiters := dropFirst (· == w) g.waiters }
      (s.answerWait w.rq 0 c.toNat).release d key r
    else s.release d key r

def State.evaluate (s : State) (d key : Nat) : State :=
  let s := s.release d key (waiterOrder (s.signal d key).waiters)
  if 65536 ≤ key then s.releaseCore d ((key - 65536) / 64) else s

/-! ### Requests -/

/-- SIG_PACKET (R310, R318, R320): a request joins the box's queue; an unpopulated slot ends in error. -/
def execSigPacket (pk : Packet) (s : State) : Out :=
  match pk.body with
  | .sig addr .. =>
    match s.arrive pk with
    | .notNext s => .next s
    | .answered s => .next s
    | .here s =>
      let a := addr.toNat
      if paSpace a ≠ 2 ∨ !paPopulated a ∨ a % 16 ≠ 0 then .next (s.respond pk false stError (.sigrsp 0 0) (some (5, a, 0)))
      else .next (s.modDie pk.dst (fun x => { x with sigQueue := x.sigQueue ++ [pk] }))
  | _ => .next s

/-- The oldest queued request of a die, if it has one of the functions and the box serves. -/
def State.sigHead (s : State) (d : Nat) (fns : List SigFn) : Option (Packet × SigAsk × State) :=
  if !s.dieUp d || !s.unitRuns d 0x39 then none
  else
    match (s.die d).sigQueue with
    | [] => none
    | p :: r =>
      match sigAsk? p with
      | some a => if fns.contains a.fn then some (p, a, s.modDie d (fun x => { x with sigQueue := r })) else none
      | none => none

/-- R322: a foreign request changes nothing. -/
def State.foreignSig (s : State) (p : Packet) : State := s.respond p false stForeign (.sigrsp 2 0) none

/-- R311: what SIG.ADD and SIG.SET make of a signal. -/
def sigAdded (g : Signal) (v : BitVec 32) : Signal :=
  { g with count := BitVec.ofNat 32 (min (g.count.toNat + v.toNat) (2 ^ 32 - 1)), sat := g.sat || decide (2 ^ 32 ≤ g.count.toNat + v.toNat) }
def sigSetTo (g : Signal) (v : BitVec 32) : Signal := { g with count := v, sat := false }

/-- R320: who wrote last. -/
def written (g : Signal) (a : SigAsk) : Signal := { g with lwSource := a.src, lastWriter := a.writer }

/-- A write applied: the signal changed, its waiters evaluated, the writer answered. -/
def State.applyWrite (s : State) (d : Nat) (fn : SigFn) (f : Signal → BitVec 32 → Signal) : Out :=
  match s.sigHead d [fn] with
  | none => .next s
  | some (p, a, s) =>
    match s.sigFind d p a with
    | none => .next (s.foreignSig p)
    | some g =>
      let s := s.setSignal d a.key (written (f g a.value) a)
      .next ((s.respond p false stOk (.sigrsp 0 0) none).evaluate d a.key)

/-- SIGNAL_ADD_APPLY (R311, R312, R321, R329). -/
def execSignalAddApply (die : BitVec 11) (s : State) : Out := s.applyWrite die.toNat .add sigAdded

/-- SIGNAL_SET_APPLY (R311, R312, R321, R329). -/
def execSignalSetApply (die : BitVec 11) (s : State) : Out := s.applyWrite die.toNat .set sigSetTo

/-- SIGNAL_READ_APPLY (R321, R322): a foreign read returns 0. -/
def execSignalReadApply (die : BitVec 11) (s : State) : Out :=
  let d := die.toNat
  match s.sigHead d [.read] with
  | none => .next s
  | some (p, a, s) =>
    match s.sigFind d p a with
    | none => .next (s.foreignSig p)
    | some g =>
      .next (((s.setSignal d a.key g).respond p false stOk (.sigrsp 0 g.count) none).evaluate d a.key)

/-- R330: the remote entries a die holds, and those of one VI of a package. -/
def remoteWaiters (x : Die) : List Waiter := (x.signals.map (fun e => e.2.waiters.filter (·.remote))).flatten

/-- R330: a wait that needs a remote entry finds one. -/
def remoteRoom (x : Die) (p : Packet) (vi : Nat) : Bool :=
  let l := remoteWaiters x
  decide (l.length < 4096) && decide ((l.filter (fun w => w.rq.spkg == p.spkg && ((sigAsk? w.rq).map (·.vi)).getD 0 == vi)).length < 256)

/-- Who waits, by the request's source kind. -/
def waiterRef (a : SigAsk) : WaiterRef :=
  if a.src.toNat = lwThread then .thread a.writer
  else .cmd ⟨BitVec.ofNat 8 (a.writer.toNat / 2 ^ 15), BitVec.ofNat 5 (a.writer.toNat / 16), BitVec.ofNat 4 a.writer.toNat, 0⟩

/-- SIGNAL_WAIT_ARRIVE (R328, R322, R330). -/
def execSignalWaitArrive (die : BitVec 11) (s : State) : Out :=
  let d := die.toNat
  match s.sigHead d [.wait, .take] with
  | none => .next s
  | some (p, a, s) =>
    match s.sigFind d p a with
    | none => .next (s.foreignSig p)
    | some g =>
      let take := a.fn == .take
      if a.value.toNat ≤ g.count.toNat then
        let c := if take then g.count - a.value else g.count
        .next (((s.setSignal d a.key { g with count := c }).answerWait p 0 c.toNat).evaluate d a.key)
      else
        let remote := p.src != d || a.src.toNat != lwThread
        if remote && !remoteRoom (s.die d) p a.vi then .next (s.respond p false stNoroom (.sigrsp 0 0) none)
        else
          let w : Waiter := { who := waiterRef a, take := take, threshold := a.value, remote := remote, rq := p }
          .next (s.setSignal d a.key { g with waiters := g.waiters ++ [w] })

/-- CANCEL_PACKET (R333): after every operation that arrived before it; the waiter is removed and CANCELLED answered, or it was
released and nothing is answered. -/
def execCancelPacket (pk : Packet) (s : State) : Out :=
  match pk.body with
  | .cancel wtag addr =>
    if (s.die pk.dst).sigQueue.any (fun p => ((sigAsk? p).map (·.key)) == some (slotKey (paOff addr.toNat))) then .next s
    else
      match s.arrive pk with
      | .notNext s => .next s
      | .answered s => .next s
      | .here s =>
        let key := slotKey (paOff addr.toNat)
        let g := s.signal pk.dst key
        let mine : Waiter → Bool := fun w => w.rq.src == pk.src && w.rq.tag == wtag
        if g.waiters.any mine then
          let s := s.setSignal pk.dst key { g with waiters := g.waiters.filter (fun w => !mine w) }
          .next ((s.respond pk false stCancelled (.sigrsp 1 g.count) none).evaluate pk.dst key)
        else .next s
  | _ => .next s

/-! ### Firmware's accesses to slots (R320), and RD and WR packets -/

/-- The signal status word (R320). -/
def slotStatus (g : Signal) : Nat :=
  g.owner % 4096 * 2 ^ 52 + b2n g.sat * 2 ^ 51 + g.waiters.length % 2 ^ 13 * 2 ^ 32 + g.lwSource.toNat * 2 ^ 24 + g.lastWriter.toNat

/-- The first byte that a mask selects. -/
def firstByte (mask : BitVec 128) : Nat := ((List.range 128).find? (fun i => mask.getLsbD i)).getD 0

/-- R310: an access of firmware to a slot comes after the operations on its signal that arrived before it. -/
def State.slotBusy (s : State) (p : Packet) (a : Nat) : Bool :=
  paSpace a == 2 && (s.die p.dst).sigQueue.any (fun q => ((sigAsk? q).map (·.key)) == some (slotKey (paOff a / 16 * 16)))

/-- R320: firmware (tenant 0) reads a slot: COUNT at offset 0, the status word at offset 8. -/
def State.slotRead (s : State) (p : Packet) (a : Nat) (sectors : BitVec 4) : State :=
  let g := s.signal p.dst (slotKey (paOff a / 16 * 16))
  let give (b : List Byte) : State := s.respond p false stOk (.data (BitVec.ofNat 52 a) sectors (overlay zeroLine (a % 128) b)) none
  if !paPopulated (a / 16 * 16) then s.respond p false stError .ack (some (5, a, 0))
  else if a % 16 = 0 then give (leBytes 4 g.count.toNat)
  else if a % 16 = 8 then give (leBytes 8 (slotStatus g))
  else s.respond p false stError .ack (some (5, a, 0))

/-- R320: firmware writes a slot: 4 bytes at offset 0 act as SIG.SET, at offset 4 as SIG.ADD; the source is 4, and the identity of the writer,
which R320 does not give, is a free value (log 93). -/
def State.slotWrite (s : State) (p : Packet) (a : Nat) (mask : BitVec 128) (data : List Byte) : State :=
  let key := slotKey (paOff a / 16 * 16)
  if !paPopulated (a / 16 * 16) ∨ !(a % 16 = 0 ∨ a % 16 = 4) ∨ mask ≠ byteMask (a % 128) 4 then s.respond p false stError .ack (some (5, a, 0))
  else
    let v := BitVec.ofNat 32 (leNat ((data.drop (a % 128)).take 4))
    let (w, s) := s.draw
    let g := s.signal p.dst key
    let g := { (if a % 16 = 0 then sigSetTo g v else sigAdded g v) with lwSource := BitVec.ofNat 8 lwFirmware, lastWriter := w.truncate 23 }
    ((s.setSignal p.dst key g).respond p false stOk .ack none).evaluate p.dst key

/-- RD_PACKET (R24, R131, R152, R320, R517). -/
def execRdPacket (pk : Packet) (ecc : EccFinding) (s : State) : Out :=
  match pk.body with
  | .rd pa sectors =>
    if s.slotBusy pk pa.toNat then .next s else
    match s.arrive pk with
    | .notNext s => .next s
    | .answered s => .next s
    | .here s =>
      let a := pa.toNat
      if paSpace a = 3 ∧ pk.tenant = 0 then
        match ctlAt (paOff a) with
        | .none => .next (s.respond pk false stError .ack (some (5, a, 0)))
        | c => .next (s.respond pk false stOk (.data pa sectors (overlay zeroLine (a % 128) (leBytes (ctlSize (paOff a)) (s.ctlRead pk.dst c)))) none)
      else if paSpace a = 2 ∧ pk.tenant = 0 then .next (s.slotRead pk a sectors)
      else .next (s.homeRead pk a sectors ecc)
  | _ => .next s

/-- WR_PACKET (R24, R131, R156, R204, R320, R517). -/
def execWrPacket (pk : Packet) (ecc : EccFinding) (s : State) : Out :=
  match pk.body with
  | .wr pa mask data _ =>
    if s.slotBusy pk (pa.toNat / 128 * 128 + firstByte mask) then .next s else
    match s.arrive pk with
    | .notNext s => .next s
    | .answered s => .next s
    | .here s =>
      let line := pa.toNat / 128 * 128
      if paSpace line = 3 ∧ pk.tenant = 0 then
        let first := firstByte mask
        let off := paOff line + first
        if mask = byteMask first (ctlSize off) ∧ ctlAt off ≠ .none then
          .next ((s.ctlWrite pk.dst (ctlAt off) (leNat ((data.drop first).take (ctlSize off)))).respond pk false stOk .ack none)
        else .next (s.respond pk false stError .ack (some (5, line + first, 0)))
      else if paSpace line = 2 ∧ pk.tenant = 0 then .next (s.slotWrite pk (line + firstByte mask) mask data)
      else .next (s.wrAt pk line (byteBits mask) data ecc)
  | .wrBits pa bits data =>
    match s.arrive pk with
    | .notNext s => .next s
    | .answered s => .next s
    | .here s => .next (s.homeWrite pk (pa.toNat / 128 * 128) bits data ecc)
  | _ => .next s

/-! ### Answers -/

/-- R322, R116: FLT_SIG_FOREIGN to the sender's VI, while it is still bound to the sending tenant. -/
def State.sigForeign (s : State) (d tenant vi : Nat) : State :=
  if s.viOf (diePkg d) tenant == some vi then s.event d vi fltSigForeign noUnit 0 else s

/-- R325: a posted signal write that no home applied. -/
def State.writeGone (s : State) (d tenant vi wkind waiter : Nat) (h : Word) : State :=
  s.sigEvent d { reason := srWriteGone, tenant := tenant, vi := vi, wkind := wkind, waiter := waiter, handle := h }

/-- R330: a wait answered NOROOM is due again 1 µs later; one whose timeout has passed ends. -/
def State.waitNoroom (s : State) (w : WaiterRef) : State :=
  match s.waitInfo w with
  | none => s
  | some i => if i.due = noTimeout then s.endWait w 1 srTimeout 0 else s.setWait w i.due (some (s.now i.die + tickUs))

/-- The answer to a wait. -/
def State.waitAnswer (s : State) (w : WaiterRef) (status : Nat) (code count : Nat) : State :=
  if status = stOk then (if code = 0 then s.endWait w 0 0 count else s.endWait w 1 srFreed count)
  else if status = stForeign then s.endWait w 2 0 0
  else if status = stCancelled then s.endWait w 1 srTimeout count
  else if status = stNoroom then s.waitNoroom w
  else s.endWait w 1 srGone 0

/-- A read's answer at its thread (R114, R322). -/
def State.readAnswer (s : State) (th : Nat) (status count : Nat) : State :=
  let t := s.thread th
  match t.wait with
  | .sigRead rd h =>
    if status = stOk ∨ status = stForeign then s.loadDone th rd (BitVec.ofNat 64 (if status = stOk then count else 0)) true
    else (s.setThread th { t with wait := .none }).raise th cAccessError h
  | _ => s

/-- What a signal answer does at the die that asked. -/
def State.sigAnswer (s : State) (d : Nat) (o : Outst) (status code count : Nat) : State :=
  match o.kind with
  | .sigPost wkind w h =>
    let s := if status = stForeign then s.sigForeign d o.tenant o.vi
      else if status = stGone then s.writeGone d o.tenant o.vi wkind w.toNat h else s
    if wkind = 0 then s.progress w.toNat else s
  | .ringSig c h =>
    let s := if status = stForeign then s.sigForeign d o.tenant o.vi
      else if status = stGone then s.writeGone d o.tenant o.vi 1 c.r h else s
    s.writeEntry c
  | .sigRead th =>
    let s := if status = stForeign then s.sigForeign d o.tenant o.vi else s
    s.readAnswer th.toNat status count
  | .sigWait w => s.waitAnswer w status code count
  | .sigSetCmd c =>
    let s := if status = stForeign then s.sigForeign d o.tenant o.vi else s
    if status = stOk then s.finishCmd c 0 (ringResult 0 0 0 0)
    else s.finishCmd c 2 (ringResult 2 (if status = stForeign then 3 else 1) 0 0)
  | _ => s

/-- SIGRSP_PACKET (R377, R333). -/
def execSigrspPacket (pk : Packet) (s : State) : Out :=
  match pk.body with
  | .sigrsp code count =>
    match s.reply pk with
    | .notNext s => .next s
    | .dropped s => .next s
    | .matched o s => .next (s.sigAnswer pk.dst o pk.status.toNat code.toNat count.toNat)
  | _ => .next s

/-- CORE_SIGNAL_RELEASE (R313). -/
def execCoreSignalRelease (die : BitVec 11) (idx : BitVec 16) (s : State) : Out :=
  if idx.toNat < 8192 then .next (s.releaseCore die.toNat (idx.toNat / 64)) else .next s

/-! ### The block-section detector (R339 to R342) -/

/-- A member of a scope: its number, the signal it waits on (none for a HALTED thread, or one that is not blocked). -/
structure Member where
  id : Nat
  cmd : Bool
  halted : Bool
  blocked : Bool
  handle : Word
  deriving DecidableEq, Repr

/-- R340: the members of a tenant's scope on a die: its threads, by number, then the SIG_WAIT commands of its VI of this package. -/
def State.members (s : State) (d tenant : Nat) : List Member :=
  (s.threads.filter (fun e => thDie e.1 == d && e.2.st != .free && e.2.tenant == tenant)).map (fun e =>
    match e.2.wait with
    | .sig _ _ h _ _ _ _ _ _ _ => ⟨e.1, false, false, true, h⟩
    | _ => ⟨e.1, false, e.2.st == .halted, e.2.st == .halted, 0⟩) ++
  ((s.die d).signals.map (fun e => (e.2.waiters.filter (fun w => w.remote && w.rq.tenant.toNat == tenant && w.rq.spkg.toNat == diePkg d)).filterMap (fun w =>
    match w.who with
    | .cmd c => some ⟨2 ^ 24 + c.r, true, false, true, mkHandle (if e.1 < 65536 then 1 else 2) (s.die d).epoch.toNat d (e.1 % 65536)⟩
    | .thread _ => none))).flatten

/-- R341: the edge of a blocked waiter: the thread that wrote its signal last, when that is a blocked member. -/
def State.edge (s : State) (ms : List Member) (m : Member) : Option Member :=
  if m.halted || !m.blocked then none
  else
    let g := s.signal (hDie m.handle) (hKey m.handle)
    if g.lwSource.toNat = lwThread then ms.find? (fun n => !n.cmd && n.blocked && n.id == g.lastWriter.toNat) else none

/-- The cycle through a member, if following edges comes back to it. -/
def State.cycleFrom (s : State) (ms : List Member) (start cur : Member) : Nat → List Member → Option (List Member)
  | 0, _ => none
  | n + 1, acc =>
    match s.edge ms cur with
    | none => none
    | some m => if m == start then some (acc ++ [cur]) else s.cycleFrom ms start m n (acc ++ [cur])

/-- R342: the two words of an entry. -/
def entryWords (m : Member) : List Word :=
  [BitVec.ofNat 64 (if m.cmd then 2 ^ 24 + m.id % 16 else b2n m.halted * 2 ^ 23 + m.id % 2 ^ 23), m.handle]

/-- R342: the sixteen words of a report. -/
def reportWords (d epoch tenant vi tick : Nat) (blocked cyc : Nat) (named : List Member) : List Word :=
  let es := named.take 7
  let l := [BitVec.ofNat 64 (tenant % 4096 * 2 ^ 52 + vi % 32 * 2 ^ 47 + d % 8 * 2 ^ 44 + epoch % 256 * 2 ^ 36 + blocked % 2 ^ 13 * 2 ^ 23 +
      es.length * 2 ^ 20 + cyc % 2 ^ 16 * 16), BitVec.ofNat 64 tick] ++ (es.map entryWords).flatten
  l ++ List.replicate (16 - l.length) 0

/-- One tenant's scope at a scan. -/
def State.scanTenant (s : State) (d tenant : Nat) : State :=
  let ms := s.members d tenant
  let snap := ms.map (fun m => (m.id, m.handle))
  let x := s.die d
  if ms.isEmpty || !ms.all (·.blocked) then s.scopeChanged d tenant
  else if tget? x.scopes tenant != some snap then s.modDie d (fun x => { x with scopes := tset x.scopes tenant snap, reported := terase x.reported tenant })
  else if tget? x.reported tenant == some snap then s
  else
    let cyc := ms.findSome? (fun m => if m.cmd then none else s.cycleFrom ms m m ms.length [])
    let named := match cyc with | some l => l | none => ms
    let len := match cyc with | some l => l.length | none => 0
    let vi := (s.viOf (diePkg d) tenant).getD 0
    let (q, dr) := pushQ 16 x.reports x.repDropped (reportWords (dieNo d) x.epoch.toNat tenant vi (s.now d) ms.length len named)
    (s.setDie d { x with reports := q, repDropped := dr, reported := tset x.reported tenant snap }).event d vi evBlockSection noUnit len

/-- BLOCK_SECTION_SCAN (R339 to R342): once per scan period, unless it is off. -/
def execBlockSectionScan (die : BitVec 11) (s : State) : Out :=
  let d := die.toNat
  let x := s.die d
  if !s.dieUp d || x.scanMs = 0 || !after (s.now d) x.lastScan (x.scanMs * tickMs) then .next s
  else
    let s := s.modDie d (fun x => { x with lastScan := s.now d })
    let tenants := ((s.threads.filter (fun e => thDie e.1 == d && e.2.st != .free)).map (fun e => e.2.tenant) ++
      (remoteWaiters x).map (fun w => w.rq.tenant.toNat)).eraseDups
    .next ((tenants.filter (· != 0)).foldl (fun s t => s.scanTenant d t) s)

end Sys2Proof.Machine
end

