-- ==== Sys2Proof/Machine/Cmds.lean ====
section
/-! DEFINITION. Ring commands as they start (R488, R489, R493), and those that need no unit: NOP, SIG_SET, SIG_WAIT, TRAVEL_POLICY and
FENCE (R326, R327, R492). -/
set_option Elab.async false
namespace Sys2Proof.Machine

/-- R488: opcodes whose word 3 holds a DIEMASK, and those that name one die. -/
def usesMask (op : Nat) : Bool := [1, 2, 5, 10, 11].contains op
def usesDie (op : Nat) : Bool := [3, 4, 6, 7].contains op

/-- The signal that R489 wants valid. -/
def badSignal (k : RCmd) : Bool :=
  let op := k.opcode
  if op = 8 ∨ op = 9 then !handleValid k.signal else k.sigen && !handleValid k.signal

/-- R489: a command completes as REFUSED and performs nothing. -/
def State.refuses (s : State) (c : CmdRef) (k : RCmd) : Bool :=
  let op := k.opcode
  decide (12 < op) || (s.vi c.p c.v).st != .bound || badSignal k ||
  (usesMask op && k.dies.isEmpty) || (usesDie op && !s.dieUp (c.p * 8 + k.dieField)) ||
  (op == 7 && decide (8 < bits (k.word 3) 56 4)) || (op == 1 && bits (k.word 3) 54 2 == 3)

/-- A command of one opcode starts, or is refused; nothing while it may not start (log 1). -/
def startCmd (s : State) (c : CmdRef) (op : Nat) (f : RCmd → State → State) : Out :=
  match s.rcmd? c with
  | none => .next s
  | some k =>
    if k.opcode ≠ op ∨ !s.canStart c then .next s
    else if s.refuses c k then .next (s.finishCmd c 3 (refusedResult op))
    else .next (f k (s.modCmd c (fun k => { k with started := true })))

/-- R498: earlier commands of the ring not yet completed. -/
def State.before (s : State) (c : CmdRef) : List RCmd := (s.ring c.p c.v c.r).held.takeWhile (fun k => k.idx != c.idx)

/-- The state in which a command's start has recorded its work. -/
def State.setWork (s : State) (c : CmdRef) (w : Work) : State := s.modCmd c (fun k => { k with work := w })

/-- NOP_COMMAND (R492): it completes at once; a command of an unassigned opcode is REFUSED here (R489, log 22). -/
def execNopCommand (cmd : CmdRef) (s : State) : Out :=
  match s.rcmd? cmd with
  | none => .next s
  | some k =>
    if (k.opcode ≠ 0 ∧ k.opcode ≤ 12) ∨ !s.canStart cmd then .next s
    else if s.refuses cmd k then .next (s.finishCmd cmd 3 (refusedResult k.opcode))
    else .next (s.finishCmd cmd 0 (ringResult 0 0 0 0))

/-- TRAVEL_POLICY (R492): QLIMIT on each die of the mask, at most 16. -/
def execTravelPolicy (cmd : CmdRef) (s : State) : Out :=
  startCmd s cmd 2 (fun k s =>
    let q := min (bits (k.word 2) 0 5) 16
    let s := k.dies.foldl (fun s d => s.modDie (cmd.p * 8 + d) (fun x => { x with qLimit := tset x.qLimit cmd.v q })) s
    s.finishCmd cmd 0 (ringResult 0 0 0 0))

/-- R320: what names a ring in LAST_WRITER. -/
def ringWriter (c : CmdRef) : Nat := c.p * 2 ^ 15 + c.v * 16 + c.r

/-- SIG_SET_COMMAND (R326): the write leaves once every earlier command of the ring has completed. -/
def execSigSetCommand (cmd : CmdRef) (s : State) : Out :=
  if !(s.before cmd).isEmpty then .next s
  else startCmd s cmd 8 (fun k s =>
    let h := k.signal
    (s.setWork cmd .sigSet).sendSig (s.cmdDie cmd k) (.sigSetCmd cmd) (s.vi cmd.p cmd.v).tenant cmd.v k.cls k.deadline (hDie h) (hKey h) (hEpoch h)
      (if k.sigop then .set else .add) k.sigval lwRing (ringWriter cmd))

/-- SIG_WAIT_COMMAND (R327, R331): it waits or takes. -/
def execSigWaitCommand (cmd : CmdRef) (s : State) : Out :=
  startCmd s cmd 9 (fun k s =>
    let us := waitUs (s.vi cmd.p cmd.v).timeoutUs k.swTimeout
    let s := s.setWork cmd (.sigWait (waitDue (s.pkg cmd.p).tick us) us none)
    match s.waitInfo (.cmd cmd) with
    | some i => s.sendWait (.cmd cmd) i
    | none => s)

/-- R492 FENCE: every earlier command of the ring has completed, or with ALLRINGS every command of the VI accepted before it. -/
def State.fencePassed (s : State) (c : CmdRef) (k : RCmd) : Bool :=
  if bit (k.word 2) 0 then
    (s.vi c.p c.v).rings.all (fun g => g.2.held.all (fun e => decide (k.order ≤ e.order)))
  else (s.before c).isEmpty

/-- FENCE_COMMAND (R492). -/
def execFenceCommand (cmd : CmdRef) (s : State) : Out :=
  match s.rcmd? cmd with
  | none => .next s
  | some k =>
    if k.opcode ≠ 12 ∨ !s.canStart cmd then .next s
    else if s.refuses cmd k then .next (s.finishCmd cmd 3 (refusedResult 12))
    else if s.fencePassed cmd k then .next (s.finishCmd cmd 0 (ringResult 0 0 0 0))
    else .next s

end Sys2Proof.Machine
end

