-- ==== Sys2Proof/Machine/Travel.lean ====
section
/-! DEFINITION. Launches and placement (R77 to R79, R492) and travelling threads (R80 to R90, R163, R381, R405, R553, R593). -/
set_option Elab.async false
namespace Sys2Proof.Machine

/-! ### Contexts -/

/-- FREE contexts of a thread processor and of a cluster, as ledger 6 counts them. -/
def freeTp (x : Cluster) (tp : Nat) : Nat := tget x.ctxFree tp 32
def freeCl (x : Cluster) : Nat := freeTp x 0 + freeTp x 1 + freeTp x 2 + freeTp x 3

/-- The number below n with the largest value, the lowest among equals, if that value is above 0. -/
def bestOf (f : Nat → Nat) (n : Nat) : Option Nat :=
  (List.range n).foldl (fun b i => match b with
    | none => if 0 < f i then some i else none
    | some j => if f j < f i then some i else some j) none

/-- R78: the context that a thread placed on a die takes: the cluster, then the thread processor, with the most FREE contexts, then
the lowest FREE slot. -/
def State.findContext (s : State) (d : Nat) : Option Nat :=
  match bestOf (fun c => if s.unitOpen d c then freeCl (s.cluster (d * 32 + c)) else 0) 32 with
  | none => none
  | some c =>
    match bestOf (freeTp (s.cluster (d * 32 + c))) 4 with
    | none => none
    | some tp =>
      let base := (d * 32 + c) * 128 + tp * 32
      ((List.range 32).find? (fun k => (s.thread (base + k)).st == .free)).map (base + ·)

/-- FREE contexts of a die. -/
def State.freeOn (s : State) (d : Nat) : Nat :=
  (List.range 32).foldl (fun n c => n + (if s.unitOpen d c then freeCl (s.cluster (d * 32 + c)) else 0)) 0

/-- A context is taken by a thread; its travel count stays (R81). -/
def State.takeContext (s : State) (th : Nat) (t : Thread) : State :=
  let old := s.thread th
  let s := s.setThread th { t with travelCount := old.travelCount }
  let s := s.modCluster (thCluster th) (fun c => { c with
    ctxFree := tset c.ctxFree (th / 32 % 4) (tget c.ctxFree (th / 32 % 4) 32 - 1), ages := tset c.ages (th % 128) c.issues })
  s.scopeChanged (thDie th) t.tenant

/-! ### Launch -/

/-- Fields of LAUNCH (R488). -/
def RCmd.launchCount (k : RCmd) : Nat := bits (k.word 2) 0 32
def RCmd.launchMode (k : RCmd) : Nat := bits (k.word 3) 54 2
def RCmd.launchEntry (k : RCmd) : BitVec 48 := BitVec.ofNat 48 (k.word 3)
def RCmd.launchTrap (k : RCmd) : BitVec 48 := BitVec.ofNat 48 (k.word 4)

/-- R78 OWNER: the die of the package that owns virtual address t0 + i × STRIDE, if it is in the mask. -/
def State.ownerDie (s : State) (c : CmdRef) (k : RCmd) (i : Nat) : Option Nat :=
  let va := (k.word 5 + i * k.word 6) % 2 ^ 64
  if 2 ^ 48 ≤ va then none
  else
    match xlatOf (s.walk c.p c.v (va / 2 ^ 25)) va with
    | none => none
    | some x =>
      let d := paDie x.pa
      if d / 8 = c.p ∧ k.dies.contains (d % 8) then some (d % 8) else none

/-- R78: the die on which thread i is to be placed; none while a PACK launch finds no FREE context. -/
def State.launchDie (s : State) (c : CmdRef) (k : RCmd) (i : Nat) : Option Nat :=
  match k.launchMode with
  | 0 => k.dies[i % k.dies.length]?
  | 1 => k.dies.find? (fun d => decide (0 < s.freeOn (c.p * 8 + d)))
  | _ => s.ownerDie c k i

/-- R77: the state in which thread i starts. -/
def launched (c : CmdRef) (k : RCmd) (tenant i : Nat) : Thread :=
  { st := .running, tenant := tenant, vi := c.v, cls := k.cls, deadline := k.deadline, pc := k.launchEntry, trapPc := k.launchTrap,
    t := [BitVec.ofNat 64 (k.word 5), BitVec.ofNat 64 i, BitVec.ofNat 64 k.launchCount] ++ List.replicate 13 0, launch := some c }

/-- R79: threads of an OWNER launch that name no die of the mask are refused, in ascending order, until one is to be placed. -/
def State.skipRefused (s : State) (c : CmdRef) (k : RCmd) (i refused : Nat) : Nat → Nat × Nat
  | 0 => (i, refused)
  | n + 1 =>
    if k.launchMode = 2 ∧ s.ownerDie c k i = none then s.skipRefused c k (i + 1) (refused + 1) n else (i, refused)

def State.launchSkip (s : State) (c : CmdRef) : State :=
  match s.rcmd? c with
  | some k =>
    match k.work with
    | .launch count next live ended endErr refused =>
      let (i, r) := s.skipRefused c k next refused (count - next)
      (s.setWork c (.launch count i live ended endErr r)).launchDone c
    | _ => s
  | none => s

/-- LAUNCH (R492, R77 to R79): its threads are then placed one by one. -/
def execLaunch (cmd : CmdRef) (s : State) : Out :=
  startCmd s cmd 1 (fun k s => (s.setWork cmd (.launch k.launchCount 0 0 0 0 0)).launchSkip cmd)

/-- The launches of a package that have a thread to place. -/
def State.launchesOf (s : State) (p : Nat) : List (CmdRef × RCmd × Nat) :=
  ((s.pkg p).vis.map (fun v => (s.viCmds p v.1).filterMap (fun c =>
    match s.rcmd? c with
    | some k =>
      match k.work with
      | .launch count next .. => if next < count ∧ k.result.isNone then some (c, k, next) else none
      | _ => none
    | none => none))).flatten

/-- Class, then deadline (earlier entries first among equals: ring order, R79). -/
def clsDl (c1 d1 c2 d2 : Nat) : Bool := decide (c1 < c2) || (c1 == c2 && decide (d1 < d2))

/-- R79: the first waiting launch of a die. -/
def State.firstLaunch (s : State) (d : Nat) : Option (CmdRef × RCmd × Nat) :=
  minBy (fun a b => clsDl a.2.1.cls a.2.1.deadline b.2.1.cls b.2.1.deadline)
    ((s.launchesOf (diePkg d)).filter (fun e => s.launchDie e.1 e.2.1 e.2.2 == some (dieNo d)))

/-- R83: the first queued ticket of a die. -/
def firstTicket (x : Die) : Option QTicket :=
  minBy (fun a b => clsDl a.cls a.env.deadline.toNat b.cls b.env.deadline.toNat) x.arrivals

/-- R83: the queued ticket goes before the waiting launch: it wins a tie. -/
def ticketFirst (q : Option QTicket) (l : Option (CmdRef × RCmd × Nat)) : Bool :=
  match q, l with
  | none, _ => false
  | some _, none => true
  | some q, some (_, k, _) => !clsDl k.cls k.deadline q.cls q.env.deadline.toNat

/-- R79: every waiting launch of a package refuses the threads that now name no die of its mask. -/
def State.launchSkips (s : State) (p : Nat) : State := (s.launchesOf p).foldl (fun s e => s.launchSkip e.1) s

/-- LAUNCH_PLACE_THREAD (R78, R79, R83). -/
def execLaunchPlaceThread (die : BitVec 11) (s : State) : Out :=
  let d := die.toNat
  if !s.dieUp d then .next s
  else
    let s := s.launchSkips (diePkg d)
    match s.firstLaunch d, s.findContext d with
    | some (c, k, i), some th =>
      if ticketFirst (firstTicket (s.die d)) (some (c, k, i)) then .next s
      else
        let s := s.takeContext th (launched c k (s.vi c.p c.v).tenant i)
        let s := s.modCmd c (fun k =>
          match k.work with
          | .launch count next live ended endErr refused => { k with work := .launch count (next + 1) (live + 1) ended endErr refused }
          | _ => k)
        .next (s.launchSkip c)
    | _, _ => .next s

/-! ### Arrivals -/

/-- R31, R32, R85: the envelope's class, lowered to the ceiling of the tenant's VI. -/
def arrivalCls (env : Envelope) (ceiling : Nat) : Nat := max (min env.cls.toNat 2) ceiling

/-- R84: the thread that a ticket becomes; t15 holds ARRIVED. -/
def arrived (q : QTicket) (trapPc : BitVec 48) : Thread :=
  { st := .running, tenant := q.tenant, vi := q.vi, cls := q.cls, deadline := q.env.deadline.toNat, pc := q.t.resumePc, cond := q.t.cond,
    t := q.t.t.take 15 ++ [0], l := q.t.l, p := q.t.p, trapPc := trapPc, launch := q.launch, origin := some (q.env.origin, q.oepoch, q.env.travelNo) }

/-- R84, R121, R163: the thread enters a context; its acquire is made in the target cluster. -/
def State.enter (s : State) (th : Nat) (q : QTicket) : State :=
  let s := s.takeContext th (arrived q (s.vi (diePkg (thDie th)) q.vi).trapPc)
  s.acquire (thCluster th) q.tenant q.cls

/-- ARRIVAL_QUEUE_ENTER (R83). -/
def execArrivalQueueEnter (die : BitVec 11) (s : State) : Out :=
  let d := die.toNat
  if !s.dieUp d then .next s
  else
    match firstTicket (s.die d), s.findContext d with
    | some q, some th =>
      if ticketFirst (some q) (s.firstLaunch d) then
        .next ((s.modDie d (fun x => { x with arrivals := dropFirst (· == q) x.arrivals })).enter th q)
      else .next s
    | _, _ => .next s

/-- The travel that a ticket or a query names (R359). -/
def sameTravel (o : BitVec 23) (e : BitVec 8) (n : BitVec 32) (a : Journey) : Bool :=
  a.1 == o && a.2.1 == e && a.2.2 == n

def State.seenNot (s : State) (d : Nat) (o : BitVec 23) (e : BitVec 8) (n : BitVec 32) : Bool :=
  (s.die d).notSeen.any (fun a => sameTravel o e n (a.1, a.2.1, a.2.2.1))

/-- R83: room in the arrival queue for a VI. -/
def queueRoom (x : Die) (vi : Nat) : Bool :=
  decide (x.arrivals.length < 64) && decide ((x.arrivals.filter (fun q => q.vi == vi)).length < tget x.qLimit vi 16)

/-- TICKET_PACKET (R83 to R88, R405, R381). -/
def execTicketPacket (pk : Packet) (s : State) : Out :=
  match pk.body with
  | .ticket env t =>
    match s.arrive pk with
    | .notNext s => .next s
    | .answered s => .next s
    | .here s =>
      let d := pk.dst
      let answer (s : State) (st : Nat) : State := s.respond pk false st (.trsp env.origin env.travelNo) none
      if s.seenNot d env.origin pk.sepoch env.travelNo then .next (answer s stNotSeen)
      else
        match s.viOf (diePkg d) pk.tenant.toNat with
        | none => .next (answer s stGone)
        | some v =>
          let o := s.thread env.origin.toNat
          let q : QTicket := {
            env := env, t := t, tenant := pk.tenant.toNat, vi := v, cls := arrivalCls env (s.vi (diePkg d) v).ceiling, oepoch := pk.sepoch,
            launch := if s.holdsTravel (env.origin, pk.sepoch, env.travelNo) then o.launch else none }
          let note (s : State) : State := s.modDie d (fun x => { x with accepted := (env.origin, pk.sepoch, env.travelNo) :: x.accepted })
          match s.findContext d with
          | some th => .next (answer ((note s).enter th q) stArrived)
          | none =>
            if queueRoom (s.die d) v then .next (answer ((note s).modDie d (fun x => { x with arrivals := x.arrivals ++ [q] })) stArrived)
            else .next (answer s stFull)
  | _ => .next s

/-- TQUERY_PACKET (R381): ARRIVED, or NOT_SEEN with a record that refuses a late ticket. -/
def execTqueryPacket (pk : Packet) (s : State) : Out :=
  match pk.body with
  | .tquery origin oepoch no =>
    match s.arrive pk with
    | .notNext s => .next s
    | .answered s => .next s
    | .here s =>
      let d := pk.dst
      if (s.die d).accepted.any (sameTravel origin oepoch no) then .next (s.respond pk false stArrived (.trsp origin no) none)
      else
        let s := s.modDie d (fun x => { x with
          notSeen := (origin, oepoch, no, s.now d) :: x.notSeen.filter (fun a => !sameTravel origin oepoch no (a.1, a.2.1, a.2.2.1)) })
        .next (s.respond pk false stNotSeen (.trsp origin no) none)
  | _ => .next s

/-! ### The origin's side -/

/-- R359: the travelling context that a TRSP names. -/
def State.travelOf (s : State) (d : Nat) (origin : BitVec 23) (no : BitVec 32) : Bool :=
  let t := s.thread origin.toNat
  thDie origin.toNat == d && t.st == .travelling && t.travelCount == no

/-- The travel's own requests are forgotten once it has ended. -/
def State.endTravelTags (s : State) (d : Nat) (th : BitVec 23) : State :=
  let tags := ((s.die d).outst.filter (fun e => e.2.kind == .travel th || e.2.kind == .tquery th)).map (·.1)
  let s := s.modDie d (fun x => { x with sendQ := x.sendQ.filter (fun e => !(e.1.kind == .travel th || e.1.kind == .tquery th)) })
  tags.foldl (fun s t => s.retire d t) s

/-- R84, R87, R381: a travel ends by a TRSP: ARRIVED frees the origin's context; any other status resumes the thread there. -/
def State.travelEnd (s : State) (d : Nat) (th : BitVec 23) (status : Nat) : State :=
  let s := s.endTravelTags d th
  if status = stArrived then s.freeThread th.toNat
  else s.modThread th.toNat (fun t => resumeAt { t with pc := t.tPc } (if status = stFull then 4 else 3))

/-- TRSP_PACKET (R87, R377, R359): matched by TAG and by the travel it names; a query answered GONE leaves the travel held (log 23). -/
def execTrspPacket (pk : Packet) (s : State) : Out :=
  match pk.body with
  | .trsp origin no =>
    let s := s.bring pk
    if !s.isNext pk then .next s
    else
      let d := pk.dst
      let named := match tget? (s.die d).outst pk.tag.toNat with
        | some o => (o.kind == .travel origin || o.kind == .tquery origin) && s.travelOf d origin no
        | none => false
      if !named then .next ((s.take pk).staleRsp d)
      else
        match s.reply pk with
        | .notNext s => .next s
        | .dropped s => .next s
        | .matched o s =>
          if o.kind == .tquery origin && pk.status.toNat == stGone then .next s
          else .next (s.travelEnd d origin pk.status.toNat)
  | _ => .next s

/-- TRAVEL_QUERY_TIMER (R381): every 1 ms without a TRSP. -/
def execTravelQueryTimer (th : BitVec 23) (s : State) : Out :=
  let n := th.toNat
  let t := s.thread n
  let d := thDie n
  if t.st != .travelling || !s.dieUp d || !after (s.now d) t.tQuery tickMs then .next s
  else
    let target := t.tPkg * 8 + t.tDie
    let s := s.setThread n { t with tQuery := s.now d }
    let p := s.request d t.tenant t.cls t.deadline target 0 (.tquery th (s.die d).epoch t.travelCount)
    match freeTag (s.die d) with
    | none => .next s
    | some tag =>
      .next (s.emit d tag { kind := .tquery th, tenant := t.tenant, vi := t.vi, cls := t.cls, dpkg := t.tPkg, ddie := t.tDie,
                            depoch := t.tEpoch, pepoch := p.pepoch } { p with depoch := t.tEpoch })

/-- TICKET_HELD_TIMER (R381). -/
def execTicketHeldTimer (th : BitVec 23) (s : State) : Out :=
  let n := th.toNat
  let t := s.thread n
  let d := thDie n
  if t.st != .travelling || t.tHeld || !s.dieUp d || !after (s.now d) t.tStart (10 * tickMs) then .next s
  else .next ((s.setThread n { t with tHeld := true }).event d t.vi evTicketHeld noUnit n)

/-- NOT_SEEN_RECORD_EXPIRE (R381): records of 10 ms and more. -/
def execNotSeenRecordExpire (die : BitVec 11) (s : State) : Out :=
  let d := die.toNat
  .next (s.modDie d (fun x => { x with notSeen := x.notSeen.filter (fun a => !after (s.now d) a.2.2.2 (10 * tickMs)) }))

/-- R89: a travel lost with its target: the record, and the thread ended in error. -/
def State.ticketLost (s : State) (th : BitVec 23) : State :=
  let n := th.toNat
  let t := s.thread n
  let s := s.endTravelTags (thDie n) th
  (s.threadFault n 2 t.tPc.toNat 0 0 0 t.tVa).endThread n true

/-- TRAVEL_RESET_WAIT_EXPIRE (R553, R89). -/
def execTravelResetWaitExpire (th : BitVec 23) (s : State) : Out :=
  let n := th.toNat
  let t := s.thread n
  match t.tReset with
  | none => .next s
  | some since =>
    if t.st != .travelling || !s.dieUp (thDie n) || !after (s.now (thDie n)) since tickMs then .next s
    else .next (s.ticketLost th)

end Sys2Proof.Machine
end

