-- ==== Sys2Proof/Machine/Units.lean ====
section
/-! DEFINITION. What the engines share (R591): checked virtual ranges, and the writes of a
unit's command. -/
set_option Elab.async false
namespace Sys2Proof.Machine

def dmaUnit (e : Nat) : Nat := 0x28 + e

/-- R408: the FILL of zeros, to a physical range of n bytes, that an engine performs for a scrub (R388). -/
def scrubDesc (lo n : Nat) : List Word :=
  [BitVec.ofNat 64 (2 ^ 60 + 2 ^ 56 + 1), 0, BitVec.ofNat 64 lo, 0, BitVec.ofNat 64 (n * 2 ^ 32)] ++ List.replicate 11 0

/-! ### Checked ranges -/

/-- The lines of a virtual range, translated with a right: physical address and length of each part, or why not. -/
def State.checkVa (s : State) (u : XUnit) (tenant v : Nat) (write : Bool) (va n : Nat) : Nat → (List (Nat × Nat) ⊕ AccErr) × State
  | 0 => (.inl [], s)
  | fuel + 1 =>
    if n = 0 then (.inl [], s) else
    let k := lineSpan va n
    match s.xlat u tenant v va with
    | (none, s) => (.inr .unmapped, s)
    | (some x, s) =>
      if !(if write then entryWr x.entry else entryRd x.entry) then (.inr .rights, s)
      else
        match s.checkVa u tenant v write (va + k) (n - k) fuel with
        | (.inl r, s) => (.inl ((x.pa, k) :: r), s)
        | (.inr e, s) => (.inr e, s)

/-- The bytes a counted write of a part, or a part of a partial, carries. -/
def partKind (kind : OKind) (n : Nat) : OKind :=
  match kind with
  | .unitWrite c desc k => .unitWrite c desc (k * n)
  | .partial_ home c pos i k => .partial_ home c pos i (k * n)
  | k => k

/-- One write request of a part of a line: for each byte the bits written, and the byte. -/
def State.sendPart (s : State) (d : Nat) (kind : OKind) (tenant v cls deadline pa : Nat) (bs : List (Byte × Byte)) : State :=
  if bs.all (fun b => b.1 == 0) then s
  else
    let off := pa % 128
    let bits := List.replicate off 0 ++ bs.map (·.1) ++ List.replicate (128 - off - bs.length) 0
    let data := List.replicate off 0 ++ bs.map (·.2) ++ List.replicate (128 - off - bs.length) 0
    let mask : Nat := (bits.zipIdx.filter (·.1 != 0)).foldl (fun m e => m + 2 ^ e.2) 0
    let line := BitVec.ofNat 52 (pa - off)
    s.send d (partKind kind bs.length) tenant v cls deadline (paDie pa)
      (if bs.all (fun b => b.1 == 0 || b.1 == 0xFF) then .wr line (BitVec.ofNat 128 mask) data false else .wrBits line bits data)

def State.sendParts (s : State) (d : Nat) (kind : OKind) (tenant v cls deadline : Nat) : List (Nat × Nat) → List (Byte × Byte) → State
  | [], _ => s
  | (pa, k) :: r, bs => (s.sendPart d kind tenant v cls deadline pa (bs.take k)).sendParts d kind tenant v cls deadline r (bs.drop k)

/-- A unit writes selected bits of tenant memory: nothing unless every part of the range translates with WR. -/
def State.writeVaBits (s : State) (u : XUnit) (kind : OKind) (tenant v cls deadline va : Nat) (bs : List (Byte × Byte)) : Option AccErr × State :=
  match s.checkVa u tenant v true va bs.length (bs.length / 128 + 2) with
  | (.inr e, s) => (some e, s)
  | (.inl parts, s) => (none, s.sendParts u.die kind tenant v cls deadline parts bs)

/-- Selected bytes as bits. -/
def selBits (bs : List (Bool × Byte)) : List (Byte × Byte) := bs.map (fun b => (if b.1 then 0xFF else 0, b.2))

def State.writeVaSel (s : State) (u : XUnit) (kind : OKind) (tenant v cls deadline va : Nat) (bs : List (Bool × Byte)) : Option AccErr × State :=
  s.writeVaBits u kind tenant v cls deadline va (selBits bs)

def State.writeVa (s : State) (u : XUnit) (kind : OKind) (tenant v cls deadline va : Nat) (bytes : List Byte) : Option AccErr × State :=
  s.writeVaSel u kind tenant v cls deadline va (bytes.map (fun b => (true, b)))

/-- A unit reads n bytes of tenant memory, from home memory in the step (log 9). -/
def State.readBytes (s : State) (u : XUnit) (tenant v va n : Nat) : (List Byte ⊕ AccErr) × State :=
  s.readVa u tenant v va n (n / 128 + 2)

/-- Outstanding writes of a command on a die. -/
def State.cmdOut (s : State) (d : Nat) (c : CmdRef) : Nat :=
  s.unanswered d (fun o => match o.kind with | .unitWrite k _ _ => k == c | _ => false)

/-- A little-endian word of a byte list. -/
def wordAt (b : List Byte) (i : Nat) : Nat := leNat ((b.drop (8 * i)).take 8)

/-- Writes little-endian words. -/
def wordBytes (l : List Nat) : List Byte := (l.map (fun w => leBytes 8 w)).flatten

end Sys2Proof.Machine
end

