-- ==== Sys2Proof/Machine/Walk.lean ====
section
/-! DEFINITION. A Shunter's work on a row or segment (R174 to R177, R181 to R184, R187 to R199): records, maps and weights read through port B
and the cluster's Depot cache, features fetched through the gather lanes, the terms and their sums, and what the work leaves: an output row,
a partial, a hub row, or a malformed row; with PLATFORM_QUEUE_GRANT and MISS_REGISTER_GRANT, which let such work go on. -/
set_option Elab.async false
namespace Sys2Proof.Machine

/-! ### The walk descriptor (R185) -/

structure Walk where
  format : Nat
  combine : Nat
  index : Nat
  wfmt : Nat
  edges : Nat
  split : Nat
  weights : Nat
  ffmt : Nat
  ofmt : Nat
  empty : Nat
  badrow : Bool
  feat : Nat
  w : Nat
  out : Nat
  ostride : Nat
  fstride : Nat
  rows : Nat
  ncol : Nat
  list : Bool
  first : Nat

def walkOf (l : List Word) : Walk :=
  let g (i lo n : Nat) : Nat := bits (l.getD i 0).toNat lo n
  { format := g 0 60 4, combine := g 0 56 4, index := g 0 0 48, wfmt := g 1 60 4, edges := g 1 0 48, split := g 2 48 16,
    weights := g 2 0 48, ffmt := g 3 60 4, ofmt := g 3 56 4, empty := g 3 54 2, badrow := bit (g 3 53 1) 0, feat := g 3 0 48,
    w := g 4 48 16, out := g 4 0 48, ostride := g 5 32 32, fstride := g 5 0 32, rows := g 6 32 32, ncol := g 6 0 32,
    list := bit (g 7 63 1) 0, first := g 7 0 48 }

/-- R188: the split threshold in edges; none for 0xFFFF. -/
def Walk.threshold (k : Walk) : Option Nat := if k.split = 0xFFFF then none else some ((if k.split = 0 then 8 else k.split) * 512)

/-- Bytes of an element of a format of whole bytes. -/
def fmtBytes (f : Nat) : Nat := fmtBits f / 8

/-- R186. -/
def Walk.refused (k : Walk) : Bool :=
  decide (1 < k.format) || decide (4 < k.combine) || decide (2 < k.wfmt) || ! ([0, 1, 2, 3, 4, 8]).contains k.ffmt ||
  ! ([0, 1, 2, 3, 4, 8, 10]).contains k.ofmt || decide (k.w = 0) || decide (512 < k.w) ||
  k.fstride % 32 != 0 || decide (k.fstride < k.w * fmtBytes k.ffmt) || decide (k.ostride < k.w * fmtBytes k.ofmt) ||
  (k.combine == 1 && k.wfmt == 0) || (k.ffmt == 8 && (k.combine == 1 || k.combine == 4)) ||
  ((k.ofmt == 8 || k.ofmt == 10) && k.ffmt != 8)

/-! ### What a work has read (R187) -/

/-- What reading gives: sectors to ask first (by key), a malformed-row reason (R198), or a value. -/
inductive WalkRd (α : Type) where
  | need (keys : List Nat)
  | bad (reason : Nat)
  | ok (a : α)

def WalkRd.bind {α β : Type} (x : WalkRd α) (f : α → WalkRd β) : WalkRd β :=
  match x with
  | .need l => .need l
  | .bad r => .bad r
  | .ok a => f a

/-- The keys of the sectors of n bytes from a virtual address. -/
def walkKeys (pre va n : Nat) : List Nat :=
  if n = 0 then [] else (List.range ((va + n - 1) / 32 - va / 32 + 1)).map (fun i => pre * 2 ^ 64 + (va / 32 + i))

/-- The sectors of a range that have not been read. -/
def missing (got : Tab (Option (List Byte))) (keys : List Nat) : List Nat := keys.filter (fun k => !thas got k)

/-- The bytes of a range that has been read; none if a sector of it ended in error. -/
def walkGet (got : Tab (Option (List Byte))) (pre va n : Nat) : Option (List Byte) :=
  let l := (walkKeys pre va n).map (fun k => (tget? got k).bind id)
  if l.all Option.isSome then some (((l.map (·.getD [])).flatten.drop (va % 32)).take n) else none

/-- R198: n bytes of the records, maps or index; reason ACCESS where a read ended in error. -/
def rdAt (got : Tab (Option (List Byte))) (va n : Nat) : WalkRd (List Byte) :=
  match missing got (walkKeys 0 va n) with
  | [] => match walkGet got 0 va n with
    | some b => .ok b
    | none => .bad 5
  | l => .need l

/-! ### Edges (R174 to R177, R198; log 88) -/

/-- R175, R198: n records from global ordinal g: for each in order ACCESS, ROW, ORDER, COLUMN. -/
def recsFrom (got : Tab (Option (List Byte))) (w : Walk) (row : Nat) (prev : Option Nat) (g : Nat) : Nat → WalkRd (List Nat)
  | 0 => .ok []
  | n + 1 =>
    (rdAt got (w.edges + 8 * g) 8).bind (fun b =>
      let r := leNat b
      let col := r % 2 ^ 32
      if r / 2 ^ 32 ≠ row then .bad 1
      else if (match prev with | some p => decide (col < p) | none => false) then .bad 2
      else if w.ncol ≤ col then .bad 3
      else (recsFrom got w row (some col) (g + 1) n).bind (fun cs => .ok (col :: cs)))

/-- R175: the columns of ordinals lo to hi - 1 of a row; the record before is read to check the order. -/
def coordEdges (got : Tab (Option (List Byte))) (w : Walk) (i : RowInfo) (lo hi : Nat) : WalkRd (List Nat) :=
  let from_ := if lo = 0 then 0 else lo - 1
  match missing got (walkKeys 0 (w.edges + 8 * (i.base + from_)) (8 * (hi - from_))) with
  | [] =>
    if lo = 0 then recsFrom got w i.row none i.base hi
    else (rdAt got (w.edges + 8 * (i.base + lo - 1)) 8).bind (fun b => recsFrom got w i.row (some (leNat b % 2 ^ 32)) (i.base + lo) (hi - lo))
  | l => .need l

/-- The set bits of a word, ascending. -/
def setBits (n : Nat) : List Nat := (List.range 64).filter (bit n)

/-- R176: the edges of a unit: block, bit and column of each, ascending. -/
def unitEdges (span : Nat) (blocks maps : List Nat) : List (Nat × Nat × Nat) :=
  ((blocks.zip maps).map (fun (b, m) => (setBits m).map (fun i => (b, i, 4096 * span + 64 * b + i)))).flatten

/-- R176, R193, R198: the columns of n edges from a place in a bitmap row, and the place after them: for each unit in order ACCESS, ROW, ORDER,
MAP, COLUMN, over the whole unit. -/
def unitsFrom (got : Tab (Option (List Byte))) (w : Walk) (i : RowInfo) (n : Nat) (p : UnitAt) : Nat → WalkRd (List Nat × UnitAt)
  | 0 => .ok ([], p)
  | fuel + 1 =>
    if n = 0 then .ok ([], p) else
    (rdAt got p.va 16).bind (fun b =>
      let h := wordAt b 0
      let super := wordAt b 1
      let span := bits h 12 20
      if h / 2 ^ 32 ≠ i.row then .bad 1
      else if (match p.prev with | some q => decide (span ≤ q) | none => false) then .bad 2
      else if super = 0 then .bad 4
      else
        let blocks := setBits super
        (rdAt got (p.va + 16) (8 * blocks.length)).bind (fun m =>
          let maps := (chunks 8 blocks.length m).map leNat
          let all := unitEdges span blocks maps
          let mine := all.filter (fun e => decide (p.block < e.1) || (e.1 == p.block && decide (p.bit ≤ e.2.1)))
          if maps.any (· == 0) || decide (i.degree < p.ord + mine.length) then .bad 4
          else if all.any (fun e => decide (w.ncol ≤ e.2.2)) then .bad 3
          else
            match mine[n]? with
            | some e => .ok ((mine.take n).map (·.2.2), { p with block := e.1, bit := e.2.1, ord := p.ord + n })
            | none =>
              (unitsFrom got w i (n - mine.length) { va := p.va + 16 + 8 * blocks.length, ord := p.ord + mine.length, prev := some span } fuel).bind
                (fun r => .ok (mine.map (·.2.2) ++ r.1, r.2))))

/-- The columns of ordinals lo to hi - 1 of a row, which in a bitmap row start at a place. -/
def edgesOf (got : Tab (Option (List Byte))) (w : Walk) (i : RowInfo) (p : UnitAt) (lo hi : Nat) : WalkRd (List Nat) :=
  if w.format = 0 then coordEdges got w i lo hi else (unitsFrom got w i (hi - lo) p (hi - lo + 1)).bind (fun r => .ok r.1)

/-- R176: the place where a row's units start. -/
def rowStart (w : Walk) (i : RowInfo) : UnitAt := { va := w.edges + 8 * i.mapWord }

/-! ### Terms (R189) -/

def accF (a : AccEl) : BitVec 32 := BitVec.ofInt 32 a.v
def ofF (b : BitVec 32) : AccEl := ⟨(b.toNat : Int), false⟩

/-- R189: the greater (or lesser) of two values; a NaN gives 0x7FC00000. -/
def peak (isMax : Bool) (a b : BitVec 32) : BitVec 32 :=
  if (f32Val a).isNan || (f32Val b).isNan then f32Nan else (toF32 0 false (vMinMax isMax (f32Val a) (f32Val b))).1

/-- Two A32F or A40I values combined under COMBINE (R189, R191); an A40I overflow continues and is flagged (R225). -/
def joinEl (w : Walk) (a b : AccEl) : AccEl :=
  if w.ffmt = 8 then
    (match w.combine with
     | 2 => ⟨max a.v b.v, a.ov || b.ov⟩
     | 3 => ⟨min a.v b.v, a.ov || b.ov⟩
     | _ => let (v, o) := a40Add a.v b.v; ⟨v, a.ov || b.ov || o⟩)
  else
    match w.combine with
    | 2 => ofF (peak true (accF a) (accF b))
    | 3 => ofF (peak false (accF a) (accF b))
    | _ => ofF (a32Add (accF a) (f32Val (accF b))).1

/-- R189: one term: a feature code x, with its weight for WSUM. -/
def termEl (w : Walk) (acc : Option AccEl) (wt : Val) (x : Nat) : AccEl :=
  if w.ffmt = 8 then
    let t : AccEl := ⟨signed x 8, false⟩
    match acc with
    | none => t
    | some a => joinEl w a t
  else
    let v := decodeFmt w.ffmt x
    if w.combine = 1 then
      (match acc with
       | none => ofF (a32First wt v).1
       | some a => ofF (a32Fma (accF a) wt v).1)
    else
      let t := ofF (toF32 0 false (v, 0)).1
      match acc with
      | none => if v.isNan then ofF f32Nan else t
      | some a => joinEl w a t

/-- R177: bytes of a weight. -/
def weightBytes (w : Walk) : Nat := if w.wfmt = 1 then 1 else 4

/-- The weight of a global ordinal (R177). -/
def weightOf (got : Tab (Option (List Byte))) (w : Walk) (g : Nat) : Option Val :=
  (walkGet got 0 (w.weights + weightBytes w * g) (weightBytes w)).map (fun b =>
    if w.wfmt = 1 then decodeL8 (leNat b) else f32Val (BitVec.ofNat 32 (leNat b)))

/-- R189: the terms of columns in ordinal order, the first the j-th of the work with global ordinal g; none if a read ended in error. -/
def termsOf (got : Tab (Option (List Byte))) (w : Walk) (g j : Nat) (acc : Option (List AccEl)) : List Nat → Option (List AccEl)
  | [] => some (acc.getD [])
  | col :: r =>
    match (if w.combine = 1 then weightOf got w g else some (.fin false 1 0)),
        walkGet got (j + 1) (w.feat + col * w.fstride) (w.w * fmtBytes w.ffmt) with
    | some wt, some b =>
      let xs := (chunks (fmtBytes w.ffmt) w.w b).map leNat
      let acc' := match acc with
        | none => xs.map (fun x => termEl w none wt x)
        | some a => (a.zip xs).map (fun p => termEl w (some p.1) wt p.2)
      termsOf got w (g + 1) (j + 1) (some acc') r
    | _, _ => none

/-- R189, R190: the value of an element encoded to OFMT. -/
def outCode (w : Walk) (v : Val) : Nat := (encodeFmt w.ofmt 0 false 0 v).1

def finalCode (w : Walk) (degree : Nat) (a : AccEl) : Nat :=
  if w.ffmt = 8 then outCode w (Val.ofInt a.v)
  else
    let b := accF a
    let b := if w.combine = 4 then (toF32 0 false (vDiv (f32Val b) (Val.ofInt degree))).1 else b
    outCode w (f32Val b)

/-- R190: the combine identity. -/
def identityCode (w : Walk) : Nat :=
  let n := fmtBits w.ofmt
  let isInt := w.ofmt == 8 || w.ofmt == 10
  match w.combine with
  | 2 => if isInt then 2 ^ (n - 1) else outCode w (.inf true)
  | 3 => if isInt then 2 ^ (n - 1) - 1 else outCode w (.inf false)
  | _ => outCode w .zero

/-! ### Partials (R194) -/

/-- R194: bytes of a partial, and the slots of a cluster's share of the partial pool. -/
def elemBytes (w : Walk) : Nat := if w.ffmt = 8 then 8 else 4
def partialBytes (w : Walk) : Nat := w.w * elemBytes w
def hubSlots (w : Walk) : Nat := 65536 / partialBytes w

/-- R194: where segment n's partial lies: slot n mod the slots of its home cluster's share. -/
def State.slotPa (s : State) (home : Nat) (w : Walk) (n : Nat) : Nat :=
  mkPa 1 (clDie home) (poolBase (s.die (clDie home)) + clNo home * 65536 + n % hubSlots w * partialBytes w)

/-- R194, R225: an element as a partial holds it: A32F bits, or the 40-bit value with the sticky bit above it (log 92). -/
def partialEl (w : Walk) (a : AccEl) : List Byte :=
  if w.ffmt = 8 then leBytes 8 (unsigned a.v 40 + b2n a.ov * 2 ^ 40) else leBytes 4 (accF a).toNat

def elOfPartial (w : Walk) (b : List Byte) : AccEl :=
  if w.ffmt = 8 then ⟨signed (leNat b) 40, bit (leNat b) 40⟩ else ofF (BitVec.ofNat 32 (leNat b))

/-- The parts of a physical range, line by line. -/
def paParts (pa n : Nat) : Nat → List (Nat × Nat)
  | 0 => []
  | fuel + 1 => if n = 0 then [] else let k := lineSpan pa n; (pa, k) :: paParts (pa + k) (n - k) fuel

/-! ### What a work does next -/

/-- What a work does next: reads sectors; ends malformed; writes an empty row; leaves a hub row; ends a scan; or has its columns, from a global
ordinal. -/
inductive WalkPlan where
  | need (keys : List Nat)
  | bad (reason : Nat)
  | empty
  | hub (i : RowInfo)
  | next (p : UnitAt)
  | cols (i : RowInfo) (g : Nat) (l : List Nat)

/-- R188: a row above the split threshold. -/
def Walk.splits (w : Walk) (degree : Nat) : Bool := match w.threshold with | some t => decide (t < degree) | none => false

/-- R185: the row of a position: FIRST + p, modulo 2^32 (log 89), or the entry of the row list. -/
def rowNo (got : Tab (Option (List Byte))) (w : Walk) (pos : Nat) : WalkRd Nat :=
  if w.list then (rdAt got (w.first + 4 * pos) 4).bind (fun b => .ok (leNat b)) else .ok ((w.first % 2 ^ 32 + pos) % 2 ^ 32)

/-- R174: a position's row and index entry. -/
def rowInfo (got : Tab (Option (List Byte))) (w : Walk) (pos : Nat) : WalkRd RowInfo :=
  (rowNo got w pos).bind (fun row => (rdAt got (w.index + 16 * row) 16).bind (fun b =>
    .ok { row := row, degree := bits (wordAt b 1) 32 32, base := wordAt b 0, mapWord := bits (wordAt b 1) 0 32 }))

/-- The columns of a range, once the weights of a WSUM are read too. -/
def colsOf (got : Tab (Option (List Byte))) (w : Walk) (i : RowInfo) (p : UnitAt) (lo hi : Nat) : WalkPlan :=
  match edgesOf got w i p lo hi with
  | .need l => .need l
  | .bad r => .bad r
  | .ok cs =>
    match (if w.combine = 1 then missing got (walkKeys 0 (w.weights + weightBytes w * (i.base + lo)) (weightBytes w * (hi - lo))) else []) with
    | [] => .cols i (i.base + lo) cs
    | l => .need l

/-- R191: the first ordinal of a segment, and the one after its last. -/
def segLo (n : Nat) : Nat := 512 * n
def segHi (i : RowInfo) (n : Nat) : Nat := min (512 * (n + 1)) i.degree

/-- R188 to R193: what a work does next, from what it has read. -/
def planOf (w : Walk) (k : WalkWork) : WalkPlan :=
  match k.part with
  | .row =>
    (match rowInfo k.got w k.pos with
     | .need l => .need l
     | .bad r => .bad r
     | .ok i => if i.degree = 0 then .empty else if w.splits i.degree then .hub i else colsOf k.got w i (rowStart w i) 0 i.degree)
  | .scan i p =>
    (match unitsFrom k.got w i (min 512 (i.degree - p.ord)) p 513 with
     | .need l => .need l
     | .bad r => .bad r
     | .ok r => .next r.2)
  | .seg _ n i p => colsOf k.got w i p (segLo n) (segHi i n)

/-! ### Reads (R181 to R184, R187) -/

def State.shCmd? (s : State) (c : CmdRef) : Option ShCmd := (s.pkg c.p).shCmds.find? (fun k => k.c == c)

/-- R187: a sector of a work read through port B and the cluster's Depot cache, or past it from an UNCACHED section. A hit may meet a single-bit
error (log 80). -/
def State.walkAsk (s : State) (c no : Nat) (q : ShCmd) (vi key : Nat) : State :=
  match s.xlat (.cluster c) q.tenant vi (key % 2 ^ 64 * 32) with
  | (none, s) => s.walkPut c no key none
  | (some x, s) =>
    if !entryRd x.entry then s.walkPut c no key none
    else if entryUncached x.entry then
      s.send (clDie c) (.uwalk c no key) q.tenant vi q.cls q.deadline (paDie x.pa) (.rd (BitVec.ofNat 52 (x.pa / 128 * 128)) (sectorsOf (x.pa % 128) 32))
    else
      let s := s.touch c q.tenant (x.pa / 128)
      match s.lookup c q.tenant x.pa 32 with
      | some b => (s.ceFound (clDie c) 0).walkPut c no key (some b)
      | none => s.miss c { who := .walk c no key, line := x.pa / 128, need := sectorsOf (x.pa % 128) 32, tenant := q.tenant, vi := vi,
                           cls := q.cls, deadline := q.deadline, stable := entryStable x.entry }

/-- Sectors asked together. -/
def State.walkAskAll (s : State) (c : Nat) (q : ShCmd) (k : WalkWork) (keys : List Nat) : State :=
  let s := s.modCluster c (fun x => { x with work := x.work.map (fun k => { k with out := k.out ++ keys }) })
  keys.foldl (fun s key => s.walkAsk c k.no q k.vi key) s

/-- R181, R183: a feature fetch takes an entry of its lane. -/
def State.walkFetch (s : State) (c : Nat) (q : ShCmd) (w : Walk) (k : WalkWork) (col : Nat) : State :=
  let j := k.placed
  let e : PqEntry := { who := .walk j, tenant := q.tenant, cls := q.cls, deadline := q.deadline }
  let s := s.modCluster c (fun x =>
    { x with pq := tset x.pq (j % 16) (tget x.pq (j % 16) [] ++ [e]), pqFree := tset x.pqFree (j % 16) (tget x.pqFree (j % 16) 16 - 1),
             work := x.work.map (fun k => { k with placed := j + 1 }) })
  s.walkAskAll c q k (walkKeys (j + 1) (w.feat + col * w.fstride) (w.w * fmtBytes w.ffmt))

/-- R183: the fetch of the edge with ordinal j is placed on lane j mod 16; where that queue is closed it waits, and later ones with it. -/
def State.walkPlace (s : State) (c : Nat) (q : ShCmd) (w : Walk) (k : WalkWork) (col : Nat) : State :=
  if pqOpen (s.cluster c) (k.placed % 16) q.cls then s.walkFetch c q w k col
  else s.modCluster c (fun x => { x with pqWait := x.pqWait ++
    [(k.placed % 16, { who := .walk k.placed, tenant := q.tenant, cls := q.cls, deadline := q.deadline })] })

/-- A fetch of the work waits for its queue. -/
def walkWaits (x : Cluster) : Bool := x.pqWait.any (fun e => match e.2.who with | .walk _ => true | _ => false)

/-! ### The ends of a work -/

def State.walkEnd (s : State) (c : Nat) : State := s.modCluster c (fun x => { x with work := none })

/-- R197: a position's output, one write of the whole row to home memory; a row whose write fails is counted with reason ACCESS (log 90). -/
def State.rowOut (s : State) (c : Nat) (q : ShCmd) (w : Walk) (pos : Nat) (codes : List Nat) : State :=
  let bytes := (codes.map (fun x => leBytes (fmtBytes w.ofmt) x)).flatten
  match s.writeVa (.cluster c) (.unitWrite q.c pos 0) q.tenant q.vi q.cls q.deadline (w.out + pos * w.ostride) bytes with
  | (none, s) => s
  | (some _, s) => s.badRow q.c pos 5

/-- R198: a work that finds its row malformed. -/
def State.walkBad (s : State) (c : Nat) (k : WalkWork) (reason : Nat) : State :=
  let s := s.walkEnd c
  match k.part with
  | .row => s.badRow k.c k.pos reason
  | .scan _ _ => (s.modHub c k.c k.pos (fun h => h.fail h.atSeg reason)).hubSettle c k.c k.pos
  | .seg home n _ _ => s.segFail home k.c k.pos n reason

/-- R194, R195: a segment's partial leaves for its home cluster's share of the partial pool, with the tenant ID. -/
def State.sendPartial (s : State) (c home : Nat) (q : ShCmd) (w : Walk) (k : WalkWork) (n : Nat) (acc : List AccEl) : State :=
  let b := (acc.map (partialEl w)).flatten
  s.sendParts (clDie c) (.partial_ home k.c k.pos n 1) q.tenant k.vi q.cls q.deadline (paParts (s.slotPa home w n) b.length (b.length / 128 + 2))
    (selBits (b.map (fun x => (true, x))))

/-- R188, R194: a work that has read everything: its sum goes to the output row, or to the partial pool. -/
def State.walkDone (s : State) (c : Nat) (q : ShCmd) (w : Walk) (k : WalkWork) (i : RowInfo) (g : Nat) (cols : List Nat) : State :=
  match termsOf k.got w g 0 none cols with
  | none => s.walkBad c k 5
  | some acc =>
    match k.part with
    | .seg home n _ _ => (s.walkEnd c).sendPartial c home q w k n acc
    | _ => (s.walkEnd c).rowOut c q w k.pos (acc.map (finalCode w i.degree))

/-- R188: a row of degree 0. -/
def State.emptyRow (s : State) (c : Nat) (q : ShCmd) (w : Walk) (pos : Nat) : State :=
  if w.empty = 2 then s else s.rowOut c q w pos (List.replicate w.w (if w.empty = 1 then identityCode w else outCode w .zero))

/-- A work goes on as far as it can: until it waits for sectors or for a gather lane, or has ended. -/
def State.walkGo (s : State) (c : Nat) : Nat → State
  | 0 => s
  | fuel + 1 =>
    match (s.cluster c).work with
    | none => s
    | some k =>
      match s.shCmd? k.c with
      | none => s.walkEnd c
      | some q =>
        let w := walkOf q.desc
        match planOf w k with
        | .need keys => if k.out.isEmpty then (s.walkAskAll c q k keys).walkGo c fuel else s
        | .bad r => if k.out.isEmpty then s.walkBad c k r else s
        | .empty => (s.walkEnd c).emptyRow c q w k.pos
        | .hub i =>
          (s.walkEnd c).modCluster c (fun x =>
            { x with hubs := x.hubs ++ [{ c := k.c, pos := k.pos, info := i, size := partialBytes w, start := rowStart w i }] })
        | .next p => (s.walkEnd c).modHub c k.c k.pos (fun h => { h with start := p, atSeg := h.atSeg + 1 })
        | .cols i g l =>
          if walkWaits (s.cluster c) then s
          else if k.placed < l.length then (s.walkPlace c q w k (l.getD k.placed 0)).walkGo c fuel
          else if k.out.isEmpty then s.walkDone c q w k i g l
          else s

/-- More steps than a row of 2^32 - 1 edges takes. -/
def walkFuel : Nat := 2 ^ 36

/-- A work begins. -/
def State.walkStart (s : State) (c : Nat) (q : CmdRef) (vi pos : Nat) (part : WalkPart) : State :=
  (s.modCluster c (fun x => { x with work := some { no := x.walkNo, c := q, vi := vi, pos := pos, part := part }, walkNo := x.walkNo + 1 })).walkGo c walkFuel

/-- R183: a feature fetch that waited takes its entry, and the work goes on. -/
def State.walkGrant (s : State) (c : Nat) : State :=
  match (s.cluster c).work with
  | none => s
  | some k =>
    match s.shCmd? k.c with
    | none => s
    | some q =>
      match planOf (walkOf q.desc) k with
      | .cols _ _ l => (s.walkFetch c q (walkOf q.desc) k (l.getD k.placed 0)).walkGo c walkFuel
      | _ => s

/-! ### Grants -/

/-- PLATFORM_QUEUE_GRANT (R140, R182 to R184): the waiting fetch that a lane offers next takes an entry, once port B is granted to the lane. -/
def execPlatformQueueGrant (cl : BitVec 16) (lane : BitVec 4) (s : State) : Out :=
  let c := cl.toNat
  let q := lane.toNat
  if !s.dieUp (clDie c) || !s.unitRuns (clDie c) (clNo c) then .next s
  else
    match pqPick (s.cluster c) q with
    | none => .next s
    | some (e, n) =>
      if !s.portFree c 2 (128 + q) then .next s
      else
        let s := (s.portUse c 2 (128 + q)).modCluster c (fun x => { x with
          pqWait := dropFirst (fun f => f.1 == q && f.2 == e) x.pqWait, laneStreak := tset x.laneStreak q n })
        match e.who with
        | .thread th i => .next (s.laneStart th i)
        | .walk _ => .next (s.walkGrant c)

/-- MISS_REGISTER_GRANT (R143): the waiting request, by class, deadline and age with the floor of R33, of those that can be served. -/
def execMissRegisterGrant (cl : BitVec 16) (s : State) : Out :=
  let c := cl.toNat
  if !s.dieUp (clDie c) then .next s
  else
    match s.asidePick c (fun a => (s.asideHit c a).isSome || s.missable c a) with
    | none => .next s
    | some (a, n) => .next (((s.modCluster c (fun x => { x with asideStreak := n })).serveAside c a).walkGo c walkFuel)

end Sys2Proof.Machine
end

