-- ==== Sys2Proof/Machine/Replies.lean ====
section
/-! DEFINITION. What an answer does at the die that asked: fills (R144, R152, R169), uncached accesses (R161), write-backs (R145, R170,
R171), stores and atomics (R112, R126), unit writes (R199, R256, R283, R307, R399), and the ACK, DATA and AMORSP packets (R377). -/
set_option Elab.async false
namespace Sys2Proof.Machine

/-! ### Faults -/

/-- R23, R131, R152, R170: the memory fault that an answer brings, recorded at the requester's die for the issuing VI (log 12); CLUSTER is
that of a fill or a write-back, and 0 otherwise (DESIGN CHOICE, log 100). -/
def State.recordFlt (s : State) (d : Nat) (o : Outst) (f : Option MemFlt) : State :=
  match f with
  | none => s
  | some f =>
    let cl := match o.kind with
      | .wb c _ => clNo c
      | .fill c _ => clNo c
      | _ => 0
    s.memFault d { kind := f.kind.toNat, tenant := o.tenant, vi := o.vi, cluster := cl, pa := f.pa.toNat, detail := f.detail.toNat,
                   pkg := o.tenant == 0 }

/-! ### Unit writes -/

/-- DMA REASON of an answer's status (R399). -/
def dmaReason (status : Nat) : Nat := if status = stForeign then 4 else 1

/-- R399: a chain that meets an error: the earliest descriptor that fails stands, with its first error. -/
def chainFail (k : Chain) (desc reason : Nat) : Chain :=
  if k.reason = 0 ∨ desc < k.failed then { k with reason := reason, failed := desc } else k

/-- R280, R283, R284: a CONSIST_RUN ends in error: REASON and ADDR of the lowest failing element of the first failing iteration. -/
def csFail (k : CsCmd) (key reason addr : Nat) : CsCmd :=
  if k.reason = 0 ∨ key < k.errKey then { k with reason := reason, addr := addr, errKey := key, running := false } else { k with running := false }

/-- A unit's write was answered in error: its command is marked; `desc` names the descriptor, entry, position or address; `bytes`
were counted as written. -/
def State.unitError (s : State) (d : Nat) (c : CmdRef) (desc bytes status : Nat) : State :=
  let s := s.modDie d (fun x => { x with
    muCmds := x.muCmds.map (fun k => if k.c == c then
      { k with err := true, entry := match k.entry with
          | some (e, r) => if e ≤ desc then some (e, r) else some (desc, 0)
          | none => some (desc, 0) } else k),
    mus := tmap x.mus (fun _ m => { m with cs := tmap m.cs (fun _ k => if k.c == c then csFail k (desc / 2 ^ 48) 1 (desc % 2 ^ 48) else k) }),
    ptCmds := x.ptCmds.map (fun k => if k.c == c then { k with err := true } else k),
    engines := tmap x.engines (fun _ e => { e with chains := e.chains.map (fun k => if k.c == c then
      { chainFail k desc (dmaReason status) with count := k.count - bytes } else k) }) })
  s.badRow c desc 5

/-! ### Threads -/

/-- An atomic is answered: its register, the fault of a non-posted one, the thread's progress (R97, R112, R124). -/
def State.amoAnswer (s : State) (th : Nat) (posted : Bool) (old : Option Word) : State :=
  let t := s.thread th
  let s :=
    if posted then s
    else
      match t.wait with
      | .amo rd fn wide acq va =>
        match old with
        | some w =>
          let s := s.modThread th (fun t =>
            let t := { t with wait := .none }
            nextPc (match rd with | some r => regSet t r (amoOldWord fn wide w) | none => t))
          if acq then s.threadAcquire th else s
        | none => (s.setThread th { t with wait := .none }).raise th cAccessError va
      | _ => s
  s.progress th

/-- An uncached load is answered with its line's bytes, or in error. -/
def State.uloadAnswer (s : State) (th : Nat) (b : Option (List Byte)) : State :=
  let t := s.thread th
  match t.wait with
  | .load rd size sx acq va pa =>
    match b with
    | some b => s.loadDone th rd (extendLoad ((b.drop (pa % 128)).take size) sx) acq
    | none => (s.setThread th { t with wait := .none }).raise th cAccessError va
  | _ => s

/-- An uncached lane is answered. -/
def State.ulaneAnswer (s : State) (th lane : Nat) (b : Option (List Byte)) : State :=
  match (s.thread th).wait with
  | .gather _ size sx lanes =>
    match lanes.find? (fun l => l.lane == lane) with
    | some l => (s.pqRelease th lane).laneDone th lane (b.map (fun b => extendLoad ((b.drop (l.pa % 128)).take size) sx))
    | none => s
  | _ => s

/-! ### Fills -/

/-- R144: the sectors that arrived; the register answers once nothing it asked for is out. -/
def State.fillAnswer (s : State) (d c reg : Nat) (got : Option (BitVec 4 × List Byte)) (gone : Bool) : State :=
  let x := s.cluster c
  match x.miss.find? (fun m => m.id == reg) with
  | none => s
  | some m =>
    let m := match got with
      | some (sec, b) =>
        { m with got := m.got ||| sec, data := (List.range 128).map (fun i => if sec.getLsbD (i / 32) then b.getD i 0 else m.data.getD i 0) }
      | none => { m with err := true, gone := m.gone || gone }
    let s := s.setCluster c { x with miss := x.miss.map (fun e => if e.id == reg then m else e) }
    if s.unanswered d (fun o => o.kind == .fill c reg) = 0 then s.fillDone c m else s

/-! ### Write-backs -/

/-- R170, R171: a write-back that home did not take; WB_DROPPED counts at the die that sent it, when the answer is matched (DESIGN CHOICE, log 101). -/
def State.wbAnswer (s : State) (d : Nat) (o : Outst) (c line status : Nat) (f : Option MemFlt) : State :=
  let bound := s.viOf (diePkg d) o.tenant == some o.vi
  let s :=
    if status = stGone then
      (s.memFault d { kind := 6, tenant := o.tenant, vi := o.vi, cluster := clNo c, pa := line * 128 }).count d 6
    else if status = stForeign then
      let s := s.count d 5
      if bound then s.recordFlt d o f else s
    else s.recordFlt d o f
  s.progressCl c

/-! ### Any answer -/

/-- What an answer other than SIGRSP and TRSP does. -/
def State.answerReq (s : State) (d : Nat) (o : Outst) (status : Nat) (body : Payload) (f : Option MemFlt) : State :=
  let line : Option (List Byte) := match body with
    | .data _ _ b => if status = stOk then some b else none
    | _ => none
  match o.kind with
  | .fill c reg =>
    let s := s.recordFlt d o f
    match body with
    | .data _ sec b => (s.fillAnswer d c reg (if status = stOk then some (sec, b) else none) (status == stGone)).walkGo c walkFuel
    | _ => (s.fillAnswer d c reg none (status == stGone)).walkGo c walkFuel
  | .uload th => (s.recordFlt d o f).uloadAnswer th.toNat line
  | .ufetch th va => (s.recordFlt d o f).fetchDone th.toNat va (line.map (fun b => (b.drop (va % 128)).take 32))
  | .ulane th lane => (s.recordFlt d o f).ulaneAnswer th.toNat lane line
  | .uwalk c no key => ((s.recordFlt d o f).walkPut c no key (line.map (fun b => (b.drop (key % 4 * 32)).take 32))).walkGo c walkFuel
  | .partial_ home c pos n _ =>
    let s := s.recordFlt d o f
    if status = stOk then s else s.segFail home c pos n 5
  | .wb c l => s.wbAnswer d o c l status f
  | .store th => (s.recordFlt d o f).progress th.toNat
  | .amo th posted =>
    (s.recordFlt d o f).amoAnswer th.toNat posted (match body with
      | .amorsp old => if status = stOk then some old else none
      | _ => none)
  | .unitWrite c desc bytes =>
    let s := s.recordFlt d o f
    if status = stOk then s else s.unitError d c desc bytes status
  -- R131: a request of a thread that has ended still raises its fault to its VI
  | .abandoned => if s.viOf (diePkg d) o.tenant == some o.vi then s.recordFlt d o f else s
  | _ => s

/-- A response that matches its request by TAG, of one opcode. -/
def replyTo (s : State) (pk : Packet) : Out :=
  match s.reply pk with
  | .notNext s => .next s
  | .dropped s => .next s
  | .matched o s => .next (s.answerReq pk.dst o pk.status.toNat pk.body pk.flt)

/-- ACK_PACKET (R377). -/
def execAckPacket (pk : Packet) (s : State) : Out :=
  match pk.body with
  | .ack => replyTo s pk
  | _ => .next s

/-- DATA_PACKET (R144, R377). -/
def execDataPacket (pk : Packet) (s : State) : Out :=
  match pk.body with
  | .data .. => replyTo s pk
  | _ => .next s

/-- AMORSP_PACKET (R112, R377). -/
def execAmorspPacket (pk : Packet) (s : State) : Out :=
  match pk.body with
  | .amorsp _ => replyTo s pk
  | _ => .next s

end Sys2Proof.Machine
end

