-- ==== Sys2Proof/Machine/Tenancy.lean ====
section
/-! DEFINITION. Virtual instances (R401 to R412): section tables and owned ranges (R132, R133, R138), the reset of a VI (R406 to
R409, R172, R336, R496), and the SR-IOV and function-level resets that perform it (R401, R410, R466). -/
set_option Elab.async false
namespace Sys2Proof.Machine

/-! ### Owned ranges (R131, R132, R411) -/

/-- The owner-map entries of a section entry's range: die and index. -/
def entryRanges (e : SectionEntry) : List (Nat × Nat) :=
  let pa := entryPbase e * 2 ^ 25
  if paSpace pa = 1 then (List.range (entryYlen e)).map (fun i => (paDie pa, 768 + entryYbase e + i))
  else [(paDie pa, ownerIdx pa)]

/-- First and last-plus-one physical address of an owner-map entry's range. -/
def rangeLo (r : Nat × Nat) : Nat := if r.2 < 768 then mkPa 0 r.1 (r.2 * 2 ^ 25) else mkPa 1 r.1 ((r.2 - 768) * 2 ^ 16)
def rangeHi (r : Nat × Nat) : Nat := rangeLo r + (if r.2 < 768 then 2 ^ 25 else 2 ^ 16)

/-- Some section of some package maps the range (log 24). -/
def State.mapped (s : State) (r : Nat × Nat) : Bool :=
  s.pkgs.any (fun k => k.2.sections.any (fun e => entryV e.2 && (entryRanges e.2).contains r))

/-- Zeros in a range of memory: every word of it is written in full (R129). -/
def State.zeroRange (s : State) (lo hi : Nat) : State :=
  { s with mem := memClear s.mem lo hi, poison := s.poison.filter (fun w => !(decide (lo ≤ w * 8) && decide (w * 8 < hi))) }

/-- R132, R411: a range that no section maps any more is zeroed and loses its owner. -/
def State.releaseRange (s : State) (r : Nat × Nat) : State :=
  if s.mapped r then s
  else (s.zeroRange (rangeLo r) (rangeHi r)).modDie r.1 (fun x => { x with owner := terase x.owner r.2 })

/-! ### Lookasides (R138, R172) -/

/-- Keeps the entries of every lookaside of a package that satisfy a test. -/
def State.keepLa (s : State) (p : Nat) (keep : LaEntry → Bool) : State :=
  let f : List LaEntry → List LaEntry := fun l => l.filter keep
  let s := { s with
    clusters := tmap s.clusters (fun c x => if clDie c / 8 == p then { x with la := f x.la } else x),
    dies := tmap s.dies (fun d x => if d / 8 == p then
      { x with ptLa := f x.ptLa, mus := tmap x.mus (fun _ m => { m with la := f m.la }),
               engines := tmap x.engines (fun _ e => { e with la := f e.la }) } else x) }
  s.modPkg p (fun k => { k with wbLa0 := f k.wbLa0, wbLa4 := f k.wbLa4 })

/-! ### Section tables (R133, R138) -/

/-- The clusters of a package that hold any state. -/
def State.clustersOf (s : State) (p : Nat) : List Nat := (s.clusters.filter (fun e => clDie e.1 / 8 == p)).map (·.1)

/-- R160, R138: every Depot cache of the package writes back and drops its lines of ranges. -/
def State.purgeRanges (s : State) (p : Nat) (rs : List (Nat × Nat)) : State :=
  (s.clustersOf p).foldl (fun s c => rs.foldl (fun s r => s.purgeRange c (rangeLo r) (rangeHi r)) s) s

/-- R133: a level-2 table with no valid entry returns to the pool. -/
def State.trimL2 (s : State) (p v : Nat) : State :=
  s.modPkg p (fun k => { k with l2 := k.l2.filter (fun t =>
    t.1 / 2048 != v || k.sections.any (fun e => e.1 / 4096 == t.1 && entryV e.2)) })

/-- R130, R133: the section table area of a die's yard SRAM, after the Roundhouse; the level-1 tables stand first, by VI, then the level-2
tables, by number (log 81). -/
def tableArea (x : Die) : Nat := rhSize x * 4096
def level1Off (x : Die) (v i : Nat) : Nat := tableArea x + v * 16384 + i * 8
def level2Off (x : Die) (n i : Nat) : Nat := tableArea x + 32 * 16384 + n * 32768 + i * 8

/-- R133: a valid level-1 entry: bit 63, and the table number. -/
def level1Word (n : Nat) : Nat := 2 ^ 63 + n % 256

/-- R133, R546: a package's tables copied to the area of a die. -/
def State.copyTables (s : State) (p d : Nat) : State :=
  let k := s.pkg p
  let x := s.die d
  let at_ (off : Nat) : Nat := mkPa 1 d off
  let s := s.zeroRange (at_ (tableArea x)) (at_ (tableArea x + 0x800000))
  let s := k.l2.foldl (fun s e => s.writePa (at_ (level1Off x (e.1 / 2048) (e.1 % 2048))) (leBytes 8 (level1Word e.2))) s
  k.sections.foldl (fun s e =>
    match tget? k.l2 (e.1 / 4096) with
    | some n => s.writePa (at_ (level2Off x n (e.1 % 4096))) (leBytes 8 e.2.toNat)
    | none => s) s

/-- R133, R138: the copies of all eight dies. -/
def State.copyAll (s : State) (p : Nat) : State := (List.range 8).foldl (fun s i => s.copyTables p (p * 8 + i)) s

/-- R138: entries of a VI's sections are removed; the lookasides forget them. -/
def State.dropSections (s : State) (p v : Nat) (secs : List Nat) : State :=
  let t := (s.vi p v).tenant
  let s := s.modPkg p (fun k => { k with sections := k.sections.filter (fun e => !(e.1 / 2 ^ 23 == v && secs.contains (e.1 % 2 ^ 23))) })
  s.keepLa p (fun e => !(e.tenant == t && secs.contains e.section_))

/-- The sections of a VI. -/
def State.sectionsOf (s : State) (p v : Nat) : List (Nat × SectionEntry) :=
  ((s.pkg p).sections.filter (fun e => e.1 / 2 ^ 23 == v && entryV e.2)).map (fun e => (e.1 % 2 ^ 23, e.2))

/-! ### The reset of a VI -/

def ofVi (p v : Nat) (c : CmdRef) : Bool := c.p == p && c.v == v

/-- R406 step 3: requests that only read. -/
def OKind.reads : OKind → Bool
  | .fill _ _ => true
  | .uload _ => true
  | .ufetch _ _ => true
  | .ulane _ _ => true
  | .uwalk .. => true
  | .sigRead _ => true
  | .tquery _ => true
  | _ => false

/-- A request of a VI. -/
def ofTenant (tenant v : Nat) (o : Outst) : Bool := o.tenant == tenant && o.vi == v

/-- R406 step 3: the reads of a VI in flight on a die are abandoned; their tags are retired. -/
def State.abandonReads (s : State) (d tenant v : Nat) : State :=
  let mine : Outst → Bool := fun o => ofTenant tenant v o && o.kind.reads
  let s := s.modDie d (fun x => { x with sendQ := x.sendQ.filter (fun e => !mine e.1) })
  ((s.die d).outst.filter (fun e => mine e.2)).foldl (fun s e => s.retire d e.1) s

/-- The miss registers of a tenant's VI are freed (ledger 3). -/
def dropMisses (tenant v : Nat) (x : Cluster) : Cluster :=
  let mine : MissReg → Bool := fun m => m.tenant == tenant && m.vi == v
  { x with miss := x.miss.filter (fun m => !mine m), missFree := x.missFree + (x.miss.filter mine).length,
           aside := x.aside.filter (fun a => !(a.tenant == tenant && a.vi == v)) }

/-- R336: a wait of a VI: on its own package it goes without reply; at another package it is cancelled. -/
def State.resetWait (s : State) (d : Nat) (w : WaiterRef) (h : Word) (cls deadline : Nat) : State :=
  if diePkg (hDie h) = diePkg d then s.dropWait d (hDie h) w else s.leaveWait d w h cls deadline

/-- R406 steps 1, 2 and 5 for a VI's commands: waits leave, units forget, and no completion follows. -/
def State.discardCmds (s : State) (p v : Nat) : State :=
  let s := (s.viCmds p v).foldl (fun s c =>
    match s.rcmd? c with
    | some k => (match k.work with
      | .sigWait .. => s.resetWait (s.cmdDie c k) (.cmd c) k.signal k.cls k.deadline
      | _ => s)
    | none => s) s
  let s := (List.range 8).foldl (fun s i => s.modDie (p * 8 + i) (dropWork (ofVi p v))) s
  let s := s.modPkg p (fun k => { k with shCmds := k.shCmds.filter (fun e => !ofVi p v e.c) })
  let keep : Option CmdRef → Option CmdRef := fun l => match l with | some c => if ofVi p v c then none else some c | none => none
  { s with clusters := tmap s.clusters (fun _ k => dropHub (ofVi p v) k),
           threads := tmap s.threads (fun _ t => { t with launch := keep t.launch }),
           dies := tmap s.dies (fun _ x => { x with arrivals := x.arrivals.map (fun q => { q with launch := keep q.launch }) }) }

/-- R406 step 5: a VI's threads end, HALTED ones too, and its tickets leave the arrival queues. -/
def State.endThreads (s : State) (p v tenant : Nat) : State :=
  let mine := s.threads.filter (fun e => thDie e.1 / 8 == p && e.2.st != .free && e.2.vi == v && e.2.tenant == tenant)
  let s := mine.foldl (fun s e =>
    let s := match e.2.wait with
      | .sig _ _ h _ _ _ _ _ _ _ =>
        (s.resetWait (thDie e.1) (.thread (BitVec.ofNat 23 e.1)) h e.2.cls e.2.deadline).modThread e.1 (fun t => { t with wait := .none })
      | _ => s
    s.endThread e.1 true) s
  (List.range 8).foldl (fun s i => s.endTickets (p * 8 + i) v) s

/-- R475: a VI reset discards the function's stored responses and abandons the request in progress; a MAP or UNMAP under way
completes (R521). -/
def State.resetMailbox (s : State) (p v : Nat) : State :=
  let m := tget (s.pkg p).mbs v {}
  let rs := match m.wait with | .sections r _ => r | _ => []
  let s := s.modPkg p (fun k => { k with mbs := tset k.mbs v { m with owned := false, done := false, stored := [], wait := .none },
                                         goQueue := k.goQueue.filter (· != v) })
  s.modVi p v (fun x => { x with rRanges := x.rRanges ++ rs })

/-- R406 steps 1 to 5. -/
def State.startReset (s : State) (p v : Nat) (scrub unbind disable : Bool) : State :=
  let x := s.vi p v
  match x.st with
  | .resetting => s.modVi p v (fun x => { x with rScrub := x.rScrub || scrub, rUnbind := x.rUnbind || unbind, rDisable := x.rDisable || disable })
  | .bound =>
    let t := x.tenant
    let s := s.resetMailbox p v
    let s := s.discardCmds p v
    let s := s.modVi p v (fun x => { x with st := .resetting, rings := [], lastRing := 15, rStep := 6, rStart := (s.pkg p).tick,
                                            rScrub := scrub, rUnbind := unbind, rDisable := disable })
    let s := (List.range 8).foldl (fun s i => s.abandonReads (p * 8 + i) t v) s
    let s := { s with clusters := tmap s.clusters (fun n k => if clDie n / 8 == p then dropMisses t v k else k) }
    let s := s.endThreads p v t
    (List.range 8).foldl (fun s i => s.modDie (p * 8 + i) (fun y => { y with
      hints := y.hints.filter (fun h => h.vi != v),
      governs := (match y.governs with | some h => if h.vi == v then none else some h | none => none),
      scopes := terase y.scopes t, reported := terase y.reported t })) s
  | _ => if disable then s.modVi p v (fun x => { x with st := .disabled }) else s

/-- R315: a pool signal is freed: it becomes unowned, goes back to its VI's share, and its waits end. -/
def State.freePool (s : State) (d key v : Nat) : State :=
  let g := s.signal d key
  let s := s.modDie d (fun x => { x with signals := terase x.signals key })
  let s := s.releaseUnit 5 d v
  g.waiters.foldl (fun s w => s.answerWait w.rq 1 g.count.toNat) s

/-- R406 step 7: caches, pool signals, tokens, the trap entry and what the VI's rings had set. -/
def State.releaseVi (s : State) (p v : Nat) : State :=
  let t := (s.vi p v).tenant
  let s := { s with clusters := tmap s.clusters (fun n k => if clDie n / 8 == p then purgeTenant t v k else k) }
  let s := s.keepLa p (fun e => e.tenant != t)
  let s := (s.vi p v).rRanges.foldl (fun s r => s.releaseRange r) s
  let s := (List.range 8).foldl (fun s i =>
    let d := p * 8 + i
    let s := ((s.die d).signals.filter (fun e => e.1 < 65536 && e.2.owner == t)).foldl (fun s e => s.freePool d e.1 v) s
    let s := (List.range (s.share 4 d v).held).foldl (fun s _ => s.releaseUnit 4 d v) s
    let s := (s.auditDue 4 d).auditDue 5 d
    s.modDie d (fun x => { x with
      qLimit := terase x.qLimit v, prefs := x.prefs.filter (fun e => e.1 / 4 != v),
      rtables := tmap x.rtables (fun _ r => if r.vi == some v then
        { r with ex := tmap r.ex (fun _ e => { e with hist := 0, pinned := false }) } else r) })) s
  s.modVi p v (fun x => { x with trapPc := 0, rRanges := [] })

/-- R408: the engines of a die that scrub: those that hold no chain in progress, or all. -/
def State.scrubEngines (s : State) (d : Nat) : List Nat :=
  let l := (List.range 8).filter (fun e => s.unitRuns d (dmaUnit e))
  let idle := l.filter (fun e => (s.eng d e).chains.isEmpty)
  if idle.isEmpty then l else idle

/-- The part of a range that falls to engine i of n, in pieces of whole 4 KiB blocks (log 24). -/
def scrubPart (n i : Nat) (r : Nat × Nat) : Option (Nat × Nat) :=
  let len := rangeHi r - rangeLo r
  let sz := ((len + n - 1) / n + 4095) / 4096 * 4096
  if len ≤ i * sz then none else some (rangeLo r + i * sz, min sz (len - i * sz))

/-- R408: the scrub of a VI begins: zeros, as tenant 0 at Freight, to every range of the package that the VI's tenant owns and that a section of
the VI maps, dealt over the engines of the range's die. -/
def State.startScrub (s : State) (p v : Nat) : State :=
  let t := (s.vi p v).tenant
  let rs := (((s.sectionsOf p v).map (fun e => entryRanges e.2)).flatten.eraseDups).filter (fun r => r.1 / 8 == p && tget (s.die r.1).owner r.2 0 == t)
  (List.range 8).foldl (fun s i =>
    let d := p * 8 + i
    let es := s.scrubEngines d
    (es.zipIdx).foldl (fun s (e, n) =>
      match (rs.filter (fun r => r.1 == d)).filterMap (scrubPart es.length n) with
      | [] => s
      | (lo, k) :: rest =>
        s.modEng d e (fun x => { x with nextSeq := x.nextSeq + 1, chains := x.chains ++
          [{ c := ⟨BitVec.ofNat 8 p, BitVec.ofNat 5 v, 0, BitVec.ofNat 32 e⟩, tenant := 0, vi := v, cls := 2, deadline := 2 ^ 26 - 1, engine := e, va := 0,
             desc := some (scrubDesc lo k), seq := x.nextSeq + 1, scrub := true, pieces := rest }] })) s) s

/-- The scrub chains of a VI on its package: die, engine and chain. -/
def State.scrubChains (s : State) (p v : Nat) : List (Nat × Chain) :=
  ((List.range 8).map (fun i => (((s.die (p * 8 + i)).engines.map (fun e => e.2.chains)).flatten.filter (fun k => k.scrub && k.vi == v)).map (fun k =>
    (p * 8 + i, k)))).flatten

/-- R408: every write of the scrub is acknowledged. -/
def State.scrubbed (s : State) (p v : Nat) : Bool :=
  (s.scrubChains p v).all (fun e => (e.2.finished || e.2.reason != 0) && s.cmdOut e.1 e.2.c == 0)

/-- The scrub's chains go. -/
def State.endScrub (s : State) (p v : Nat) : State :=
  (List.range 8).foldl (fun s i => s.modDie (p * 8 + i) (fun x =>
    { x with engines := tmap x.engines (fun _ e => { e with chains := e.chains.filter (fun k => !(k.scrub && k.vi == v)) }) })) s

/-- The die from which a package's head Turja speaks. -/
def headDie (p : Nat) : Nat := p * 8

/-- R403, R544: the central station forgets a binding. -/
def State.unbindCentral (s : State) (p v t : Nat) : State :=
  match (s.pkg p).central with
  | none => s
  | some c =>
    if c = p then s.modPkg p (fun k => { k with bindings := k.bindings.filter (· != p * 4096 + t) })
    else s.post (s.mgmt (headDie p) (headDie c) (.mgmt (.unbound (BitVec.ofNat 5 v) (BitVec.ofNat 12 t))))

/-- R406 step 9 of an unbind: sections, level-2 tables, shares and route tables go; the VI becomes FREE, or DISABLED (R410). -/
def State.unbindVi (s : State) (p v : Nat) : State :=
  let x := s.vi p v
  let secs := s.sectionsOf p v
  let rs := (secs.map (fun e => entryRanges e.2)).flatten
  let s := s.modPkg p (fun k => { k with sections := k.sections.filter (fun e => e.1 / 2 ^ 23 != v), l2 := k.l2.filter (fun e => e.1 / 2048 != v) })
  let s := (s.copyAll p).keepLa p (fun e => e.tenant != x.tenant)
  let s := rs.foldl (fun s r => s.releaseRange r) s
  let s := (List.range 8).foldl (fun s i =>
    let d := p * 8 + i
    let s := [4, 5].foldl (fun s l =>
      let sh := (s.share l d v).share
      ((s.setShare l d v {}).loseGain l d v).giveUnalloc l d sh) s
    s.modDie d (fun y => { y with rtables := tmap y.rtables (fun _ r => if r.vi == some v then {} else r) })) s
  let s := s.modVi p v (fun x => { x with
    st := if x.rDisable then .disabled else .free, tenant := 0, ceiling := 0, scrub := false, wbBase := 0, rStep := 0, binding := none })
  s.unbindCentral p v x.tenant

/-- R406 step 9. -/
def State.returnVi (s : State) (p v : Nat) : State :=
  if (s.vi p v).rUnbind then s.unbindVi p v
  else (s.modVi p v (fun x => { x with st := .bound, rStep := 0 })).event (headDie p) 0 evViReady noUnit v

/-- R406 steps 7 to 9, once nothing of the VI is outstanding. -/
def State.drainedVi (s : State) (p v : Nat) : State :=
  let s := s.releaseVi p v
  if (s.vi p v).rScrub then (s.startScrub p v).modVi p v (fun x => { x with rStep := 8 }) else s.returnVi p v

/-- Requests of a VI that the dies of its package still have out. -/
def State.viOut (s : State) (p v : Nat) : Nat :=
  let t := (s.vi p v).tenant
  (List.range 8).foldl (fun n i => n + s.unanswered (p * 8 + i) (ofTenant t v)) 0

/-- R401: the physical function of a virtual function, and which VIs are virtual functions, in the package's port mode. -/
def State.x8x8 (s : State) (p : Nat) : Bool := match (s.pkg p).image with | some i => i.x8x8 | none => false
def State.isPf (s : State) (p v : Nat) : Bool := v == 0 || (s.x8x8 p && v == 16)
def State.vfsOf (s : State) (p : Nat) (pf16 : Bool) : List Nat :=
  if s.x8x8 p then (if pf16 then (List.range 32).filter (fun v => decide (16 < v)) else (List.range 16).filter (fun v => decide (0 < v)))
  else if pf16 then [] else (List.range 32).filter (fun v => decide (0 < v))

/-- The scrub that a RESET asks for: 0 the VI's policy, 1 scrub, 2 none (R519). -/
def State.scrubChoice (s : State) (p v scrub : Nat) : Bool := if scrub = 0 then (s.vi p v).scrub else scrub == 1

/-- R410, R466: the virtual functions of a physical function are reset, unbound and disabled, and its VF Enable cleared. -/
def State.clearVfs (s : State) (p : Nat) (pf16 : Bool) : State :=
  let s := (s.vfsOf p pf16).foldl (fun s v => s.startReset p v (s.vi p v).scrub true true) s
  s.modPkg p (fun k => if pf16 then { k with vfEnable16 := false } else { k with vfEnable := false })

/-- R410, R466: the reset of a function, by itself or as the first part of its unbind; `scrub` is for the function's own VI. -/
def State.resetFunction (s : State) (p v : Nat) (scrub unbind : Bool) : State :=
  if v = 0 then
    let s := s.clearVfs p false
    let s := if s.x8x8 p then (s.clearVfs p true).startReset p 16 (s.vi p 16).scrub true false else s
    s.startReset p 0 scrub unbind false
  else if v = 16 ∧ s.x8x8 p then (s.clearVfs p true).startReset p 16 scrub unbind false
  else s.startReset p v scrub unbind false

/-- VI_RESET (R406, R410). -/
def execViReset (pkg : BitVec 8) (vi : BitVec 5) (scrub : BitVec 2) (s : State) : Out :=
  let p := pkg.toNat
  let v := vi.toNat
  let scrub := s.scrubChoice p v scrub.toNat
  if s.pkgUp p && (s.vi p v).st == .bound then
    .next (if v = 0 then s.resetFunction p 0 scrub false else s.startReset p v scrub false false)
  else .next s

/-- VI_RESET_ZERO_OUTSTANDING (R406 step 6). -/
def execViResetZeroOutstanding (pkg : BitVec 8) (vi : BitVec 5) (s : State) : Out :=
  let p := pkg.toNat
  let v := vi.toNat
  if s.pkgUp p && (s.vi p v).st == .resetting && (s.vi p v).rStep == 6 && s.viOut p v == 0 then .next (s.drainedVi p v) else .next s

/-- R407: the requests of a VI on a die are retired by force; their tags are kept from use. -/
def State.forceOut (s : State) (d tenant v : Nat) : State :=
  let now := s.now d
  s.modDie d (fun x =>
    let out := x.outst.filter (fun e => ofTenant tenant v e.2)
    { x with outst := x.outst.filter (fun e => !ofTenant tenant v e.2), sendQ := x.sendQ.filter (fun e => !ofTenant tenant v e.1),
             quarantine := out.foldl (fun q e => tset q e.1 now) x.quarantine })

/-- VI_RESET_FORCE_TIMER (R407). -/
def execViResetForceTimer (pkg : BitVec 8) (vi : BitVec 5) (s : State) : Out :=
  let p := pkg.toNat
  let v := vi.toNat
  let x := s.vi p v
  let n := s.viOut p v
  if s.pkgUp p && x.st == .resetting && x.rStep == 6 && after (s.pkg p).tick x.rStart (2 * tickMs) && n != 0 then
    let s := (List.range 8).foldl (fun s i => s.forceOut (p * 8 + i) x.tenant v) s
    .next ((s.event (headDie p) 0 evResetForced noUnit (v + 32 * n)).drainedVi p v)
  else .next s

/-- TAG_QUARANTINE_END (R407): 100 ms. -/
def execTagQuarantineEnd (die : BitVec 11) (tag : BitVec 12) (s : State) : Out :=
  let d := die.toNat
  match tget? (s.die d).quarantine tag.toNat with
  | some since =>
    if after (s.now d) since (100 * tickMs) then
      let s := s.modDie d (fun x => { x with quarantine := terase x.quarantine tag.toNat })
      .next (s.flushSendQ d (s.die d).sendQ [])
    else .next s
  | none => .next s

/-- VI_SCRUB_COMPLETE (R408): once the engines' writes of zeros are acknowledged. -/
def execViScrubComplete (pkg : BitVec 8) (vi : BitVec 5) (s : State) : Out :=
  let p := pkg.toNat
  let v := vi.toNat
  if s.pkgUp p && (s.vi p v).st == .resetting && (s.vi p v).rStep == 8 && s.scrubbed p v then .next ((s.endScrub p v).returnVi p v) else .next s

/-! ### Functions (R401, R410, R466) -/

/-- VF_ENABLE_SET (R401): virtual functions become FREE. -/
def execVfEnableSet (pkg : BitVec 8) (pf16 : Bool) (s : State) : Out :=
  let p := pkg.toNat
  if !s.pkgUp p || (pf16 && !s.x8x8 p) then .next s
  else
    let s := s.modPkg p (fun k => if pf16 then { k with vfEnable16 := true } else { k with vfEnable := true })
    .next ((s.vfsOf p pf16).foldl (fun s v => s.modVi p v (fun x => if x.st == .disabled then { x with st := .free } else x)) s)

/-- VF_ENABLE_CLEAR (R401, R410). -/
def execVfEnableClear (pkg : BitVec 8) (pf16 : Bool) (s : State) : Out :=
  let p := pkg.toNat
  if !s.pkgUp p || (pf16 && !s.x8x8 p) then .next s else .next (s.clearVfs p pf16)

/-- FUNCTION_LEVEL_RESET (R466). -/
def execFunctionLevelReset (pkg : BitVec 8) (vi : BitVec 5) (s : State) : Out :=
  let p := pkg.toNat
  if s.pkgUp p && (s.vi p vi.toNat).st != .disabled then .next (s.resetFunction p vi.toNat (s.vi p vi.toNat).scrub false) else .next s

end Sys2Proof.Machine
end

