-- ==== Sys2Proof/Machine/Routes.lean ====
section
/-! DEFINITION. The machine as the central station sees it: link partners (R16, R17), registrations and the roster (R539 to R544), link-state
maps and the route tables computed from them (R371 to R375), and EPOCH announcements (R550 to R554). -/
set_option Elab.async false
namespace Sys2Proof.Machine

/-! ### Link partners (R16 to R18) -/

/-- The role of a port (0 X, 1 L, 2 S, in R372's order) and its link number. -/
def portLink (die q : Nat) : Nat × Nat :=
  if die < 4 then (if q < 3 then (2, q + 1) else (1, die + 1))
  else if die = 4 then (if q < 3 then (1, 5 + q) else (0, 1))
  else if die = 5 then (if q < 3 then (1, 8 + q) else (0, 2))
  else if die = 6 then (if q < 3 then (1, 11 + q) else (0, 3))
  else (if q < 2 then (1, 14 + q) else (0, q + 2))

/-- R12: a package number from rack, tray and slot. -/
def mkPkg (r t s : Nat) : Nat := r % 4 * 64 + t % 16 * 4 + s % 4

/-- R17: the partner package of a port of package p. -/
def partner (p die q : Nat) : Nat :=
  let r := p / 64
  let t := p / 4 % 16
  let s := p % 4
  match portLink die q with
  | (2, k) => mkPkg r t (s ^^^ k)
  | (1, k) => mkPkg r (t ^^^ k) s
  | (_, k) => if k ≤ 3 then mkPkg (r ^^^ k) t s else if k = 4 then mkPkg (r ^^^ 1) (t ^^^ 8) s else mkPkg (r ^^^ 2) (t ^^^ 8) s

/-- R18: a cross link whose partner rack is not in the machine. -/
def State.absentRack (s : State) (p die q : Nat) : Bool := (portLink die q).1 == 0 && !s.inMachine p (partner p die q)

/-- R535, R537, R541: a package that keeps its ports dark and answers every BIND with GONE: STRAPS 0, a rack beyond RACKS, or held. -/
def State.keptDark (s : State) (p : Nat) : Bool :=
  let k := s.pkg p
  k.held || !k.clean || (match k.image with | some i => decide (i.racks ≤ k.rack) | none => true)

/-- A port that never trains. -/
def State.neverTrains (s : State) (p die q : Nat) : Bool := s.keptDark p || s.absentRack p die q

/-! ### Registrations (R540) -/

/-- A package's registration as it stands. -/
def State.registration (s : State) (p : Nat) : Registration :=
  { pkg := BitVec.ofNat 8 p, silicon := Config.siliconId p, pepoch := (s.pkg p).epoch,
    depochs := (List.range 8).map (fun i => (s.die (p * 8 + i)).epoch), lead := (s.pkg p).lead,
    ports := (List.range 32).filter (fun i => portLive (s.port (p * 8 + i / 4) (i % 4))),
    fencedJ := (List.range 24).filter (fun i => (s.junction (p * 8 + i / 3) (i % 3)).fence != .none) }

/-- A registration replaces the package's earlier one. -/
def rosterPut (l : List Registration) (r : Registration) : List Registration := l.filter (fun e => e.pkg != r.pkg) ++ [r]

/-- R539: the lead candidate with the lowest package number of a list of registrations. -/
def lowestLead (l : List Registration) : Option Nat :=
  minBy (fun a b => decide (a < b)) ((l.filter (·.lead)).map (·.pkg.toNat))

/-- The dies of a package in service. -/
def State.upDies (s : State) (p : Nat) : List Nat := (List.range 8).filter (fun i => s.dieUp (p * 8 + i))

/-- R374: a change of a port or junction is reported to the central station (log 25: as a registration). -/
def State.reportLinks (s : State) (p : Nat) : State :=
  match (s.pkg p).central with
  | none => s
  | some c =>
    let r := s.registration p
    if c = p then s.modPkg p (fun k => { k with roster := rosterPut k.roster r, mapDue := true })
    else s.post (s.mgmt (headDie p) (headDie c) (.mgmt (.register r)))

/-! ### A port that goes dark (R374, R380) -/

/-- The packets whose slots a port has sent or begun and whose flits are not acknowledged. -/
def unacked (x : Port) : List Packet :=
  (x.replay.flatMap Flit.slots ++ x.txRest).foldl (fun l w => match w with
    | .of p _ _ => if l.any (samePk p) then l else l ++ [p]
    | .raw _ => l) []

/-- R380: the Buffer stop of the sending die answers the unacknowledged requests of a port that goes dark, tickets excepted (R381). -/
def State.stopUnacked (s : State) (d : Nat) (p : Packet) : State :=
  match p.body with
  | .ticket .. => s
  | _ => s.stopPacket d p

/-- A port goes, or stays, dark: what it had unacknowledged meets the Buffer stop (R380), and the link it had is reported as lost (R374). -/
def State.darken (s : State) (d q : Nat) (f : Port → Port) : State :=
  let x := s.port d q
  let s := s.modPort d q (fun x => { f x with
    far := none, width := 0, frozen := false, replay := [], resend := [], ctrlQ := [], txRest := [], rxPart := [], owed := [], escOwed := [],
    widthStep := none, ownStep := none })
  let s := (unacked x).foldl (fun s p => s.stopUnacked d p) s
  if x.far.isSome then s.reportLinks (diePkg d) else s

/-! ### Routes (R371 to R373) -/

/-- A route from a die to a package: link hops * 64 + junction hops, the links it takes, its first hop as LINK ROUTES codes it, and
the hops it takes. -/
structure Route where
  cost : Nat
  key : List Nat
  first : Nat
  path : List Nat
  deriving DecidableEq, Repr

def lexLt : List Nat → List Nat → Bool
  | [], [] => false
  | [], _ :: _ => true
  | _ :: _, [] => false
  | a :: r, b :: t => decide (a < b) || (a == b && lexLt r t)

/-- R372: fewer link hops, then fewer junction hops, then the lowest link role and number at each hop. -/
def routeLt (a b : Route) : Bool := decide (a.cost < b.cost) || (a.cost == b.cost && lexLt a.key b.key)

/-- The map's registration of a package. -/
def mapReg (m : LinkMap) (p : Nat) : Option Registration := m.pkgs.find? (fun r => r.pkg.toNat == p)

/-- A link of the map: both ends list the port as trained. -/
def mapLink (m : LinkMap) (p d q : Nat) : Bool :=
  match mapReg m p, mapReg m (partner p d q) with
  | some a, some b => a.ports.contains (d * 4 + q) && b.ports.contains (d * 4 + q)
  | _, _ => false

/-- A junction of the map that neither end has fenced. -/
def mapJunction (m : LinkMap) (p d j : Nat) : Bool :=
  match mapReg m p with
  | some r => !r.fencedJ.contains (d * 3 + j) && !r.fencedJ.contains (jAcross d j * 3 + jTwin j)
  | none => false

/-- One round of relaxation at a die n (package * 8 + die). -/
def relax (m : LinkMap) (known : Tab Route) (n : Nat) : Option Route :=
  let p := diePkg n
  let d := dieNo n
  let links := (List.range 4).filterMap (fun q =>
    if mapLink m p d q then
      let t := partner p d q * 8 + d
      (tget? known t).map (fun r => ⟨r.cost + 64, ((portLink d q).1 * 16 + (portLink d q).2) :: r.key, q, (n * 8 + q) :: r.path⟩)
    else none)
  let juncs := [2, 0, 1].filterMap (fun j =>
    if mapJunction m p d j then
      let t := p * 8 + jAcross d j
      (tget? known t).map (fun r => ⟨r.cost + 1, r.key, 0x10 + jAcross d j, (n * 8 + 4 + j) :: r.path⟩)
    else none)
  minBy routeLt ((match tget? known n with | some r => [r] | none => []) ++ links ++ juncs)

def relaxAll (m : LinkMap) (known : Tab Route) : Tab Route :=
  let nodes := (m.pkgs.map (fun r => (List.range 8).map (fun d => r.pkg.toNat * 8 + d))).flatten
  nodes.foldl (fun acc n => match relax m known n with | some r => tset acc n r | none => acc) []

def relaxN (m : LinkMap) : Nat → Tab Route → Tab Route
  | 0, k => k
  | f + 1, k => let k' := relaxAll m k; if k' == k then k else relaxN m f k'

/-- The routes of every die of the map to a package. -/
def routesTo (m : LinkMap) (p : Nat) : Tab Route :=
  relaxN m 31 ((List.range 8).map (fun d => (p * 8 + d, (⟨0, [], 0xFE, []⟩ : Route))))

/-- R374: no route exceeds 6 link hops or 31 hops in all. -/
def routeOf (m : LinkMap) (n p : Nat) : Option Route :=
  match tget? (routesTo m p) n with
  | some r => if r.cost / 64 ≤ 6 ∧ r.cost / 64 + r.cost % 64 ≤ 31 then some r else none
  | none => none

/-- R371: the table of a die: entries other than unreachable. -/
def routeTable (m : LinkMap) (n : Nat) : Tab Nat :=
  m.pkgs.foldl (fun t r => match routeOf m n r.pkg.toNat with | some x => tset t r.pkg.toNat x.first | none => t) []

/-! ### Epochs known -/

/-- R542, R552: the epochs that a map carries. -/
def learnEpochs (m : LinkMap) (x : Die) : Die :=
  m.pkgs.foldl (fun x r => { x with
    pkgEpochs := tset x.pkgEpochs r.pkg.toNat r.pepoch,
    dieEpochs := (List.range 8).foldl (fun t i => tset t (r.pkg.toNat * 8 + i) (r.depochs.getD i 0)) x.dieEpochs }) x

/-- The junctions of a package on the way between two of its dies, by a map (R373). -/
def mapPath (m : LinkMap) (p : Nat) : Nat → Nat → Nat → List Nat
  | 0, _, _ => []
  | f + 1, a, b =>
    match jNext (mapJunction m p) a b with
    | some j => (p * 64 + a * 8 + 4 + j) :: mapPath m p f (jAcross a j) b
    | none => []

/-- The die by which a route enters its package. -/
def entryDie (n : Nat) (r : Route) : Nat :=
  match r.path.getLast? with
  | some v => if v % 8 < 4 then v / 8 % 8 else jAcross (v / 8 % 8) (v % 8 - 4)
  | none => dieNo n

/-- R375: the full route from a die to each die of a package. -/
def fullRoute (m : LinkMap) (n p : Nat) : Option (List Nat × List (List Nat)) :=
  (routeOf m n p).map (fun r => (r.path, (List.range 8).map (fun b => mapPath m p 8 (entryDie n r) b)))

/-- R375: the channels held by a route change: those of each package whose full route changed, the die's own package and packages that left the map
among them. -/
def newHolds (old new : LinkMap) (n : Nat) : List Nat :=
  let ps := ((old.pkgs ++ new.pkgs).map (·.pkg.toNat) ++ [diePkg n]).eraseDups
  let changed := ps.filter (fun p => fullRoute old n p != fullRoute new n p)
  (changed.map (fun p => [p * 8, p * 8 + 2, p * 8 + 4])).flatten

/-- R374, R375: a die installs a newer map. -/
def installMap (m : LinkMap) (n : Nat) (x : Die) : Die :=
  let holds := x.holds ++ newHolds x.map m n
  let x := learnEpochs m { x with map := m, routes := routeTable m n, holds := holds }
  { x with holds := stillHeld x }

/-! ### The central station -/

/-- A map sent to the head Turja of every registered package. -/
def State.sendMap (s : State) (c : Nat) (m : LinkMap) : State :=
  m.pkgs.foldl (fun s r => s.post (s.mgmt (headDie c) (headDie r.pkg.toNat) (.map m))) s

/-- R543: the central station's tick count, to every registered package (log 25: no measured flight time). -/
def State.sendTick (s : State) (c : Nat) : State :=
  let s := s.modPkg c (fun k => { k with lastAlign := k.tick, joined := true })
  ((s.pkg c).roster.filter (fun r => r.pkg.toNat != c)).foldl (fun s r =>
    s.post (s.mgmt (headDie c) (headDie r.pkg.toNat) (.mgmt (.tick (BitVec.ofNat 64 (s.pkg c).tick) 0)))) s

/-- R550: an EPOCH announcement to every die of the package and to the head Turja of every other registered package: it leaves at once, where a way
leads, so that it is sent before ports and junctions go (R546). -/
def State.sendEpoch (s : State) (p : Nat) (e : EpochMsg) : State :=
  let own := (List.range 8).map (fun i => p * 8 + i)
  let far := ((s.die (headDie p)).map.pkgs.map (fun r => headDie r.pkg.toNat)).filter (fun h => diePkg h != p)
  (own ++ far).foldl (fun s t => let k := s.mgmt (headDie p) t (.epoch e); (s.post k).bring k) s

def epochDie (p d state old new tick : Nat) : EpochMsg :=
  { isPkg := false, state := BitVec.ofNat 2 state, pkg := BitVec.ofNat 8 p, die := BitVec.ofNat 3 d, old := BitVec.ofNat 16 old,
    new := BitVec.ofNat 16 new, tick := BitVec.ofNat 64 tick }

def epochPkg (p state old new tick : Nat) : EpochMsg := { epochDie p 0 state old new tick with isPkg := true }

/-- A link of the roster that both its ends report trained. -/
def anyLink (l : List Registration) (p : Nat) : Bool :=
  (List.range 32).any (fun i => mapLink ⟨0, l⟩ p (i / 4) (i % 4))

/-- R374, R554: the central station issues its next map; a package with no trained port is announced OUT_OF_SERVICE and leaves. -/
def State.issueMap (s : State) (c : Nat) : State :=
  let k := s.pkg c
  let gone := k.roster.filter (fun r => r.pkg.toNat != c && !anyLink k.roster r.pkg.toNat)
  let s := gone.foldl (fun s r => s.sendEpoch c (epochPkg r.pkg.toNat 2 r.pepoch.toNat r.pepoch.toNat k.tick)) s
  let s := s.modPkg c (fun k => { k with roster := rosterPut (k.roster.filter (fun r => !gone.contains r)) (s.registration c),
                                         mapDue := false, installed := [], mapVersion := k.mapVersion + 1 })
  let s := s.sendMap c ⟨(s.pkg c).mapVersion, (s.pkg c).roster⟩
  s.sendTick c

/-- MAP_SEND (R374). -/
def execMapSend (pkg : BitVec 8) (s : State) : Out :=
  let c := pkg.toNat
  let k := s.pkg c
  if s.pkgUp c && k.central == some c && k.mapDue && k.mapVersion != 0 && (s.die (headDie c)).swapping.isNone then .next (s.issueMap c)
  else .next s

/-- R542: every package of the image's racks has registered, or 2 s have passed since the first port came up. -/
def State.joinEnds (s : State) (c : Nat) : Bool :=
  let k := s.pkg c
  let racks := match k.image with | some i => i.racks | none => 0
  (decide (0 < racks) && (List.range (64 * racks)).all (fun p => k.roster.any (fun r => r.pkg.toNat == p))) ||
  (match k.joinAt with | some t => after k.tick t (2000 * tickMs) | none => false)

/-- JOIN_WINDOW_EXPIRE (R542): map version 1. -/
def execJoinWindowExpire (pkg : BitVec 8) (s : State) : Out :=
  let c := pkg.toNat
  let k := s.pkg c
  if s.pkgUp c && k.central == some c && k.mapVersion == 0 && s.joinEnds c then .next (s.issueMap c) else .next s

/-- TICK_ALIGN (R543): every 1 s. -/
def execTickAlign (pkg : BitVec 8) (s : State) : Out :=
  let c := pkg.toNat
  let k := s.pkg c
  if s.pkgUp c && k.central == some c && k.mapVersion != 0 && after k.tick k.lastAlign (1000 * tickMs) then .next (s.sendTick c) else .next s

/-- R541: a package holds itself, or is held, out of service: its ports go dark; it reports that (R374). -/
def State.holdPkg (s : State) (p : Nat) : State :=
  let s := s.modPkg p (fun k => { k with held := true })
  let s := (List.range 32).foldl (fun s i => s.darken (p * 8 + i / 4) (i % 4) (fun q =>
    { q with st := if q.st == .refused || q.st == .fenced then q.st else .dark, retryAt := none })) s
  s.reportLinks p

/-- R541: the central station holds a package number out of service: HOLD to the packages that claim it. -/
def State.holdNumber (s : State) (c : Nat) (n : BitVec 8) : State :=
  let s := s.modPkg c (fun k => { k with roster := k.roster.filter (fun e => e.pkg != n), mapDue := true })
  s.post (s.mgmt (headDie c) (headDie n.toNat) (.mgmt (.hold n)))

/-- R541: a miswire report reaches the central station, which holds a far number that its roster holds already; a package whose every port is
refused holds itself. -/
def State.miswired (s : State) (p far : Nat) : State :=
  let s := match (s.pkg p).central with
    | some c => if (s.pkg c).roster.any (fun r => r.pkg.toNat == far) then s.holdNumber c (BitVec.ofNat 8 far) else s
    | none => s
  if (List.range 32).all (fun i => (s.port (p * 8 + i / 4) (i % 4)).st == .refused || s.absentRack p (i / 4) (i % 4)) then s.holdPkg p else s

/-- R540, R541: the central station takes a registration; two silicon identifiers for one number hold both packages. -/
def State.takeRegistration (s : State) (c : Nat) (r : Registration) : State :=
  let k := s.pkg c
  match k.roster.find? (fun e => e.pkg == r.pkg) with
  | some e =>
    if e.silicon != r.silicon then s.holdNumber c r.pkg
    else s.setPkg c { k with roster := rosterPut k.roster r, mapDue := k.mapDue || e != r }
  | none => s.setPkg c { k with roster := rosterPut k.roster r, mapDue := true }

/-- R539: before any map, a lead candidate takes the lowest lead candidate that has registered for the central station. -/
def State.elect (s : State) (p : Nat) : State :=
  let k := s.pkg p
  if k.mapVersion = 0 then s.setPkg p { k with central := lowestLead k.roster } else s

/-- REGISTRATION (R540): once a first port is up, a head Turja registers with every lead candidate it can reach. -/
def execRegistration (pkg : BitVec 8) (s : State) : Out :=
  let p := pkg.toNat
  let r := s.registration p
  if !s.pkgUp p || !s.dieUp (headDie p) || r.ports.isEmpty then .next s
  else
    let s := if r.lead then
        let s := s.modPkg p (fun k => { k with joinAt := some (k.joinAt.getD k.tick) })
        (s.takeRegistration p r).elect p
      else s
    let leads := (s.reach (headDie p)).filter (fun n => dieNo n == 0 && diePkg n != p && (s.pkg (diePkg n)).lead)
    .next (leads.foldl (fun s n => s.post (s.mgmt (headDie p) n (.mgmt (.register r)))) s)

/-- R403, R544: the bindings of every package, as the packages report them. -/
def State.allBindings (s : State) (l : List Registration) : List Nat :=
  (l.map (fun r => let p := r.pkg.toNat
    ((s.pkg p).vis.filter (fun e => e.2.st == .bound || e.2.st == .resetting)).map (fun e => p * 4096 + e.2.tenant))).flatten

/-- R544: a lead candidate becomes the central station: it asks every package it reaches for its registration and bindings and issues a
map above every version reported (log 25: the exchange is one step). -/
def State.takeOver (s : State) (c : Nat) : State :=
  let heads := (s.reach (headDie c)).filter (fun n => dieNo n == 0 && s.dieUp n)
  let roster := heads.map (fun n => s.registration (diePkg n))
  let top := heads.foldl (fun v n => max v (max (s.pkg (diePkg n)).mapVersion.toNat (s.die n).map.version.toNat)) 0
  let s := s.modPkg c (fun k => { k with
    roster := roster, bindings := s.allBindings roster, mapVersion := BitVec.ofNat 32 top, central := some c, joinAt := some (k.joinAt.getD k.tick) })
  let s := heads.foldl (fun s n => s.modPkg (diePkg n) (fun k => { k with central := some c })) s
  s.issueMap c

/-- CENTRAL_STATION_TAKEOVER (R544): the central station that the package knows has left service, and it is the next lead candidate. -/
def execCentralStationTakeover (pkg : BitVec 8) (s : State) : Out :=
  let c := pkg.toNat
  let k := s.pkg c
  let heads := (s.reach (headDie c)).filter (fun n => dieNo n == 0 && s.dieUp n)
  let lost := match k.central with
    | some x => decide (x ≠ c) && !s.dieUp (headDie x)
    | none => k.mapVersion != 0
  let lower := heads.any (fun n => (s.pkg (diePkg n)).lead && decide (diePkg n < c))
  if s.pkgUp c && s.dieUp (headDie c) && k.lead && lost && !lower then .next (s.takeOver c) else .next s

/-! ### Management packets -/

/-- The arrival of a management packet: handed to its die, or dropped on its way (R378), which its sender learns. -/
def State.arriveMgmt (s : State) (p : Packet) : Arrival :=
  let s := s.bring p
  if s.lost.any (fun a => samePk a p) then .answered { s with lost := dropFirst (fun a => samePk a p) s.lost }
  else if !s.isNext p || !s.dieUp p.dst then .notNext s
  else .here (s.take p)

/-- R374: a die installs a map newer than the one it holds; the head Turja passes it to its own dies. -/
def State.takeMap (s : State) (d : Nat) (m : LinkMap) : State :=
  let p := diePkg d
  let x := s.die d
  if m.version.toNat ≤ x.map.version.toNat then s
  else
    let s := s.setDie d (installMap m d x)
    let s := s.flushSendQ d (s.die d).sendQ []
    let s := if dieNo d = 0 then
        ((List.range 8).filter (fun i => i != 0)).foldl (fun s i => s.post (s.mgmt d (p * 8 + i) (.map m))) s
      else s
    let s := s.modPkg p (fun k =>
      { k with mapVersion := m.version, installed := if k.mapVersion == m.version then dieNo d :: k.installed else [dieNo d] })
    let s := if dieNo d = 0 then
        let lead := lowestLead m.pkgs
        let was := (s.pkg p).central
        let s := s.modPkg p (fun k => { k with central := lead })
        if lead = some p ∧ was ≠ some p then s.takeOver p else s
      else s
    if (s.upDies p).all (fun i => (s.pkg p).installed.contains i) then s.event (headDie p) 0 evRouteChange noUnit m.version.toNat else s

/-- MAP_PACKET (R374, R375). -/
def execMapPacket (pk : Packet) (s : State) : Out :=
  match pk.body with
  | .map m =>
    match s.arriveMgmt pk with
    | .notNext s => .next s
    | .answered s => .next s
    | .here s => .next (s.takeMap pk.dst m)
  | _ => .next s

/-! ### EPOCH (R551, R552) -/

/-- R551: an outstanding request completes as GONE. -/
def State.goneReq (s : State) (d : Nat) (o : Outst) : State :=
  match o.kind with
  | .sigPost .. => s.sigAnswer d o stGone 1 0
  | .sigRead _ => s.sigAnswer d o stGone 1 0
  | .sigWait _ => s.sigAnswer d o stGone 1 0
  | .sigSetCmd _ => s.sigAnswer d o stGone 1 0
  | .ringSig .. => s.sigAnswer d o stGone 1 0
  | _ => s.answerReq d o stGone .ack none

/-- R551, R553, R335: a die learns that a target is resetting or out of service. -/
def State.targetLost (s : State) (d t : Nat) (state : Target) : State :=
  let now := s.now d
  let s := s.modDie d (fun x => { x with targets := tset x.targets t state })
  let waiting (e : Outst) : Bool := e.dpkg * 8 + e.ddie == t
  let trips : List Nat := ((s.die d).outst.filterMap (fun e =>
    match e.2.kind with
    | .travel th => if waiting e.2 then some th.toNat else none
    | _ => none))
  let s := trips.foldl (fun s th => s.modThread th (fun u => { u with tReset := some (u.tReset.getD now) })) s
  let isTravel : Outst → Bool := fun o => match o.kind with | .travel _ => true | _ => false
  let sent := (s.die d).outst.filter (fun e => waiting e.2 && !isTravel e.2)
  let queued := (s.die d).sendQ.filter (fun e => waiting e.1 && !isTravel e.1)
  let s := s.modDie d (fun x => { x with sendQ := x.sendQ.filter (fun e => !(waiting e.1 && !isTravel e.1)) })
  let s := sent.foldl (fun s e => s.retire d e.1) s
  let s := (sent.map (·.2) ++ queued.map (·.1)).foldl (fun s o => s.goneReq d o) s
  s.modDie d (fun x => { x with
    signals := tmap x.signals (fun _ g => { g with waiters := g.waiters.filter (fun w => w.rq.src != t) }),
    sigQueue := x.sigQueue.filter (fun p => !(p.src == t && (match sigAsk? p with | some a => a.fn == .wait || a.fn == .take | none => false))) })

/-- What an EPOCH announcement changes at a die. -/
def State.takeEpoch (s : State) (d : Nat) (e : EpochMsg) : State :=
  let p := e.pkg.toNat
  let lost : Target := if e.state = 0 then .resetting else .outOfService
  let dies := if e.isPkg then (List.range 8).map (fun i => p * 8 + i) else [p * 8 + e.die.toNat]
  if e.state.toNat = 1 then
    if e.isPkg then
      s.modDie d (fun x => { x with pkgEpochs := tset x.pkgEpochs p e.new, targets := dies.foldl (fun t n => tset t n .resetting) x.targets })
    else
      s.modDie d (fun x => { x with dieEpochs := tset x.dieEpochs (p * 8 + e.die.toNat) (e.new.truncate 8),
                                    targets := terase x.targets (p * 8 + e.die.toNat) })
  else dies.foldl (fun s t => s.targetLost d t lost) s

/-- What the head Turja of another package does with an announcement: it passes it to its own dies, drops the bindings of a package that
resets (the central station), answers requests relayed there (R503), and ends binds asked of a central station that is lost (R544). -/
def State.headEpoch (s : State) (d : Nat) (e : EpochMsg) : State :=
  let p := diePkg d
  if dieNo d ≠ 0 ∨ e.pkg.toNat = p then s
  else
    let s := ((List.range 8).filter (fun i => i != 0)).foldl (fun s i => s.post (s.mgmt d (p * 8 + i) (.epoch e))) s
    let s := if e.isPkg && e.state.toNat != 1 then
        s.modPkg p (fun k => { k with
          bindings := k.bindings.filter (fun b => b / 4096 != e.pkg.toNat),
          vis := if k.central == some e.pkg.toNat then tmap k.vis (fun _ v => { v with binding := none }) else k.vis,
          mbs := tmap k.mbs (fun _ m => match m.wait with
            | .relay => if (m.req.getD 7 0).toNat = e.pkg.toNat then { m with wait := .answer 6 0xFF [] } else m
            | .bind _ => if k.central = some e.pkg.toNat then { m with wait := .answer 5 0 [] } else m
            | _ => m) })
      else s
    s

/-- EPOCH_PACKET (R551, R552). -/
def execEpochPacket (pk : Packet) (s : State) : Out :=
  match pk.body with
  | .epoch e =>
    match s.arriveMgmt pk with
    | .notNext s => .next s
    | .answered s => .next s
    | .here s => .next ((s.takeEpoch pk.dst e).headEpoch pk.dst e)
  | _ => .next s

end Sys2Proof.Machine
end

