-- ==== Sys2Proof/Machine/Resets.lean ====
section
/-! DEFINITION. Resets of dies and packages (R42, R545 to R549), the beacon (R578), and reconciliation of the hardware gates with the unit
tables (R556 to R558). -/
set_option Elab.async false
namespace Sys2Proof.Machine

/-! ### The beacon (R577 to R579) -/

/-- R578: the station pins enter beacon phase: three pulses, then the code in quarters of 250 ms from 1 ms after the event. -/
def State.enterBeacon (s : State) (p code : Nat) : State :=
  s.modPkg p (fun k => if k.phase == .beacon || k.phase == .off then k else
    { k with phase := .beacon, since := k.tick, beacon := BitVec.ofNat 8 code, pulses := 3, stn3 := true, heartbeat := false,
             quarter := 4, quarterAt := k.tick + tickMs })

/-! ### The work of a die (R546 step 3) -/

/-- A command with work on a die. -/
def State.cmdOnDie (s : State) (c : CmdRef) (k : RCmd) (d : Nat) : Bool :=
  match k.work with
  | .launch count next .. =>
    s.threads.any (fun e => thDie e.1 == d && e.2.st != .free && e.2.launch == some c) ||
    (s.die d).arrivals.any (fun q => q.launch == some c) || (decide (next < count) && k.dies.contains (dieNo d))
  | .dmaWait => k.dieField == dieNo d
  | .dmaChain => k.dieField == dieNo d
  | .mu => k.dieField == dieNo d
  | .consist => k.dieField == dieNo d
  | .route => k.dieField == dieNo d
  | .shunt => (s.pkg c.p).shCmds.any (fun e => e.c == c && e.dies.contains (dieNo d))
  | .sigSet => s.cmdDie c k == d
  | .sigWait .. => s.cmdDie c k == d
  | _ => false

/-- R546 step 3: commands with work on the die complete in error. -/
def State.failDie (s : State) (d : Nat) : State :=
  let p := diePkg d
  let cs := (List.range 32).foldl (fun l v => l ++ s.viCmds p v) []
  cs.foldl (fun s c => match s.rcmd? c with
    | some k =>
      if k.result.isSome then s.writeEntry c
      else if s.cmdOnDie c k d then s.failCmdN c (s.endingOf c (s.threads.filter (fun e => thDie e.1 == d && e.2.st != .free)) (s.die d).arrivals) else s
    | none => s) s

/-- Threads of a die end in error, those of queued tickets with them; the contexts' travel counts are 0 (R81). -/
def State.endDieThreads (s : State) (d : Nat) : State :=
  let mine := s.threads.filter (fun e => thDie e.1 == d && e.2.st != .free)
  let s := mine.foldl (fun s e => (s.modThread e.1 (fun t => { t with wait := .none })).endThread e.1 true) s
  let out := (s.die d).arrivals
  let s := s.modDie d (fun x => { x with arrivals := [] })
  let s := out.foldl (fun s q => s.endTicket q) s
  { s with threads := s.threads.filter (fun e => thDie e.1 != d) }

/-- The ports of a die that resets: dark; fenced lanes stay fenced (R348). -/
def darkPorts (t : Tab Port) : Tab Port := tmap t (fun _ q => { ({} : Port) with fenced := q.fenced, st := if q.st == .fenced || q.st == .refused then q.st else .dark })

/-- R545: what a die reset loses of the die's own state; signals and requests are dropped before (R546). -/
def wipeDie (x : Die) : Die :=
  { x with
    control := [], monitors := [], shortfalls := 0, shortArmed := true, staleRaised := false, belowSince := none, dipCounted := false,
    tripSince := [], coolSince := none, banks := [], debt := [], limit := none, dramStreak := 0,
    signals := [], sigQueue := [], openRow := [], pdown := [], lastAccess := [], outst := [], sendQ := [], quarantine := [], holds := [],
    notSeen := [], accepted := [], arrivals := [], muCmds := [], mus := [], ptCmds := [], ptStreak := 0, ptLa := [],
    dmaQueue := [], engines := [], scopes := [], reported := [], drains := [], returns := [],
    rtables := tmap x.rtables (fun _ r => { r with ex := [] }),
    rx := [], arbs := [], ports := darkPorts x.ports,
    junctions := tmap x.junctions (fun _ j => { ({} : Junction) with fence := if j.fence == .replays then .replays else .none }) }

/-- R345: a port starts to train: its attempts begin anew. -/
def trainPort (x : Port) : Port := { x with st := .training, attempts := 0, retryAt := none }

/-- R533, R546: the dark ports of a die begin training. -/
def State.trainPorts (s : State) (d : Nat) : State :=
  s.modDie d (fun x => { x with ports := tmap x.ports (fun q y => if y.st == .dark && !s.neverTrains (diePkg d) (dieNo d) q then trainPort y else y) })

/-- The revision of an image, or of the ROM firmware (R527, R537). -/
def imageRev (i : Option ImageInfo) : BitVec 16 := match i with | some i => i.major ++ i.minor | none => Config.romRevision

/-! ### Swaps of a live update (R559, R561) -/

/-- The events held while a core swapped are delivered. -/
def State.flushEvents (s : State) (d : Nat) : State :=
  let l := (s.die d).heldEvents
  l.foldl (fun s e => s.postEvent (diePkg d) e.1 e.2) (s.modDie d (fun x => { x with heldEvents := [] }))

/-- The next core of a COMMIT swaps; a die that has left service keeps its image and fails.  After the last, staging is idle, or the checked
image stays where some core failed (log 40). -/
def State.swapFrom (s : State) (p : Nat) : List Nat → State
  | [] => s.modPkg p (fun k => if k.swapFailed.isEmpty then { k with swapQueue := [], fwState := .idle, staged := [], stagedImage := none }
      else { k with swapQueue := [], fwState := .checked })
  | i :: r =>
    if s.dieUp (p * 8 + i) then
      (s.modPkg p (fun k => { k with swapQueue := i :: r })).modDie (p * 8 + i) (fun x => { x with swapping := some (s.pkg p).tick })
    else (s.modPkg p (fun k => { k with swapFailed := k.swapFailed ++ [i] })).swapFrom p r

/-- The swap of a die ends: what it held back goes on, and the next core swaps. -/
def State.swapEnds (s : State) (d : Nat) (failed : Bool) : State :=
  let p := diePkg d
  let s := (s.modDie d (fun x => { x with swapping := none })).flushEvents d
  let s := if failed then s.modPkg p (fun k => { k with swapFailed := k.swapFailed ++ [dieNo d] }) else s
  s.swapFrom p ((s.pkg p).swapQueue.drop 1)

/-- The clusters and yard SRAM of a die are cleared. -/
def State.wipeArrays (s : State) (d : Nat) : State :=
  let s := s.segsLost (fun c => clDie c == d)
  ({ s with clusters := s.clusters.filter (fun e => clDie e.1 != d) }).zeroRange (mkPa 1 d 0) (mkPa 1 d yardSize)

/-- The die that sent what stands in an input of die d. -/
def State.upstream (s : State) (d inp : Nat) : Option Nat :=
  if inp < 4 then (s.farOf d inp).map (·.1) else if inp < 7 then some (diePkg d * 8 + jAcross (dieNo d) (inp - 4)) else none

/-- The queues of a die that leaves service go: what was on its way to other dies meets the Buffer stop of the die that sent it on (log 21); its own
units' packets are lost, but for announcements and maps. -/
def State.loseQueues (s : State) (d : Nat) : State :=
  let l := (s.die d).rx
  let s := s.modDie d (fun x => { x with rx := [] })
  let s := { s with net := s.net.filter (fun p => p.src != d || waitsAtSource ⟨8, true, p⟩) }
  l.foldl (fun s r =>
    match s.upstream d r.inp with
    | some u => if s.dieUp u && !(isRequest r.pk && r.pk.dst == d) then s.stopPacket u r.pk else s
    | none => s) s

/-- R362: the credits of a die's junctions, and of their far ends, as their receivers stand. -/
def State.syncJunction (s : State) (x j : Nat) : State :=
  let e := diePkg x * 8 + jAcross (dieNo x) j
  let q := 4 + jTwin j
  s.modJunction x j (fun y => { y with
    credits := (List.range 7).map (fun vc => vcCap vc - rxUsed (s.die e) q {} vc), esc := rxEsc (s.die e) q {}, beats := [] })

def State.syncJunctions (s : State) (d : Nat) : State :=
  (List.range 3).foldl (fun s j => (s.syncJunction d j).syncJunction (diePkg d * 8 + jAcross (dieNo d) j) (jTwin j)) s

/-- R368: the junction neighbours fence their junctions to a die that leaves service. -/
def State.fenceNeighbours (s : State) (d : Nat) : State :=
  let s := (List.range 3).foldl (fun s j =>
    let e := diePkg d * 8 + jAcross (dieNo d) j
    if s.dieUp e && (s.junction e (jTwin j)).fence == .none then
      let s := s.modJunction e (jTwin j) (fun x => { x with fence := .neighbour })
      (s.modDie e (fun x => { x with otherFaults := x.otherFaults ++ [(fltJunction, [d, e])] })).event e 0 fltJunction (0x34 + jTwin j) 0
    else s) s
  s.reportLinks (diePkg d)

/-- R546 step 8: junctions fenced only because this die had left return. -/
def State.unfenceNeighbours (s : State) (d : Nat) : State :=
  (List.range 3).foldl (fun s j =>
    let e := diePkg d * 8 + jAcross (dieNo d) j
    let s := s.modJunction e (jTwin j) (fun x => if x.fence == .neighbour && s.dieUp e then { x with fence := .none } else x)
    if s.dieUp e then s.modJunction d j (fun x => if x.fence == .neighbour then { x with fence := .none } else x)
    else s.modJunction d j (fun x => if x.fence == .none then { x with fence := .neighbour } else x)) s

/-- The pool signals and DMA tokens of a die go back to their shares (R545, R415). -/
def State.returnUnits (s : State) (d : Nat) : State :=
  (List.range 32).foldl (fun s v =>
    let s := (List.range (s.share 4 d v).held).foldl (fun s _ => s.releaseUnit 4 d v) s
    (List.range (s.share 5 d v).held).foldl (fun s _ => s.releaseUnit 5 d v) s) s

/-! ### Package reset (R548, R549) -/

/-- The dirty bytes of a cluster written home at once (R548 PRESERVE). -/
def State.flushCluster (s : State) (c : Nat) : State :=
  let x := s.cluster c
  let put (s : State) (line : Nat) (mask : BitVec 128) (data : List Byte) : State :=
    s.writeMasked (line * 128) ((List.range 128).map (fun i => (mask.getLsbD i, data.getD i 0)))
  let s := x.lines.foldl (fun s e => if e.2.dirty = 0 then s else put s e.2.line e.2.written e.2.data) s
  let s := x.siding.foldl (fun s l => if l.dirty = 0 then s else put s l.line l.written l.data) s
  x.trackers.foldl (fun s t => t.bufs.foldl (fun s b => put s b.line b.mask b.data) s) s

/-- What a package keeps across its reset (R545, R549, log 28). -/
def resetPkgRecord (k : Pkg) (preserve : Bool) : Pkg :=
  { ({} : Pkg) with
    phase := .resetting, since := k.tick, resetAt := k.tick, preserve := preserve, tick := k.tick, epoch := k.epoch + 1,
    samples := k.samples, strapFault := k.strapFault, tested := k.tested, clean := k.clean, lead := k.lead, boot := k.boot,
    rack := k.rack, tray := k.tray, slot := k.slot, image := k.nextImage.or k.image, held := k.held,
    central := k.central, mapVersion := k.mapVersion, installed := k.installed, joined := k.joined, lastAlign := k.lastAlign,
    drift := k.drift, driftCount := k.driftCount, perst0 := k.perst0, perst1 := k.perst1, link0 := k.link0, link4 := k.link4,
    checkin := k.checkin }

/-- The VIs after package reset (R401, R548). -/
def freshVis (x8x8 : Bool) : Tab Vi :=
  (0, { ({} : Vi) with st := .free }) :: (if x8x8 then [(16, { ({} : Vi) with st := .free })] else [])

/-- R546, R548: the reset of a package. -/
def State.resetPkg (s : State) (p : Nat) (preserve lose0 : Bool) : State :=
  if (s.pkg p).phase != .run then s
  else
    let k := s.pkg p
    let s := if preserve then
        ((s.clustersOf p).filter (fun c => !(lose0 && clDie c == p * 8))).foldl (fun s c => s.flushCluster c) s
      else s
    let s := s.sendEpoch p (epochPkg p 0 k.epoch.toNat (k.epoch + 1).toNat k.tick)
    -- every VI is lost: no completion follows
    let own : Option CmdRef → Option CmdRef := fun l => match l with | some c => if c.p == p then none else some c | none => none
    let s := s.setPkg p (resetPkgRecord k preserve)
    let s := s.modPkg p (fun k' => { k' with vis := freshVis (s.x8x8 p), central := if k.central == some p then none else k.central })
    let s := { s with threads := tmap s.threads (fun _ t => { t with launch := own t.launch }),
                      dies := tmap s.dies (fun _ x => { x with arrivals := x.arrivals.map (fun q => { q with launch := own q.launch }) }) }
    (List.range 8).foldl (fun s i =>
      let d := p * 8 + i
      let s := s.modDie d (fun x => { x with outst := [], sendQ := [], signals := [], sigQueue := [] })
      let s := (s.loseQueues d).endDieThreads d
      let s := s.wipeArrays d
      let s := if preserve then s else (s.zeroRange (mkPa 0 d 0) (mkPa 0 d dramSize)).modDie d (fun x => { x with owner := [] })
      s.modDie d (fun x =>
        let y := wipeDie x
        let latched := x.subst.st == .latchedOff
        { ({} : Die) with
          st := if latched then .outOfService else .resetting, cause := if latched then 1 else 2, epoch := x.epoch + 1, resetAt := k.tick,
          gate := x.gate, table := x.table, owner := y.owner, subst := x.subst, rev := imageRev (k.nextImage.or k.image),
          rhCode := (match k.nextImage.or k.image with | some i => i.rhCode | none => 0), otherFaults := x.otherFaults,
          targets := x.targets, dieEpochs := x.dieEpochs, pkgEpochs := x.pkgEpochs, routes := x.routes, map := x.map,
          ports := y.ports, stackTemp := x.stackTemp, refreshes := x.refreshes })) s

/-- PACKAGE_RESET_COMPLETE (R549). -/
def execPackageResetComplete (pkg : BitVec 8) (s : State) : Out :=
  let p := pkg.toNat
  let k := s.pkg p
  if k.phase != .resetting || (s.die (headDie p)).subst.st != .on then .next s
  else
    let s := (List.range 8).foldl (fun s i => s.modDie (p * 8 + i) (fun x =>
      if x.subst.st == .on then { x with st := .inService, cause := 0, upSince := k.tick }
      else { x with st := .outOfService, cause := if x.subst.st == .latchedOff then 1 else 3 })) s
    let s := s.setPkg p { k with phase := .run, since := k.tick, pulses := 2, stn3 := false, heartbeat := false, checkin := k.tick, beatAt := k.tick + tickMs + 4 * 10000 }
    let s := (List.range 8).foldl (fun s i => if (s.die (p * 8 + i)).st == .inService then s.trainPorts (p * 8 + i) else s) s
    let s := (List.range 8).foldl (fun s i => if (s.die (p * 8 + i)).st == .inService then s else s.fenceNeighbours (p * 8 + i)) s
    let s := s.sendEpoch p (epochPkg p 1 (k.epoch - 1).toNat k.epoch.toNat k.tick)
    let s := (List.range 8).foldl (fun s i =>
      let x := s.die (p * 8 + i)
      s.sendEpoch p (epochDie p i (if x.st == .inService then 1 else 2) (x.epoch - 1).toNat x.epoch.toNat k.tick)) s
    .next (s.reportLinks p)

/-- PACKAGE_RESET_TIMEOUT (R549): 200 ms. -/
def execPackageResetTimeout (pkg : BitVec 8) (s : State) : Out :=
  let p := pkg.toNat
  let k := s.pkg p
  if k.phase == .resetting && after k.tick k.resetAt (200 * tickMs) then .next (s.enterBeacon p 0x31) else .next s

/-! ### Die reset (R546, R547) -/

/-- R428, R425: a Substation that restarts. -/
def restartSubst (x : Die) (restart : Bool) (now : Nat) : Die := if restart then { x with subst := { ({} : Subst) with since := now }, safeRate := none } else x

/-- R546 steps 1 to 3: the reset of a die; of die 0 a package reset with PRESERVE (R547). -/
def State.resetDie (s : State) (d : Nat) (restart : Bool) : State :=
  let p := diePkg d
  if !s.dieUp d then s
  else if dieNo d = 0 then
    let now := s.now d
    (s.resetPkg p true true).modDie d (fun x => restartSubst x restart now)
  else
    let x := s.die d
    let now := s.now d
    let s := s.sendEpoch p (epochDie p (dieNo d) 0 x.epoch.toNat (x.epoch + 1).toNat now)
    let s := s.modDie d (fun x => { x with outst := [], sendQ := [], signals := [], sigQueue := [] })
    let s := s.failDie d
    let s := s.endDieThreads d
    let s := s.returnUnits d
    let s := s.wipeArrays d
    let s := s.loseQueues d
    let s := s.modDie d (fun y =>
      restartSubst { wipeDie y with st := .resetting, cause := 2, epoch := x.epoch + 1, resetAt := now, rev := imageRev (s.pkg p).image } restart now)
    -- R374: its dark ports and fenced junctions are reported as they now are
    let s := (s.syncJunctions d).fenceNeighbours d
    if x.swapping.isSome then s.swapEnds d true else s

/-- DIE_RESET (R546). -/
def execDieReset (die : BitVec 11) (s : State) : Out := .next (s.resetDie die.toNat false)

/-- CORE_UNDERVOLTAGE (R42): below 0.50 V for more than 1 µs. -/
def execCoreUndervoltage (die : BitVec 11) (mv us : Nat) (s : State) : Out :=
  let d := die.toNat
  if s.dieUp d && decide (mv < 500) && decide (1 < us) then
    let s := s.modDie d (fun x => { x with otherFaults := x.otherFaults ++ [(fltCoreUv, [d, mv, us])] })
    .next ((s.event d 0 fltCoreUv 0x3A 0).resetDie d true)
  else .next s

/-- DIE_RESET_TIMEOUT (R547): 50 ms. -/
def execDieResetTimeout (die : BitVec 11) (s : State) : Out :=
  let d := die.toNat
  let p := diePkg d
  let x := s.die d
  if s.pkgUp p && x.st == .resetting && after (s.now d) x.resetAt (50 * tickMs) then
    let s := s.setDie d { x with st := .outOfService, cause := 3 }
    .next ((s.sendEpoch p (epochDie p (dieNo d) 2 (x.epoch - 1).toNat x.epoch.toNat (s.now d))).reportLinks p)
  else .next s

/-! ### Reconciliation (R556 to R558) -/

/-- R556: the units that are reconciled. -/
def reconciled : List Nat := List.range 0x24 ++ (List.range 8).map (· + 0x28) ++ [0x38, 0x39, 0x3A]

/-- Work in progress on a unit. -/
def State.unitBusy (s : State) (d u : Nat) : Bool :=
  let x := s.die d
  if u < 0x20 then
    let c := s.cluster (d * 32 + u)
    s.threads.any (fun e => thCluster e.1 == d * 32 + u && e.2.st != .free) || !c.miss.isEmpty || c.work.isSome || !c.hubs.isEmpty
  else if u < 0x24 then !(s.mu d (u - 0x20)).item.isEmpty || !(s.mu d (u - 0x20)).cs.isEmpty || !(s.mu d (u - 0x20)).csWait.isEmpty
  else if u < 0x30 then !(s.eng d (u - 0x28)).chains.isEmpty
  else if u = 0x38 then !x.ptCmds.isEmpty
  else if u = 0x39 then !x.sigQueue.isEmpty || x.signals.any (fun g => !g.2.waiters.isEmpty)
  else false

/-- R408: the scrub that an engine leaves undone goes to another engine of its die. -/
def State.moveScrubs (s : State) (d e : Nat) : State :=
  match (List.range 8).find? (fun i => i != e && s.unitRuns d (dmaUnit i)) with
  | none => s
  | some i =>
    let mine := (s.eng d e).chains.filter (·.scrub)
    let s := s.modEng d e (fun x => { x with chains := x.chains.filter (!·.scrub), cur := none })
    mine.foldl (fun s k => s.modEng d i (fun x => { x with nextSeq := x.nextSeq + 1, chains := x.chains ++ [{ k with engine := i, seq := x.nextSeq + 1 }] })) s

/-- R557: work still in progress completes in error. -/
def State.failUnit (s : State) (d u : Nat) : State :=
  let x := s.die d
  if u < 0x20 then
    let c := s.cluster (d * 32 + u)
    let s := (c.work.toList.map (·.c) ++ c.hubs.map (·.c)).foldl (fun s k => s.failCmd k) s
    (s.threads.filter (fun e => thCluster e.1 == d * 32 + u && e.2.st != .free)).foldl (fun s e => s.endThread e.1 true) s
  else if u < 0x24 then
    let m := s.mu d (u - 0x20)
    (m.item.map (·.2.c) ++ m.cs.map (·.2.c) ++ m.csWait.map (·.c)).foldl (fun s c => s.failCmd c) s
  else if u < 0x30 then
    let s := ((s.eng d (u - 0x28)).chains.filter (!·.scrub)).foldl (fun s k => s.failCmd k.c) s
    s.moveScrubs d (u - 0x28)
  else if u = 0x38 then x.ptCmds.foldl (fun s k => s.failCmd k.c) s
  else if u = 0x39 then
    let ws := (x.signals.map (fun g => g.2.waiters)).flatten
    let s := s.modDie d (fun x => { x with sigQueue := [], signals := tmap x.signals (fun _ g => { g with waiters := [] }) })
    let s := ws.foldl (fun s w => s.respond w.rq false stError (.sigrsp 1 0) none) s
    x.sigQueue.foldl (fun s p => s.respond p false stError (.sigrsp 1 0) none) s
  else s

def gateMask (u : Nat) : BitVec 64 := BitVec.ofNat 64 (2 ^ u)

/-- The gate of a drained unit closes. -/
def State.closeGate (s : State) (d u : Nat) : State :=
  s.modDie d (fun x => { x with gate := x.gate &&& ~~~(gateMask u), drains := terase x.drains u })

/-- R558: a unit returns; a cluster that was fenced has its cache cleared (its lines went when it was fenced). -/
def State.returnUnit (s : State) (d u : Nat) : State :=
  let s := s.modDie d (fun x => { x with gate := x.gate ||| gateMask u, table := x.table ||| gateMask u, drains := terase x.drains u })
  if u < 0x20 then s.modCluster (d * 32 + u) (fun c => if c.lines.isEmpty && c.siding.isEmpty then { c with trackers := [], dirtyCount := [] } else c) else s

/-- R556: one unit in a pass. -/
def State.reconcile (s : State) (d u : Nat) : State :=
  let x := s.die d
  match x.gate.getLsbD u, x.table.getLsbD u with
  | true, false =>
    if thas x.drains u then (if s.unitBusy d u then s else s.closeGate d u)
    else
      let s := s.setDie d { x with drains := tset x.drains u (s.now d) }
      let s := s.event d 0 evReconcile u 0
      if s.unitBusy d u then s else s.closeGate d u
  | false, true => (s.setDie d { x with table := x.table &&& ~~~(gateMask u) }).event d 0 evReconcile u 0
  | _, _ => s

/-- A pass over a die's units; `failed` names the units whose built-in test fails (R558). -/
def State.reconcileDie (s : State) (d : Nat) (failed : List Nat) : State :=
  let back := (s.die d).returns
  let s := s.modDie d (fun x => { x with returns := [], lastPass := s.now d })
  let s := back.foldl (fun s u => if failed.contains u then s else s.returnUnit d u) s
  reconciled.foldl (fun s u => s.reconcile d u) s

/-- RECONCILE_PASS (R556, R558): every 5 ms (R6); none while the core swaps (R559).  The head Turja's pass is a check-in of R577 (log 43). -/
def execReconcilePass (die : BitVec 11) (selfTest : List Nat) (s : State) : Out :=
  let d := die.toNat
  if s.dieUp d && (s.die d).swapping.isNone && after (s.now d) (s.die d).lastPass (5 * tickMs) then
    let s := if dieNo d = 0 then s.modPkg (diePkg d) (fun k => { k with checkin := k.tick }) else s
    .next (s.reconcileDie d selfTest)
  else .next s

/-- DRAIN_TIMEOUT (R557): a drained unit's gate closes; after 2 ms its remaining work fails. -/
def execDrainTimeout (die : BitVec 11) (unit : BitVec 9) (s : State) : Out :=
  let d := die.toNat
  let u := unit.toNat
  match tget? (s.die d).drains u with
  | none => .next s
  | some since =>
    if !s.dieUp d then .next s
    else if !s.unitBusy d u then .next (s.closeGate d u)
    else if after (s.now d) since (2 * tickMs) then .next ((s.failUnit d u).closeGate d u)
    else .next s

/-- DIE_RESET_COMPLETE (R546 steps 4 to 10). -/
def execDieResetComplete (die : BitVec 11) (s : State) : Out :=
  let d := die.toNat
  let p := diePkg d
  let x := s.die d
  if !s.pkgUp p || x.st != .resetting || x.subst.st != .on then .next s
  else
    let now := s.now d
    let s := (s.setDie d { x with st := .inService, cause := 0, upSince := now }).copyTables p d
    let s := s.trainPorts d
    let s := s.unfenceNeighbours d
    let s := s.reportLinks p
    let s := s.reconcileDie d []
    .next (s.sendEpoch p (epochDie p (dieNo d) 1 (x.epoch - 1).toNat x.epoch.toNat now))

end Sys2Proof.Machine
end

