-- ==== Sys2Proof/Machine/Links.lean ====
section
/-! DEFINITION. Neward ports and junctions: training (R345 to R351), the flits that arrive (R354 to R356), credits and width steps (R362 to R366),
and junction replays (R367, R368). -/
set_option Elab.async false
namespace Sys2Proof.Machine

/-! ### Training (R345 to R351) -/

def portUnit (q : Nat) : Nat := 0x30 + q

/-- R351, R515: the VALUE of EV_LINK_WIDTH: width, dropped lanes, fenced lanes. -/
def widthValue (width dropped fenced : Nat) : Nat := width + dropped * 16 + fenced * 256

/-- R356: a port that is up retrains: the replay buffer is kept and credits are frozen. -/
def State.retrain (s : State) (d q : Nat) : State :=
  let x := s.port d q
  if x.st != .up then s
  else
    let n := x.retrains + 1
    (s.modPort d q (fun x => { trainPort x with retrains := n, frozen := true, farSync := false, nakCount := 0, replayTicks := [] })).event d 0
      evLinkRetrain (portUnit q) n.toNat

/-- The bits of a lane mask for which a test holds. -/
def laneMask (f : Nat → Bool) : BitVec 4 := BitVec.ofNat 4 ((List.range 4).foldl (fun m i => if f i then m + 2 ^ i else m) 0)

/-- R350: a failed attempt: three at 10 ms, then one every 10 s. -/
def State.trainFails (s : State) (d q : Nat) : State :=
  let n := (s.port d q).attempts + 1
  let now := s.now d
  let s := s.darken d q (fun x => { x with st := .dark, attempts := n, retryAt := some (now + (if n < 3 then 10 * tickMs else 10000 * tickMs)) })
  if n = 3 then s.event d 0 evLinkDown (portUnit q) n else s

/-- R349: the link is accepted. -/
def State.positionOk (s : State) (d q : Nat) (r : PosRec) : Bool :=
  let p := diePkg d
  (match (s.pkg p).image with | some i => i.machine == r.machine | none => false) &&
  r.pkg.toNat == partner p (dieNo d) q && r.die.toNat == dieNo d && r.port.toNat == q

/-- R347: the physical lane of each logical lane: the end with the lower package number takes its usable lanes in order; the other end takes them in
the order of the far lanes that it finds on them. -/
def laneOrder (lower : Bool) (usable : BitVec 4) (far : List Nat) : List Nat :=
  let own := (List.range 4).filter (fun i => usable.getLsbD i)
  if lower then own else own.foldr (insertBy (fun a b => decide (far.getD a a ≤ far.getD b b))) []

/-- The kinds of CTRL flits. -/
def isSyncCtrl (k : CtrlFlit) : Bool := match k with | .creditSync _ => true | _ => false
def isAuditCtrl (k : CtrlFlit) : Bool := match k with | .creditAudit _ => true | _ => false
def isWidthCtrl (k : CtrlFlit) : Bool := match k with | .width .. => true | _ => false

/-- R356: LOCK of a port: sequence numbers go on where they stood, and the flits kept are sent again, if the far end is the one it had; they start
anew otherwise. -/
def lockPort (p : Nat) (obs : TrainObs) (usable openL : BitVec 4) (w : Nat) (x : Port) : Port :=
  let kept := x.far == some obs.far
  let x := { x with st := .up, width := w, trained := w, usable := usable, isOpen := openL,
                    order := laneOrder (decide (p < obs.far.pkg.toNat)) usable obs.order, inverted := obs.inverted,
                    far := some obs.far, attempts := 0, retryAt := none, want := 4, farWant := 4, widthStep := none, ownStep := none,
                    ctrlQ := x.ctrlQ.filter (fun k => !isWidthCtrl k) }
  startSync (if kept then { x with resend := x.replay, discarding := false, nakDue := false } else { x with
    txSeq := 0, rxSeq := 0, discarding := false, nakDue := false, replay := [], resend := [], ctrlQ := [], txRest := [], rxPart := [], owed := [], escOwed := [],
    credits := (List.range 7).map vcCap, esc := [] })

/-- TRAINING_ATTEMPT (R345 to R351). -/
def execTrainingAttempt (port : BitVec 13) (obs : TrainObs) (s : State) : Out :=
  let d := port.toNat / 4
  let q := port.toNat % 4
  let x := s.port d q
  if !s.dieUp d || x.st != .training || s.neverTrains (diePkg d) (dieNo d) q then .next s
  else
    let lane (i : Nat) : LaneObs := obs.lanes.getD i .isOpen
    -- R348: only lanes that are not fenced are driven
    let fenced := laneMask (fun i => x.fenced.getLsbD i || lane i == .short)
    let seen (i : Nat) : Bool := !fenced.getLsbD i && lane i == .farEnd
    let openL := laneMask (fun i => !fenced.getLsbD i && lane i == .isOpen)
    let usable := laneMask (fun i => seen i && obs.passed.getLsbD i)
    let w := ((List.range 4).filter (fun i => usable.getLsbD i)).length
    let s := s.modPort d q (fun x => { x with fenced := fenced })
    if fenced = 15 then
      let n := x.attempts + 1
      let s := s.darken d q (fun x => { x with st := .fenced, attempts := n, retryAt := none, usable := 0, isOpen := 0 })
      .next ((s.event d 0 evLinkDown (portUnit q) n).event d 0 evLinkWidth (portUnit q) (widthValue 0 0 15))
    else if openL = 15 then
      let n := x.attempts + 1
      let s := s.darken d q (fun x => { x with st := .dark, attempts := n, retryAt := none, usable := 0, isOpen := openL })
      .next (s.event d 0 evLinkDown (portUnit q) n)
    else if w = 0 then .next ((s.modPort d q (fun x => { x with usable := 0, isOpen := openL })).trainFails d q)
    else if !s.positionOk d q obs.far then
      let s := s.darken d q (fun x => { x with st := .refused, retryAt := none, usable := 0, isOpen := openL })
      let s := s.event d 0 evMiswire (portUnit q) (obs.far.pkg.toNat + obs.far.die.toNat * 2 ^ 8 + obs.far.port.toNat * 2 ^ 12)
      .next (s.miswired (diePkg d) obs.far.pkg.toNat)
    else if !obs.lockOk then .next ((s.modPort d q (fun x => { x with usable := 0, isOpen := openL })).trainFails d q)
    else
      let new := x.far.isNone
      let s := s.modPort d q (lockPort (diePkg d) obs usable openL w)
      let s := s.event d 0 evLinkUp (portUnit q) w
      let s := if w < 4 then s.event d 0 evLinkWidth (portUnit q) (widthValue w (15 - (usable ||| fenced).toNat) fenced.toNat) else s
      .next (if new then s.reportLinks (diePkg d) else s)

/-- TRAINING_RETRY_TIMER (R350): the retry that is due starts. -/
def execTrainingRetryTimer (port : BitVec 13) (s : State) : Out :=
  let d := port.toNat / 4
  let q := port.toNat % 4
  let x := s.port d q
  match x.retryAt with
  | some t => if s.dieUp d && x.st == .dark && decide (t ≤ s.now d) && !s.neverTrains (diePkg d) (dieNo d) q
      then .next (s.modPort d q (fun x => { x with st := .training, retryAt := none })) else .next s
  | none => .next s

/-- CANCELLER_LOCK_LOST (R356). -/
def execCancellerLockLost (port : BitVec 13) (s : State) : Out :=
  let d := port.toNat / 4
  if s.dieUp d then .next (s.retrain d (port.toNat % 4)) else .next s

/-- LINK_RETRAIN_TRIGGER (R356): one SEQ NAKed 8 times in a row, or more than 64 replays within 1 ms. -/
def execLinkRetrainTrigger (port : BitVec 13) (s : State) : Out :=
  let d := port.toNat / 4
  let q := port.toNat % 4
  let x := s.port d q
  if s.dieUp d && (decide (8 ≤ x.nakCount) || decide (64 < (recentTicks (s.now d) x.replayTicks).length)) then .next (s.retrain d q) else .next s

/-! ### Acknowledgements and replay (R355) -/

/-- NAK_RECEIVED (R355). -/
def execNakReceived (port : BitVec 13) (ackseq : BitVec 12) (s : State) : Out :=
  let d := port.toNat / 4
  let q := port.toNat % 4
  if s.dieUp d && (s.port d q).st == .up then .next (s.modPort d q (takeNak (s.minW d) (s.now d) ackseq)) else .next s

/-! ### Flits (R352 to R355) -/

/-- FLIT_RECEIVED (R346, R347, R353 to R355): the symbols on the four physical lanes of the flit that the far end sends next.  One that cannot be read
is NAKed, and later flits are discarded until the one that follows the last good one arrives.  What a CTRL flit carries acts by the rows CREDIT_SYNC,
WIDTH_STEP and CREDIT_AUDIT. -/
def execFlitReceived (port : BitVec 13) (lanes : List (List (BitVec 10))) (s : State) : Out :=
  let d := port.toNat / 4
  let q := port.toNat % 4
  if !s.dieUp d || (s.port d q).st != .up then .next s
  else
    let sent := s.farSends d q
    let s := match sent with | some (_, t) => t | none => s
    match decodeFlit (codeword (s.port d q) lanes) with
    | none => .next (s.modPort d q (fun x => { x with nakDue := true, discarding := true }))
    | some b =>
      match readFlit (sent.map (·.1)) b with
      | some f => .next (s.acceptFlit d q f)
      | none => .next s

/-- The CTRL flit of a kind reaches a port, with the flits that its far end sends before it. -/
def State.receiveCtrl (s : State) (d q : Nat) (kind : CtrlFlit → Bool) : State :=
  let holds (f : Flit) : Bool := match f.body with | .ctrl k => kind k | _ => false
  match s.farOf d q with
  | some (e, q2) => State.sendUntil d q e q2 (fun s =>
      !((s.port e q2).ctrlQ.any kind || (unaccepted (s.port e q2) (s.port d q)).any holds)) 600 s
  | none => s

/-! ### Credits (R363, R365, R413, R418, R421) -/

def sameEsc (vc : Nat) (a b : List (Nat × Nat)) : Bool :=
  let f := fun (l : List (Nat × Nat)) => l.filter (fun e => e.1 == vc)
  (f a).all (fun e => (f b).contains e) && (f b).all (fun e => (f a).contains e)

/-- R365: the shared slots and escape spaces of the packets whose flits a port sends again after an ACKSEQ, or has begun. -/
def laterSlots (rep : CreditReport) (x : Port) : List Slot :=
  (if x.replay.any (fun f => f.seq == rep.ackseq) then (x.replay.dropWhile (fun f => f.seq != rep.ackseq)).drop 1 else x.replay).flatMap Flit.slots ++ x.txRest

def sharedLater (rep : CreditReport) (x : Port) (vc : Nat) : Nat :=
  (laterSlots rep x).foldl (fun n w => match w with | .of p true _ => if p.vc.toNat = vc then n + 1 else n | _ => n) 0

def escLater (rep : CreditReport) (x : Port) : List (Nat × Nat) :=
  ((laterSlots rep x).filterMap (fun w => match w with | .of p false _ => some (p.vc.toNat, p.hops.toNat) | _ => none)).eraseDups

/-- R365: the credits of a channel that a report gives. -/
def reported (rep : CreditReport) (x : Port) (vc : Nat) : Nat := min (vcCap vc) (rep.free.getD vc 0) - sharedLater rep x vc

def reportedEsc (rep : CreditReport) (x : Port) (vc : Nat) : List (Nat × Nat) :=
  ((rep.esc ++ escLater rep x).filter (fun e => e.1 == vc)).eraseDups

/-- R418, R421: the audit of one channel against the receiver's report; a second mismatch within 1 s retrains the port. -/
def State.auditVc (s : State) (d q : Nat) (rep : CreditReport) (vc : Nat) : State :=
  let x := s.port d q
  let want := reported rep x vc
  let have_ := x.credits.getD vc 0
  if want = have_ && sameEsc vc (reportedEsc rep x vc) x.esc then s
  else
    let now := s.now d
    let again := again (tget? x.mismatch vc) now
    let s := s.modPort d q (fun x => { x with mismatch := tset x.mismatch vc now })
    let s := s.ledgerFault d 1 0 0 (q * 32 + vc) 0 again want have_
    if again then s.retrain d q else s

/-- The sender adopts the receiver's report for some channels (R365, R421). -/
def adopt (rep : CreditReport) (vcs : List Nat) (x : Port) : Port :=
  { x with credits := (List.range 7).map (fun vc => if vcs.contains vc then reported rep x vc else x.credits.getD vc 0),
           esc := vcs.flatMap (reportedEsc rep x) ++ x.esc.filter (fun e => !vcs.contains e.1) }

/-- CREDIT_SYNC (R365, R418): the far end's report after LOCK or a width step: audited and adopted; flits after its ACKSEQ are sent again. -/
def execCreditSync (port : BitVec 13) (rep : CreditReport) (s : State) : Out :=
  let d := port.toNat / 4
  let q := port.toNat % 4
  if !s.dieUp d || (s.port d q).st != .up || !(s.port d q).frozen || (s.port d q).farSync then .next s
  else
    let s := s.receiveCtrl d q isSyncCtrl
    let minW := s.minW d
    let s := s.modPort d q (fun x => let x := takeAck minW rep.ackseq x; { x with resend := x.replay, farSync := true })
    let s := (List.range 7).foldl (fun s vc => s.auditVc d q rep vc) s
    .next (s.modPort d q (fun x => settle (adopt rep (List.range 7) x)))

/-- R418: the channels of a port on which no packet went either way for 10 µs, with every flit acknowledged. -/
def quietVcs (now : Nat) (x : Port) : List Nat :=
  if x.frozen || !x.replay.isEmpty || !x.txRest.isEmpty || !x.rxPart.isEmpty then []
  else (List.range 7).filter (fun vc => after now (tget x.quiet vc 0) (10 * tickUs))

/-- CREDIT_AUDIT (R418): the far end's report of the channels that have been quiet for 10 µs, by a CTRL flit that it sends. -/
def execCreditAudit (port : BitVec 13) (rep : CreditReport) (s : State) : Out :=
  let d := port.toNat / 4
  let q := port.toNat % 4
  let vcs := quietVcs (s.now d) (s.port d q)
  if !s.dieUp d || (s.port d q).st != .up || vcs.isEmpty then .next s
  else
    let s : State := match s.farOf d q with
      | some (e, q2) => s.modPort e q2 (fun x => if x.st == PortState.up then { x with ctrlQ := x.ctrlQ ++ [CtrlFlit.creditAudit { free := [], esc := [], ackseq := 0 }] } else x)
      | none => s
    let s := s.receiveCtrl d q isAuditCtrl
    let s := vcs.foldl (fun s vc => s.auditVc d q rep vc) s
    .next (s.modPort d q (adopt rep vcs))

/-- WIDTH_STEP (R366, R439): the far end requests a width, to apply at a SEQ: at once if that flit has been accepted. -/
def execWidthStep (port : BitVec 13) (w : Nat) (seq : BitVec 12) (s : State) : Out :=
  let d := port.toNat / 4
  let q := port.toNat % 4
  if !s.dieUp d || (s.port d q).st != .up || w = 0 || decide (4 < w) then .next s
  else
    let s := s.receiveCtrl d q isWidthCtrl
    let x := s.port d q
    let minW := s.minW d
    if stepWidth minW x.want w x = x.width then .next (s.modPort d q (fun x => { x with farWant := w }))
    else
      let at_ := if (x.rxSeq - seq).msb then seq else x.rxSeq
      .next (s.modPort d q (fun x => applyWidth minW { x with widthStep := some (w, at_), frozen := true, farSync := false }))

/-! ### Junctions (R367, R368) -/

/-- JUNCTION_BEAT_NAK (R367, R368): a beat that the receiver cannot read is NAKed and sent again, with those after it, from the last 8 that are
kept; the sixteenth replay within 1 ms fences the junction. -/
def execJunctionBeatNak (die : BitVec 11) (beat : JBeat) (s : State) : Out :=
  let d := die.toNat
  let j := beat.j.toNat
  if j = 3 then .fault .noSuchUnit
  else
    let x := s.junction d j
    if !s.dieUp d || x.fence != .none || beatGood beat then .next s
    else
      let now := s.now d
      let ticks := recentTicks now x.replayTicks ++ [now]
      let s := s.modJunction d j (fun x => { x with replays := x.replays + 1, replayTicks := ticks })
      if ticks.length < 16 then .next s
      else
        let e := diePkg d * 8 + jAcross (dieNo d) j
        let s := s.modJunction d j (fun x => { x with fence := .replays, replayTicks := [] })
        let s := (s.modDie d (fun x => { x with otherFaults := x.otherFaults ++ [(fltJunction, [d, e])] })).event d 0 fltJunction (0x34 + j) 0
        .next (s.reportLinks (diePkg d))

end Sys2Proof.Machine
end

