-- ==== Sys2Proof/Machine/Books.lean ====
section
/-! DEFINITION. The audits of the books (R413, R418 to R421): the hardware ledgers 2, 3 and 6, and the share ledgers 4 and 5. -/
set_option Elab.async false
namespace Sys2Proof.Machine

/-- R413: a VI of the package is in a reset step that leaves a ledger out of balance. -/
def State.inReset (s : State) (p : Nat) : Bool := (s.pkg p).vis.any (fun e => e.2.st == .resetting && decide (e.2.rStep ≤ 7))

/-! ### Ledgers 2, 3 and 6 -/

/-- The cluster (die * 32 + cluster), ledger code and SUB of an audited unit (R420). -/
def unitPlace (d : Nat) : LedgerUnit → Nat × Nat × Nat
  | .lane cl l => (d * 32 + cl.toNat, 2, l.toNat)
  | .miss cl => (d * 32 + cl.toNat, 3, 0)
  | .ctx cl tp => (d * 32 + cl.toNat, 6, tp.toNat)
  | .junction j vc => (d * 32, 1, j.toNat * 8 + vc.toNat)

/-- R418: the free count that the valid bits or state bits give. -/
def State.freeTruth (s : State) (c ledger sub : Nat) : Nat :=
  let x := s.cluster c
  if ledger = 2 then 16 - (tget x.pq sub []).length
  else if ledger = 3 then 96 - x.miss.length
  else 32 - (s.threads.filter (fun e => thCluster e.1 == c && e.1 / 32 % 4 == sub && e.2.st != .free)).length

def freeCount (x : Cluster) (ledger sub : Nat) : Nat :=
  if ledger = 2 then tget x.pqFree sub 16 else if ledger = 3 then x.missFree else freeTp x sub

/-- R421: the free counter is reloaded. -/
def reload (ledger sub n : Nat) (x : Cluster) : Cluster :=
  if ledger = 2 then { x with pqFree := tset x.pqFree sub n } else if ledger = 3 then { x with missFree := n }
  else { x with ctxFree := tset x.ctxFree sub n }

/-- R421, R151: a cluster is fenced: its dirty bytes are written out, its gate closes, and the work of the VIs with threads there fails. -/
def State.fenceCluster (s : State) (c : Nat) : State :=
  let d := clDie c
  let s := (s.cluster c).lines.foldl (fun s e => s.wbWay c e.1 2) s
  let s := (List.range 32).foldl (fun s i => s.wbSiding c i 2) s
  let s := (s.cluster c).trackers.foldl (fun s t => s.flushBufs c t t.cls) s
  let s := s.modCluster c (fun x => { x with lines := [], siding := [], trackers := [], dirtyCount := [], miss := x.miss.map (fun m => { m with install := false }) })
  let s := s.modDie d (fun y => { y with gate := y.gate &&& ~~~(gateMask (clNo c)) })
  let vis := (List.range 32).filter (fun v => (s.vi (diePkg d) v).st == .bound &&
    s.threads.any (fun e => thCluster e.1 == c && e.2.st != .free && e.2.vi == v))
  vis.foldl (fun s v => s.failVi (diePkg d) v) s

/-- R418, R421: the audit of one unit of a hardware ledger. -/
def State.auditUnit (s : State) (d : Nat) (u : LedgerUnit) : State :=
  let (c, ledger, sub) := unitPlace d u
  let key := ledger * 256 + sub
  let now := s.now d
  let s := s.modCluster c (fun x => { x with audited := tset x.audited key now })
  let truth := s.freeTruth c ledger sub
  let x := s.cluster c
  let found := freeCount x ledger sub
  if found = truth then s
  else
    let two := again (tget? x.mismatch key) now
    let s := s.setCluster c { reload ledger sub truth x with mismatch := tset x.mismatch key now }
    let s := s.ledgerFault d ledger 0 0 (clNo c) sub two truth found
    if two then s.fenceCluster c else s

/-- R418: the shared slots that the far end of a junction has free, and its escape spaces in use, for a channel. -/
def State.junctionTruth (s : State) (d j vc : Nat) : Nat × List (Nat × Nat) :=
  let e := s.die (diePkg d * 8 + jAcross (dieNo d) j)
  (vcCap vc - rxUsed e (4 + jTwin j) {} vc, (rxEsc e (4 + jTwin j) {}).filter (fun a => a.1 == vc))

/-- R418: a junction channel has sent no packet either way for 10 µs. -/
def State.junctionQuiet (s : State) (d j vc : Nat) : Bool :=
  after (s.now d) (tget (s.junction d j).quiet vc 0) (10 * tickUs) &&
    after (s.now d) (tget (s.junction (diePkg d * 8 + jAcross (dieNo d) j) (jTwin j)).quiet vc 0) (10 * tickUs)

/-- R418, R421: the audit of a junction channel at its sending end: it adopts what the receiver has; a second mismatch within 1 s resynchronises every
channel of the junction (log 96). -/
def State.auditJunction (s : State) (d j vc : Nat) : State :=
  let x := s.junction d j
  let now := s.now d
  let (free, esc) := s.junctionTruth d j vc
  let have_ := x.credits.getD vc 0
  if free = have_ && sameEsc vc esc x.esc then s
  else
    let two := again (tget? x.mismatch vc) now
    let s := s.modJunction d j (fun x => { x with
      mismatch := tset x.mismatch vc now, credits := (List.range 7).map (fun i => if i = vc then free else x.credits.getD i 0),
      esc := esc ++ x.esc.filter (fun a => a.1 != vc) })
    let s := s.ledgerFault d 1 0 0 ((4 + j) * 32 + vc) 0 two free have_
    if two then s.syncJunction d j else s

/-- R418: the audit of a hardware ledger's unit; that of a junction channel where both its ends are in service and, unless it is forced (R419), quiet. -/
def State.auditLed (s : State) (d : Nat) (u : LedgerUnit) (forced : Bool) : State :=
  match u with
  | .junction j vc => if s.jOpen d j.toNat && (forced || s.junctionQuiet d j.toNat vc.toNat) then
      (s.modCluster (d * 32) (fun x => { x with audited := tset x.audited (256 + j.toNat * 8 + vc.toNat) (s.now d) })).auditJunction d j.toNat vc.toNat else s
  | _ => s.auditUnit d u

/-- HARDWARE_LEDGER_AUDIT (R418): a quiescent beat. -/
def execHardwareLedgerAudit (die : BitVec 11) (led : LedgerUnit) (s : State) : Out :=
  let d := die.toNat
  if s.dieUp d && !s.inReset (diePkg d) then .next (s.auditLed d led false) else .next s

/-- FORCED_LEDGER_AUDIT (R419): 1 ms, since the last audit or since the die came into service, without a quiescent beat; the next grant is withheld for the one beat of this step. -/
def execForcedLedgerAudit (die : BitVec 11) (led : LedgerUnit) (s : State) : Out :=
  let d := die.toNat
  let (c, ledger, sub) := unitPlace d led
  let due := match tget? (s.cluster c).audited (ledger * 256 + sub) with | some t => after (s.now d) t tickMs | none => after (s.now d) (s.die d).upSince tickMs
  if s.dieUp d && !s.inReset (diePkg d) && due then .next (s.auditLed d led true) else .next s

/-! ### Ledgers 4 and 5 -/

/-- R418: what a VI holds: chains with a token, or pool signals that its tenant owns. -/
def State.heldTruth (s : State) (ledger d v : Nat) : Nat :=
  let x := s.die d
  if ledger = 4 then
    (x.dmaQueue.filter (fun k => k.vi == v)).length +
      x.engines.foldl (fun n e => n + (e.2.chains.filter (fun k => !k.scrub && k.vi == v)).length) 0
  else
    let t := (s.vi (diePkg d) v).tenant
    if t = 0 then 0 else (x.signals.filter (fun e => decide (e.1 < 65536) && e.2.owner == t)).length

def capacityOf (ledger : Nat) : Nat := if ledger = 4 then 1024 else 16384

/-- The shares of a ledger. -/
def State.shareSum (s : State) (ledger d : Nat) : Nat := (List.range 32).foldl (fun n v => n + (s.share ledger d v).share) 0

/-- R421: units taken from the unallocated count; what it lacks is owed. -/
def State.takeUnalloc (s : State) (ledger d n : Nat) : State :=
  let u := s.unalloc ledger d
  let s := s.setUnalloc ledger d (u - n)
  if n ≤ u then s else s.modDie d (fun y => { y with owed := tset y.owed ledger (tget y.owed ledger 0 + (n - u)) })

/-- R420, R421: a mismatch of a share (VI v) or of the unallocated count (32). -/
def State.shareMismatch (s : State) (ledger d v expected found : Nat) : State :=
  let key := ledger * 64 + v
  let now := s.now d
  let two := again (tget? (s.die d).ledMismatch key) now
  let s := s.modDie d (fun y => { y with ledMismatch := tset y.ledMismatch key now })
  let vi := if v < 32 then v else 0
  let s := s.ledgerFault d ledger (if v < 32 then (s.vi (diePkg d) v).tenant else 0) vi 0 0 two expected found
  if two then s.event d 0 evBooksRebuilt noUnit ledger else s

/-- The audit of one VI's share: SHARE is at least what it holds. -/
def State.auditShare (s : State) (ledger d v : Nat) : State :=
  let x := s.share ledger d v
  let truth := s.heldTruth ledger d v
  if x.held = truth && decide (truth ≤ x.share) then s
  else
    let s := s.setShare ledger d v { x with held := truth, share := max x.share truth }
    let s := s.takeUnalloc ledger d (truth - x.share)
    s.shareMismatch ledger d v truth x.held

/-- R421: the ledger set to its ground truth: the unallocated count makes up the capacity with the shares. -/
def State.auditSum (s : State) (ledger d : Nat) : State :=
  let sum := s.shareSum ledger d
  let u := s.unalloc ledger d
  let o := tget (s.die d).owed ledger 0
  if sum + u = capacityOf ledger + o then s
  else
    let s := s.modDie d (fun y => { y with owed := if sum ≤ capacityOf ledger then terase y.owed ledger else tset y.owed ledger (sum - capacityOf ledger) })
    let s := (s.setUnalloc ledger d (capacityOf ledger - sum)).grantDue ledger d
    s.shareMismatch ledger d 32 (capacityOf ledger - sum) u

/-- SHARE_LEDGER_AUDIT (R418): ledger 4 or 5 of a die, after a grant, after a VI reset, and every 100 ms. -/
def execShareLedgerAudit (die : BitVec 11) (ledger : BitVec 4) (s : State) : Out :=
  let d := die.toNat
  let l := ledger.toNat
  let due := match tget? (s.die d).shareAudit l with | some t => after (s.now d) t (100 * tickMs) | none => true
  let pending := (List.range 32).any (fun v => (s.share l d v).withdraw != 0)
  if (l = 4 ∨ l = 5) ∧ (s.dieUp d && (s.die d).swapping.isNone && due && !pending && !s.inReset (diePkg d)) = true then
    let now := s.now d
    let s := s.modDie d (fun y => { y with shareAudit := tset y.shareAudit l now })
    .next (((List.range 32).foldl (fun s v => s.auditShare l d v) s).auditSum l d)
  else .next s

end Sys2Proof.Machine
end

