-- ==== Sys2Proof/Machine/Rate.lean ====
section
/-! DEFINITION. Ring monitors and the rate governor (R46 to R56), the hottest reading of a die (R446 to R449), and the reference tick with its
alignment (R61, R543). -/
set_option Elab.async false
namespace Sys2Proof.Machine

def State.monitor (s : State) (d m : Nat) : Monitor := tget (s.die d).monitors m {}

/-- The monitors of a die that are not stale. -/
def liveMonitors (x : Die) : List Monitor := ((List.range 8).map (fun m => tget x.monitors m {})).filter (fun r => !r.stale)

/-- R48: the minimum column of the beat-rate table at a core voltage, in 1/4,096 of nominal, rounded down (DESIGN CHOICE, log 82):
0.45 is 1,843 in R54, 0.37 becomes 1,515. -/
def minRate (mv : Nat) : Nat :=
  let pct := if mv < 550 then 37 else if mv < 600 then 45 else if mv < 650 then 53 else if mv < 700 then 62 else if mv < 750 then 72
    else if mv < 800 then 81 else if mv < 850 then 90 else if mv < 900 then 97 else 103
  pct * 4096 / 100

/-- R41, R53, R429: the voltage in mV of an OP of a die: 550 to 900, ascending strictly from OP0 to OP15. -/
def opVolt (d : Nat) : Nat → Nat
  | 0 => 550 + Config.fuseVolt d 0 % 336
  | k + 1 => opVolt d k + 1 + Config.fuseVolt d (k + 1) % (886 + k - opVolt d k)

/-- R53, R429: RATE_MIN of an OP of a die, 13 bits, at least the minimum column at its voltage. -/
def opRate (d op : Nat) : Nat := minRate (opVolt d op) + Config.fuseRate d op % (8192 - minRate (opVolt d op))

/-- R429: a voltage table entry; bits 31:23 are 0. -/
def fuseEntry (d op : Nat) : Nat := opRate d op * 2 ^ 10 + opVolt d op

/-- R423: the present output during a slew of 5 mV a microsecond. -/
def presentMv (d : Nat) (x : Subst) (now : Nat) : Nat :=
  if x.slewing then
    let v := opVolt d x.targetOp
    let m := 5 * ((now - x.since) / tickUs)
    if x.mv ≤ v then min v (x.mv + m) else max v (x.mv - m)
  else x.mv

/-- R46, R48: the live rate of a die. -/
def State.liveRate (s : State) (d : Nat) : Nat :=
  match liveMonitors (s.die d) with
  | [] => minRate (presentMv d (s.die d).subst (s.now d))
  | r :: l => l.foldl (fun m q => min m q.rateNow.toNat) r.rateNow.toNat

/-- R56: since when the live rate is below the declared fixed rate; a new dip is not counted yet. -/
def State.noteRate (s : State) (d : Nat) : State :=
  let fixed := (s.pkg (diePkg d)).fixedRate
  let below := fixed != 0 && decide (s.liveRate d < fixed)
  s.modDie d (fun x => { x with belowSince := if below then some (x.belowSince.getD (s.now d)) else none, dipCounted := below && x.dipCounted })

/-- The hottest junction reading of a die, in degrees plus 40, if a monitor is live. -/
def hottest (x : Die) : Option Nat :=
  match liveMonitors x with
  | [] => none
  | r :: l => some (l.foldl (fun m q => max m q.temp.toNat) r.temp.toNat)

/-- Readings of 100, 105 and 112 degrees, plus 40. -/
def hotCool := 140
def hotHard := 145
def hotTrip := 152

/-- MONITOR_MEASURE (R46, R47): every 1 µs the record; the ticks since which a thermal condition stands (R448, R449). -/
def execMonitorMeasure (die : BitVec 11) (m : BitVec 3) (rate : BitVec 16) (temp : BitVec 8) (s : State) : Out :=
  let d := die.toNat
  let now := s.now d
  if !s.dieUp d || !after now (s.monitor d m.toNat).last tickUs then .next s
  else .next (s.modDie d (fun x =>
    let r := tget x.monitors m.toNat {}
    let r : Monitor := { rateMin := if rate.toNat < r.rateMin.toNat then rate else r.rateMin, rateNow := rate, temp := temp, stale := false, last := now }
    let x := { x with monitors := tset x.monitors m.toNat r, staleRaised := false }
    { x with
      tripSince := if hotTrip ≤ temp.toNat then (if thas x.tripSince m.toNat then x.tripSince else tset x.tripSince m.toNat now) else terase x.tripSince m.toNat,
      coolSince := match hottest x with
        | some h => if h < hotCool then some (x.coolSince.getD now) else none
        | none => none }))

/-- MONITOR_STALE (R48): no measurement for 10 µs. -/
def execMonitorStale (die : BitVec 11) (m : BitVec 3) (s : State) : Out :=
  let d := die.toNat
  let r := s.monitor d m.toNat
  if !s.dieUp d || (!r.stale && !after (s.now d) r.last (10 * tickUs)) then .next s
  else
    let s := s.modDie d (fun x => { x with monitors := tset x.monitors m.toNat { r with stale := true } })
    if (liveMonitors (s.die d)).isEmpty && !(s.die d).staleRaised then
      .next ((s.modDie d (fun x => { x with staleRaised := true })).event d 0 evMonitorStale noUnit 0)
    else .next s

/-! ### The governor (R49 to R52) -/

def minOpt (a b : Option Nat) : Option Nat :=
  match a, b with
  | some x, some y => some (min x y)
  | some x, none => some x
  | none, y => y

/-- The pacing rate of a die: its grant, the lever, hard throttling, and its heat (R438, R440, R445, R447, R448). -/
def pacing (x : Die) : Option Nat :=
  minOpt (minOpt x.paceLever (if x.paceHard then some 512 else none)) (minOpt (minOpt x.paceGrant x.paceHeat) (if x.paceHot then some 512 else none))

/-- R51: the rate limit of a die. -/
def rateLimit (fixed : Nat) (x : Die) : Option Nat := minOpt (if fixed = 0 then none else some fixed) (minOpt (pacing x) x.safeRate)

/-- R50: token units (1/32768) that one tick credits at limit L: thread processors, matrix units, DMA engines. -/
def creditOf (consumer l : Nat) : Nat := if consumer < 128 then 144 * l else if consumer < 132 then 116 * l else 125 * l

/-- R50, R52: one tick of a die's governor: its credits first pay for beats of work in progress (R49, log 33). -/
def governDie (limit : Option Nat) (x : Die) : Die :=
  match limit with
  | none => { x with limit := none, banks := [], debt := [] }
  | some l =>
    let old := if x.limit.isNone then [] else x.banks
    let bank (c : Nat) : Nat := min (tget old c 0 + creditOf c l) (2 * creditOf c l)
    let paid (c : Nat) : Nat := min (tget x.debt c 0) (bank c / tokenUnit)
    { x with limit := some l,
             banks := (List.range 140).map (fun c => (c, bank c - paid c * tokenUnit)),
             debt := (x.debt.map (fun e => (e.1, e.2 - paid e.1))).filter (fun e => e.2 != 0) }

/-- R459: pacing below the fixed rate raises EV_FIXED_PACED once per episode. -/
def State.fixedPaced (s : State) (d fixed : Nat) : State :=
  let x := s.die d
  match pacing x with
  | some r =>
    if fixed ≠ 0 ∧ r < fixed then
      (if x.fixedPaced then s else (s.setDie d { x with fixedPaced := true }).event d 0 evFixedPaced noUnit r)
    else s.setDie d { x with fixedPaced := false }
  | none => if x.fixedPaced then s.setDie d { x with fixedPaced := false } else s

/-- R61, R543: the count after one reference tick; drift adds or withholds one tick in every 1,000. -/
def tickPkg (k : Pkg) : Pkg :=
  let n := k.driftCount + 1
  if n < 1000 then { k with tick := k.tick + 1, driftCount := n }
  else if 0 < k.drift then { k with tick := k.tick + 2, driftCount := 0, drift := k.drift - 1 }
  else if k.drift < 0 then { k with driftCount := 0, drift := k.drift + 1 }
  else { k with tick := k.tick + 1, driftCount := 0 }

/-- RATE_SHORTFALL (R56): the live rate has been below the declared rate for more than 1 µs; each dip counts once. -/
def execRateShortfall (die : BitVec 11) (s : State) : Out :=
  let d := die.toNat
  let s := if s.dieUp d then s.noteRate d else s
  let x := s.die d
  match x.belowSince with
  | some t =>
    if s.dieUp d && !x.dipCounted && after (s.now d) t (tickUs + 1) then
      let n := satAdd 16 x.shortfalls.toNat 1
      let s := s.setDie d { x with shortfalls := BitVec.ofNat 16 n, shortArmed := false, dipCounted := true }
      .next (if x.shortArmed then s.event d 0 evRateShort noUnit n else s)
    else .next s
  | none => .next s

end Sys2Proof.Machine
end

