-- ==== Sys2Proof/Machine/Power.lean ====
section
/-! DEFINITION. Power, voltage and heat (R423 to R461): Substations and slews, the cap with its sharing and levers, thermal limits,
watermarks, phase hints and preferred operating points, and energy. -/
set_option Elab.async false
namespace Sys2Proof.Machine

/-! ### Substations (R425 to R432) -/

/-- A die out of service for its Substation (R426): announced, its junctions fenced; die 0 at start-up, the beacon (R534). -/
def State.substLost (s : State) (d : Nat) : State :=
  let p := diePkg d
  let x := s.die d
  let s := s.setDie d { x with st := .outOfService, cause := 1 }
  if dieNo d = 0 ∧ (s.pkg p).phase ≠ .resetting ∧ (s.pkg p).image.isNone then s.enterBeacon p 0x21
  else if dieNo d = 0 then s
  else
    let s := s.fenceNeighbours d
    if s.pkgUp p then s.sendEpoch p (epochDie p (dieNo d) 2 (x.epoch - 1).toNat x.epoch.toNat (s.now d)) else s

/-- A package whose dies have power (R569, R578). -/
def State.powered (s : State) (p : Nat) : Bool := let k := s.pkg p; k.phase != .off && k.phase != .beacon

/-- SUBSTATION_START (R425, R533): die d's not before d × 250 µs after power-good. -/
def execSubstationStart (die : BitVec 11) (s : State) : Out :=
  let d := die.toNat
  let x := s.die d
  if s.powered (diePkg d) && x.subst.st == .off && after (s.now d) 0 (dieNo d * 250 * tickUs) then
    .next (s.setDie d { x with subst := { ({} : Subst) with st := .ramping, attempts := x.subst.attempts + 1, since := s.now d } })
  else .next s

/-- R426: a short: the Substation shuts down, or after the third attempt latches off with FLT_SUBST_SHORT. -/
def State.substShort (s : State) (d mv ocUs : Nat) : State :=
  let x := s.die d
  if 3 ≤ x.subst.attempts then
    let s := s.setDie d { x with
      subst := { x.subst with st := .latchedOff, mv := 0 },
      otherFaults := x.otherFaults ++ [(fltSubstShort, [d, x.subst.attempts, if 20 ≤ ocUs then ocUs else x.subst.checkpoint + 1, mv])] }
    (s.event d 0 fltSubstShort 0x3A 0).substLost d
  else s.setDie d { x with subst := { x.subst with st := .shutDown, since := s.now d, mv := 0 } }

/-- SOFT_START_CHECKPOINT (R425, R426): checkpoint n of 8, 250 µs times n after the start, tests the output against half of n/8 of OP0's
voltage; a current limit reached for 20 µs is a short at any time.  In load phase die 0's rail lets its PCIe port train (R533, R534). -/
def execSoftStartCheckpoint (die : BitVec 11) (mv ocUs : Nat) (s : State) : Out :=
  let d := die.toNat
  let x := s.die d
  if !s.powered (diePkg d) || x.subst.st != .ramping then .next s
  else
    let n := x.subst.checkpoint + 1
    if 20 ≤ ocUs then .next (s.substShort d mv ocUs)
    else if !after (s.now d) x.subst.since (n * 250 * tickUs) then .next s
    else if 16 * mv < opVolt d 0 * n then .next (s.substShort d mv ocUs)
    else if n < 8 then .next (s.setDie d { x with subst := { x.subst with checkpoint := n, mv := mv } })
    else
      let s := s.setDie d { x with subst := { ({} : Subst) with st := .on, checkpoint := 8, mv := opVolt d 0, since := s.now d } }
      .next (s.modPkg (diePkg d) (fun k => if dieNo d = 0 ∧ k.phase = .load then { k with link0 := k.perst0 } else k))

/-- SOFT_START_RETRY (R426): 100 ms after the shutdown. -/
def execSoftStartRetry (die : BitVec 11) (s : State) : Out :=
  let d := die.toNat
  let x := s.die d
  if s.powered (diePkg d) && x.subst.st == .shutDown && after (s.now d) x.subst.since (100 * tickMs) then
    .next (s.setDie d { x with subst := { ({} : Subst) with st := .ramping, attempts := x.subst.attempts + 1, since := s.now d } })
  else .next s

/-- SUBSTATION_OVERCURRENT (R428): 200 A for 20 µs; a die that is not in service is reset too: its epoch rises, its Substation restarts. -/
def execSubstationOvercurrent (die : BitVec 11) (amps us : Nat) (s : State) : Out :=
  let d := die.toNat
  let now := s.now d
  if !s.powered (diePkg d) || (s.die d).subst.st != .on || decide (amps < 200) || decide (us < 20) then .next s
  else if s.dieUp d then .next (s.resetDie d true)
  else .next (s.modDie d (fun x => restartSubst { x with epoch := x.epoch + 1, resetAt := now } true now))

/-- R432: RATE_MIN of the highest OP whose voltage is at or below the lowest voltage on the path. -/
def safeRateFor (d low : Nat) : Nat :=
  (List.range 16).foldl (fun r op => if opVolt d op ≤ low then opRate d op else r) (opRate d 0)

/-- R431, R444: pins that wait on a die whose slew is retargeted are SUPERSEDED. -/
def State.supersedePins (s : State) (d : Nat) : State :=
  s.modPkg (diePkg d) (fun k => { k with mbs := tmap k.mbs (fun _ m =>
    match m.wait with
    | .pin dies => if dies.contains (dieNo d) then { m with wait := .answer 4 0 [] } else m
    | _ => m) })

/-- R430, R432, R456: a voltage command, clipped to the thermal ceiling. -/
def State.voltage (s : State) (d op : Nat) : State :=
  let x := s.die d
  if x.subst.st != .on then s
  else
    let op := min op x.ceiling
    let cur := presentMv d x.subst (s.now d)
    let s := if x.subst.slewing then s.supersedePins d else s
    s.modDie d (fun x => { x with
      subst := { x.subst with mv := cur, targetOp := op, since := s.now d, slewing := true },
      safeRate := some (safeRateFor d (min cur (opVolt d op))) })

/-- VOLTAGE_COMMAND (R430). -/
def execVoltageCommand (die : BitVec 11) (op : BitVec 4) (s : State) : Out :=
  if s.dieUp die.toNat then .next (s.voltage die.toNat op.toNat) else .next s

/-- R423, R431: the tick from which a slew may have settled: the output, at 5 mV a microsecond, has stood within 5 mV of the target for 1 µs. -/
def slewDone (d : Nat) (x : Subst) : Nat :=
  let v := opVolt d x.targetOp
  x.since + (((x.mv - v) + (v - x.mv) - 5 + 4) / 5 + 1) * tickUs

/-- SLEW_SETTLED (R431, R432): the output has stayed within 5 mV of the target for 1 µs, by its path and by its reading. -/
def execSlewSettled (die : BitVec 11) (mv : Nat) (s : State) : Out :=
  let d := die.toNat
  let x := s.die d
  let v := opVolt d x.subst.targetOp
  if s.dieUp d && x.subst.slewing && decide (slewDone d x.subst ≤ s.now d) && decide (mv ≤ v + 5) && decide (v ≤ mv + 5) then
    .next (s.setDie d { x with subst := { x.subst with slewing := false, mv := v }, safeRate := none })
  else .next s

/-! ### Power measures (R424, R445) -/

/-- POWER_MEASURE (R424): every 1 µs, package input power and the power of the 24 domains, in 0.1 W. -/
def execPowerMeasure (pkg : BitVec 8) (input : Nat) (doms : List Nat) (s : State) : Out :=
  let p := pkg.toNat
  if !s.pkgUp p || !after (s.pkg p).tick (s.pkg p).lastMeasure tickUs then .next s
  else
    let s := s.modPkg p (fun k => { k with
      inputNow := input, lastMeasure := k.tick, inputSum := k.inputSum + input, inputNum := k.inputNum + 1, inputWin := (input :: k.inputWin).take 10,
      calmSince := if input * 100 < 15000 * 95 then some (k.calmSince.getD k.tick) else none })
    .next ((List.range 8).foldl (fun s i => s.modDie (p * 8 + i) (fun x =>
      let now := (List.range 3).map (fun j => doms.getD (3 * i + j) 0)
      { x with powerNow := now, powerSum := (List.range 3).map (fun j => x.powerSum.getD j 0 + now.getD j 0) })) s)

/-- Freight is gated by its lever or by hard throttling (R441, R445). -/
def gateFreight (k : Pkg) : Pkg := { k with freightGated := bit k.levers 1 || k.hardThrottle }

/-- HARD_LIMIT_TRIP (R445): more than 1,500 W over a 10 µs window. -/
def execHardLimitTrip (pkg : BitVec 8) (s : State) : Out :=
  let p := pkg.toNat
  let k := s.pkg p
  if s.pkgUp p && !k.hardThrottle && k.inputWin.length == 10 && decide (150000 < k.inputWin.foldl (· + ·) 0) then
    let n := satAdd 32 k.hardCount.toNat 1
    let s := s.setPkg p (gateFreight { k with hardThrottle := true, hardCount := BitVec.ofNat 32 n })
    let s := (List.range 8).foldl (fun s i => s.modDie (p * 8 + i) (fun x => { x with paceHard := true })) s
    .next (s.event (headDie p) 0 evHardThrottle noUnit n)
  else .next s

/-- HARD_THROTTLE_RELEASE (R445): below 95 percent of the limit for 100 µs. -/
def execHardThrottleRelease (pkg : BitVec 8) (s : State) : Out :=
  let p := pkg.toNat
  let k := s.pkg p
  match k.calmSince with
  | some t =>
    if s.pkgUp p && k.hardThrottle && after k.tick t (100 * tickUs) then
      let s := s.setPkg p (gateFreight { k with hardThrottle := false })
      .next ((List.range 8).foldl (fun s i => s.modDie (p * 8 + i) (fun x => { x with paceHard := false })) s)
    else .next s
  | none => .next s

/-! ### Targets (R455 to R459) -/

/-- The VIs that hold work on a die (R456). -/
def State.workVis (s : State) (d : Nat) : List Nat :=
  let x := s.die d
  let p := diePkg d
  let cmds := x.muCmds.map (·.vi) ++ x.ptCmds.map (·.vi) ++ x.dmaQueue.map (·.vi) ++
    (x.engines.map (fun e => e.2.chains.map (·.vi))).flatten ++ (x.mus.map (fun m => m.2.cs.map (·.2.vi))).flatten ++
    ((s.pkg p).shCmds.filter (fun k => k.dies.contains (dieNo d))).map (·.vi)
  (List.range 32).filter (fun v => cmds.contains v || s.threads.any (fun e => thDie e.1 == d && e.2.st != .free && e.2.vi == v))

/-- R455: a preferred OP; every preference is OP15 until set. -/
def prefOf (x : Die) (v phase : Nat) : Nat := tget x.prefs (v * 4 + phase) 15

/-- R456: the highest OP, at most `op`, whose projected power fits the compute grant. -/
def fitOp (powers : List Nat) (grant : Nat) : Nat → Nat
  | 0 => 0
  | op + 1 => if powers.getD (op + 1) 0 ≤ grant then op + 1 else fitOp powers grant op

/-- R458: the window that governs: class, then deadline, then start. -/
def hintLt (a b : Hint) : Bool :=
  decide (a.cls < b.cls) || (a.cls == b.cls && (decide (a.deadline < b.deadline) || (a.deadline == b.deadline && decide (a.start < b.start))))

def govern (x : Die) : Die := { x with governs := minBy hintLt (x.hints.filter (·.begun)) }

/-- R457: the window that steers the voltage: of those that have begun and those whose command was issued ahead of their start. -/
def steers (x : Die) : Option Hint := minBy hintLt (x.hints.filter (fun h => h.begun || h.led))

/-- R456 steps 1 to 3, R459: the OP a die's work asks for, inside a window or outside any; R442: OP0 while a cap is pending. -/
def State.wantedOp (s : State) (d : Nat) (window : Option Hint) : Nat :=
  let x := s.die d
  let k := s.pkg (diePkg d)
  let base := if k.fixedRate ≠ 0 then 0
    else match window with
      | some h => prefOf x h.vi h.phase
      | none => (s.workVis d).foldl (fun m v => max m (prefOf x v 3)) 0
  if k.capPending then 0 else x.pinned.getD base

/-- R456 step 4: the target OP of a die inside a window or outside any: what fits the compute grant, then the thermal ceiling. -/
def State.targetIn (s : State) (d : Nat) (window : Option Hint) : Nat :=
  let x := s.die d
  let op := s.wantedOp d window
  let op := match (s.pkg (diePkg d)).proj with
    | some pr => fitOp (pr.opPower.getD (dieNo d) []) (x.grants.getD 2 0) op
    | none => op
  min op x.ceiling

/-- R456, R457: the target OP of a die. -/
def State.target (s : State) (d : Nat) : Nat := s.targetIn d (steers (s.die d))

/-- A target that differs from the present one is commanded. -/
def State.steer (s : State) (d : Nat) : State :=
  if s.target d ≠ (s.die d).subst.targetOp then s.voltage d (s.target d) else s

/-- The targets of a package's dies. -/
def State.retarget (s : State) (p : Nat) : State :=
  (s.upDies p).foldl (fun s i =>
    s.steer (p * 8 + i)) s

/-- R457: the ticks that a slew to an OP takes from the present output, at 5 mV a microsecond. -/
def State.slewTicks (s : State) (d op : Nat) : Nat :=
  let mv := presentMv d (s.die d).subst (s.now d)
  (((opVolt d op - mv) + (mv - opVolt d op)) + 4) / 5 * tickUs

/-- R457: a window is due for its voltage command: its start less the slew time has come. -/
def State.leadDue (s : State) (d : Nat) (h : Hint) : Bool :=
  !h.begun && !h.led && decide (h.start ≤ s.now d + s.slewTicks d (s.targetIn d (some h)))

/-- R457: the voltage commands of the windows that are due. -/
def State.leadHints (s : State) (d : Nat) : State :=
  if (s.die d).hints.any (s.leadDue d) then
    (s.modDie d (fun x => { x with hints := x.hints.map (fun h => if s.leadDue d h then { h with led := true } else h) })).steer d
  else s

/-! ### The budget (R434 to R437) -/

/-- The domain that a phase moves (R457): 0 link, 1 memory, 2 compute. -/
def hintDomain (phase : Nat) : Nat := match phase with | 0 => 2 | 1 => 1 | _ => 0

def sumN (l : List Nat) : Nat := l.foldl (· + ·) 0

/-- The earliest n places of a list that a test allows, raised by one (R437: remainders go to lower die numbers). -/
def addRest (ok : Nat → Bool) : Nat → Nat → List Nat → List Nat
  | _, _, [] => []
  | i, n, a :: r => if n ≠ 0 ∧ ok i then (a + 1) :: addRest ok (i + 1) (n - 1) r else a :: addRest ok (i + 1) n r

/-- R437: one group of pairs is raised toward its demands. -/
def giveGroup (demands : List Nat) (group : List Nat) (g : List Nat × Nat) : List Nat × Nat :=
  let need (i : Nat) : Nat := if group.contains i then demands.getD i 0 - g.1.getD i 0 else 0
  let total := sumN ((List.range 24).map need)
  if total = 0 then g
  else
    let give := min total g.2
    let raised := (List.range 24).map (fun i => g.1.getD i 0 + give * need i / total)
    let rest := give - sumN ((List.range 24).map (fun i => give * need i / total))
    (addRest (fun i => need i != 0) 0 rest raised, g.2 - give)

/-- R437: the grants of the 24 domains, die * 3 + domain, in 0.1 W. -/
def grantsFor (cap : Nat) (floors demands : List Nat) (hinted : List Nat) (order : List Nat) : List Nat :=
  let avail := (cap - 30) * 10
  let fl := (List.range 24).map (fun i => floors.getD i 0)
  let total := sumN fl
  if avail < total then
    let g := fl.map (fun f => f * avail / total)
    addRest (fun _ => true) 0 (avail - sumN g) g
  else
    let groups := hinted :: order.map (fun k => (List.range 8).map (fun i => 3 * i + k))
    (groups.foldl (fun g grp => giveGroup demands grp g) (fl, avail - total)).1

/-- R457: pairs moved ahead of the order, from 100 µs before a window starts until it ends. -/
def State.hintedPairs (s : State) (p : Nat) : List Nat :=
  let now := (s.pkg p).tick
  (List.range 24).filter (fun i => (s.die (p * 8 + i / 3)).hints.any (fun h =>
    hintDomain h.phase == i % 3 && decide (h.start ≤ now + 100 * tickUs) && decide (now < h.stop)))

/-- R436: the demand of one domain of a die: the link's at full width, the memory's measured mean plus 10 percent, the compute's projected power
at the OP its work asks for, under the thermal ceiling (log 102). -/
def State.demand (s : State) (d dom : Nat) (pr : PowerProj) : Nat :=
  let x := s.die d
  match dom with
  | 0 => pr.demands.getD (3 * dieNo d) 0
  | 1 => x.power.getD 1 0 * 11 / 10
  | _ => (pr.opPower.getD (dieNo d) []).getD (min (s.wantedOp d x.governs) x.ceiling) 0

/-- R436: the demands of the 24 domains; a hinted domain's inside its window is its fused maximum at the hinted OP, under the thermal
ceiling as the corner on heat rules. -/
def State.demandsOf (s : State) (p : Nat) (pr : PowerProj) : List Nat :=
  (List.range 24).map (fun i =>
    let d := p * 8 + i / 3
    let x := s.die d
    match x.governs with
    | some h => if hintDomain h.phase = i % 3 then Config.fuseMax d (i % 3) (min (prefOf x h.vi h.phase) x.ceiling) else s.demand d (i % 3) pr
    | none => s.demand d (i % 3) pr)

/-- R559: a core of the package swaps: grants, pacing rates and limits stay at their last values. -/
def State.swaps (s : State) (p : Nat) : Bool := (List.range 8).any (fun i => (s.die (p * 8 + i)).swapping.isSome)

/-- R434: the budget recomputed at the head Turja and applied by each die, then the targets that follow from it; R421: while the package
holds its floors every demand is its floor; R438: a die whose OP0 does not fit its compute grant is paced. -/
def State.rebudget (s : State) (p : Nat) : State :=
  if s.swaps p then s else
  match (s.pkg p).proj with
  | none => s.retarget p
  | some pr =>
    let k := s.pkg p
    let g := grantsFor k.capForce pr.floors (if k.floorHold then pr.floors else s.demandsOf p pr) (s.hintedPairs p) k.priority
    let s := s.modPkg p (fun k => { k with grants := g })
    let s := (List.range 8).foldl (fun s i => s.modDie (p * 8 + i) (fun x => { x with
      grants := [g.getD (3 * i) 0, g.getD (3 * i + 1) 0, g.getD (3 * i + 2) 0],
      paceGrant := if g.getD (3 * i + 2) 0 < (pr.opPower.getD i []).getD 0 0 then some (max 256 pr.pace) else none })) s
    s.retarget p

/-- The ledger 7 domains, die * 3 + domain, whose grant at the head Turja is not the grant that the die applies (R418). -/
def State.grantFaults (s : State) (p : Nat) : List Nat :=
  (List.range 24).filter (fun i => s.dieUp (p * 8 + i / 3) && (s.pkg p).grants.getD i 0 != (s.die (p * 8 + i / 3)).grants.getD (i % 3) 0)

/-- R418, R420, R421: the audit of ledger 7 at a power interval, by the head Turja's die (log 95): each domain that differs is recorded and
set to the grant applied; a second mismatch of a domain within 1 s holds the package's floors until an interval audits clean. -/
def State.auditGrants (s : State) (p : Nat) : State :=
  let d := headDie p
  let now := s.now d
  let bad := s.grantFaults p
  let two (i : Nat) : Bool := again (tget? (s.die d).ledMismatch (7 * 64 + i)) now
  let hold := if bad.isEmpty then false else (s.pkg p).floorHold || bad.any two
  let s := bad.foldl (fun s i =>
    let truth := (s.die (p * 8 + i / 3)).grants.getD (i % 3) 0
    let t := s.ledgerFault d 7 0 0 i 0 (again (tget? (s.die d).ledMismatch (7 * 64 + i)) now) truth ((s.pkg p).grants.getD i 0)
    (t.modDie d (fun y => { y with ledMismatch := tset y.ledMismatch (7 * 64 + i) now })).modPkg p (fun k =>
      { k with grants := (List.range 24).map (fun j => if j = i then truth else k.grants.getD j 0) })) s
  s.modPkg p (fun k => { k with floorHold := hold })

/-! ### The cap and its levers (R433, R440 to R444) -/

def le2 (n : Nat) : List Byte := leBytes 2 n

/-- R442 to R444: what a waiting CAP message becomes at a boundary. -/
def capWait (k : Pkg) (force : Nat) (changed met : Bool) (w : MbWait) : MbWait :=
  match w with
  | .cap tray inForce since =>
    if !inForce then
      (if (if tray then k.trayCap else k.hostCap) = force then .cap tray true k.tick else .answer 0 0 (le2 force))
    else if changed then .answer 4 0 (le2 force)
    else if met then .answer 0 0 (le2 force)
    else if after k.tick since (10 * tickMs) then .answer 7 0 (le2 force)
    else w
  | w => w

/-- R440: the next lever that is not in force. -/
def State.nextLever (s : State) (p pace : Nat) : State :=
  match (List.range 4).find? (fun i => !bit (s.pkg p).levers i) with
  | none => s
  | some i =>
    let s := s.modPkg p (fun k => gateFreight { k with levers := k.levers + 2 ^ i })
    match i with
    | 0 => (List.range 8).foldl (fun s j => s.modDie (p * 8 + j) (fun x => { x with paceLever := some (max 256 pace) })) s
    | 3 => (List.range 8).foldl (fun s j => s.modDie (p * 8 + j) (fun x => { x with memCap25 := true, pdLever := true })) s
    | _ => s

/-- R443: the last lever in force is released. -/
def State.dropLever (s : State) (p : Nat) : State :=
  match [3, 2, 1, 0].find? (fun i => bit (s.pkg p).levers i) with
  | none => s
  | some i =>
    let s := s.modPkg p (fun k => gateFreight { k with levers := k.levers - 2 ^ i })
    match i with
    | 0 => (List.range 8).foldl (fun s j => s.modDie (p * 8 + j) (fun x => { x with paceLever := none })) s
    | 3 => (List.range 8).foldl (fun s j => s.modDie (p * 8 + j) (fun x => { x with memCap25 := false, pdLever := false, pdown := [] })) s
    | _ => s

/-- R438, R440: the widths that the ports request after a boundary: shed to two lanes by the lever; the minimum width where the link grant
is below the demand (log 37); full width otherwise. -/
def State.setWidths (s : State) (p : Nat) (pr : PowerProj) : State :=
  let k := s.pkg p
  (s.upDies p).foldl (fun s i =>
    let d := p * 8 + i
    s.wantWidths d (if bit k.levers 2 then max 2 k.minWidth
      else if (s.die d).grants.getD 0 0 < pr.demands.getD (3 * i) 0 then k.minWidth else 4)) s

/-- R446, R447: a die's thermal ceiling and its own pacing at a boundary, from its mean and largest reading in degrees. -/
def heatDie (mean hi : Nat) (x : Die) : Die :=
  let was := x.ceiling
  let x := if 95 ≤ mean then { x with ceiling := x.ceiling - 1 } else if hi ≤ 92 then { x with ceiling := min 15 (x.ceiling + 1) } else x
  match x.paceHeat with
  | none => if was = 0 ∧ 100 ≤ mean then { x with paceHeat := some 2048 } else x
  | some r =>
    if was = 0 ∧ 100 ≤ mean then { x with paceHeat := some (max 256 (r / 2)) }
    else if mean < 97 then { x with paceHeat := if 4096 ≤ 2 * r then none else some (2 * r) }
    else x

/-- POWER_INTERVAL (R434, R440 to R443, R446, R447): a 1 ms boundary.  While a core of the package swaps only the means are taken (R559). -/
def execPowerInterval (pkg : BitVec 8) (proj : PowerProj) (s : State) : Out :=
  let p := pkg.toNat
  if !s.pkgUp p || !after (s.pkg p).tick (s.pkg p).lastInterval tickMs then .next s
  else
    let k := s.pkg p
    let n := k.inputNum
    let mean := if n = 0 then k.inputMean else k.inputSum / n
    let s := (List.range 8).foldl (fun s i => s.modDie (p * 8 + i) (fun x => { x with
      power := if n = 0 then x.power else x.powerSum.map (fun v => v / n), powerSum := [0, 0, 0] })) s
    if s.swaps p then
      .next (s.setPkg p { k with inputMean := mean, inputSum := 0, inputNum := 0, lastInterval := k.tick, ledgerShown := k.ledgerFaults })
    else
    -- the cap in force from this boundary
    let force := min k.hostCap k.trayCap
    let changed := force != k.capForce
    let fresh := k.mbs.any (fun m => match m.2.wait with
      | .cap tray inForce _ => !inForce && (if tray then k.trayCap else k.hostCap) == force
      | _ => false)
    let met := decide (mean ≤ 10 * force)
    let anew := changed || fresh
    let late := !anew && !k.capAnswered && !met && after k.tick k.capSince (10 * tickMs)
    let attained := !anew && k.capPending && met
    let s := s.setPkg p { k with
      inputMean := mean, inputSum := 0, inputNum := 0, lastInterval := k.tick, proj := some proj, ledgerShown := k.ledgerFaults, capForce := force,
      capSince := if anew then k.tick else k.capSince,
      capAnswered := if anew then false else k.capAnswered || met || late,
      capPending := if anew then false else (k.capPending || late) && !met,
      mbs := tmap k.mbs (fun _ m => { m with wait := capWait k force changed met m.wait }) }
    let s := if late then s.event (headDie p) 0 evCapUnattainable noUnit force else s
    let s := if attained then s.event (headDie p) 0 evCapAttained noUnit force else s
    -- ledger 7, heat, then the budget and the targets
    let s := s.auditGrants p
    let s := (s.upDies p).foldl (fun s i => s.modDie (p * 8 + i) (heatDie (proj.hotMean.getD i 0) (proj.hotMax.getD i 0))) s
    let s := s.rebudget p
    -- the levers
    let floor := (s.upDies p).all (fun i => (s.die (p * 8 + i)).subst.targetOp == 0)
    let s := if !met && floor then s.nextLever p proj.pace
      else if met && !attained && !(s.pkg p).capPending && decide (proj.released * 100 ≤ force * 10 * 98) then s.dropLever p
      else s
    .next (s.setWidths p proj)

/-! ### Heat (R448 to R451) -/

/-- THERMAL_HARD (R448): 105 degrees or more. -/
def execThermalHard (die : BitVec 11) (s : State) : Out :=
  let d := die.toNat
  let x := s.die d
  match hottest x with
  | some h =>
    if s.dieUp d && !x.paceHot && decide (hotHard ≤ h) then
      .next ((s.setDie d { x with paceHot := true, coolSince := none }).event d 0 evThermalHard noUnit (h - 40))
    else .next s
  | none => .next s

/-- THERMAL_HARD_RELEASE (R448): below 100 degrees for 100 µs. -/
def execThermalHardRelease (die : BitVec 11) (s : State) : Out :=
  let d := die.toNat
  let x := s.die d
  match x.coolSince with
  | some t => if s.dieUp d && x.paceHot && after (s.now d) t (100 * tickUs) then .next (s.setDie d { x with paceHot := false }) else .next s
  | none => .next s

/-- R449: package-fatal heat: every Substation shuts down, the record, the beacon. -/
def State.thermalFatal (s : State) (d : Nat) (vals : List Nat) (code : Nat) : State :=
  let p := diePkg d
  let s := s.modDie d (fun x => { x with otherFaults := x.otherFaults ++ [(fltThermalTrip, vals)] })
  let s := s.event d 0 fltThermalTrip noUnit 0
  let s := (List.range 8).foldl (fun s i => s.modDie (p * 8 + i) (fun x => { x with
    subst := { x.subst with st := .shutDown, mv := 0, since := s.now d }, st := .outOfService, cause := 4 })) s
  s.enterBeacon p code

/-- THERMAL_TRIP (R449): 112 degrees or more on a monitor for 100 µs. -/
def execThermalTrip (die : BitVec 11) (m : BitVec 3) (s : State) : Out :=
  let d := die.toNat
  match tget? (s.die d).tripSince m.toNat with
  | some t =>
    if s.pkgUp (diePkg d) && after (s.now d) t (100 * tickUs) then
      .next (s.thermalFatal d [d, m.toNat, (s.monitor d m.toNat).temp.toNat] 0x11)
    else .next s
  | none => .next s

/-- STACK_TEMP_REPORT (R450): every 1 µs: refresh, bandwidth, and the trip at 105 degrees for 100 µs (temperatures in degrees plus 40). -/
def execStackTempReport (die : BitVec 11) (temp : BitVec 8) (s : State) : Out :=
  let d := die.toNat
  let t := temp.toNat
  let now := s.now d
  if !s.pkgUp (diePkg d) || !after now (s.die d).stackLast tickUs then .next s
  else
    let since := if 145 ≤ t then some ((s.die d).stackHotSince.getD now) else none
    let s := s.modDie d (fun x => { x with stackTemp := temp, stackLast := now, refresh2x := decide (125 < t), bwHeat := decide (135 < t), stackHotSince := since })
    match since with
    | some u => if after now u (100 * tickUs) then .next (s.thermalFatal d [d, t] 0x12) else .next s
    | none => .next s

/-- R451: THERM# is asserted: some die at 95 degrees or more, or some stack above 85. -/
def State.thermPin (s : State) (p : Nat) : Bool :=
  (List.range 8).any (fun i => let x := s.die (p * 8 + i)
    (match hottest x with | some h => decide (135 ≤ h) | none => false) || decide (125 < x.stackTemp.toNat))

/-! ### Watermarks (R452 to R454) -/

/-- R452: the present level of a watermark's quantity. -/
def State.level (s : State) (p : Nat) (w : Watermark) : Nat :=
  let x := s.die (p * 8 + w.die)
  match w.quantity with
  | 0 => (s.pkg p).inputNow / 10
  | 1 => sumN x.powerNow
  | 2 => (hottest x).getD 0
  | 3 => x.stackTemp.toNat
  | _ => s.liveRate (p * 8 + w.die)

def Watermark.past (w : Watermark) (level : Nat) : Bool := if w.falling then decide (level < w.mark.toNat) else decide (w.mark.toNat < level)

/-- R453: the level is back by HYST. -/
def Watermark.back (w : Watermark) (level : Nat) : Bool :=
  if w.falling then decide (w.mark.toNat + w.hyst.toNat ≤ level) else decide (level + w.hyst.toNat ≤ w.mark.toNat)

/-- R453: a comparison: the watermark after it, and whether it raises a notice. -/
def Watermark.compare (w : Watermark) (level : Nat) : Watermark × Bool :=
  let w := { w with level := BitVec.ofNat 16 (min level 65535) }
  if w.armed && w.past level then
    ({ w with armed := false, count := BitVec.ofNat 8 (satAdd 8 w.count.toNat 1), latch := if w.count = 0 then w.level else w.latch }, w.count == 0)
  else if !w.armed && w.back level then ({ w with armed := true }, false)
  else (w, false)

/-- WATERMARK_COMPARE (R452, R453): every 1 µs. -/
def execWatermarkCompare (pkg : BitVec 8) (k : BitVec 4) (s : State) : Out :=
  let p := pkg.toNat
  let w := tget (s.pkg p).watermarks k.toNat {}
  let now := (s.pkg p).tick
  if !s.pkgUp p || !w.enabled || !after now w.last tickUs then .next s
  else
    let (w, raise) := ({ w with last := now } : Watermark).compare (s.level p w)
    let s := s.modPkg p (fun x => { x with watermarks := tset x.watermarks k.toNat w })
    if !raise then .next s
    else if w.tc then
      let e := eventEntry evWatermark 0 (s.die (headDie p)).epoch.toNat (0x50 + k.toNat) w.latch.toNat (s.pkg p).tick
      .next (s.modPkg p (fun x =>
        let (q, dr) := pushQ 64 x.tcEvents x.tcDropped e
        { x with tcEvents := q, tcDropped := dr }))
    else .next (s.event (headDie p) 0 evWatermark (0x50 + k.toNat) w.latch.toNat)

/-! ### Hints (R455 to R458) -/

/-- R457: the acceptance tick of a command (R61, R487). -/
def RCmd.accepted (k : RCmd) : Nat :=
  let rel := bits (k.word 0) 0 24
  k.deadline - 100 * (if rel = 0 then 0xFFFFFF else rel)

/-- HINT_PHASE (R457, R458): the window is recorded on each die of the mask that is in service, and its voltage command issued if it is due. -/
def execHintPhase (cmd : CmdRef) (s : State) : Out :=
  match s.rcmd? cmd with
  | none => .next s
  | some k =>
    if bits (k.word 2) 0 2 = 3 then .next s
    else startCmd s cmd 10 (fun k s =>
      let start := k.accepted + bits (k.word 4) 32 32 * tickUs
      let h : Hint := { vi := cmd.v, cls := k.cls, deadline := k.deadline, phase := bits (k.word 2) 0 2, start := start,
                        stop := start + bits (k.word 4) 0 32 * tickUs }
      let s := k.dies.foldl (fun s d => if (s.die (cmd.p * 8 + d)).st == .outOfService then s
        else (s.modDie (cmd.p * 8 + d) (fun x => { x with hints := x.hints ++ [h] })).leadHints (cmd.p * 8 + d)) s
      s.finishCmd cmd 0 (ringResult 0 0 0 0))

/-- HINT_PHASE_END (R457): the VI's windows on the dies of the mask close. -/
def execHintPhaseEnd (cmd : CmdRef) (s : State) : Out :=
  match s.rcmd? cmd with
  | none => .next s
  | some k =>
    if bits (k.word 2) 0 2 ≠ 3 then .next s
    else startCmd s cmd 10 (fun k s =>
      let s := k.dies.foldl (fun s d => s.modDie (cmd.p * 8 + d) (fun x => govern { x with hints := x.hints.filter (fun h => h.vi != cmd.v) })) s
      (s.rebudget cmd.p).finishCmd cmd 0 (ringResult 0 0 0 0))

/-- SET_OP (R455). -/
def execSetOp (cmd : CmdRef) (s : State) : Out :=
  startCmd s cmd 11 (fun k s =>
    let s := k.dies.foldl (fun s d => s.modDie (cmd.p * 8 + d) (fun x =>
      { x with prefs := tset x.prefs (cmd.v * 4 + bits (k.word 2) 0 2) (bits (k.word 2) 4 4) })) s
    s.finishCmd cmd 0 (ringResult 0 0 0 0))

/-- HINT_WINDOW_START (R457): the next window whose start has come. -/
def execHintWindowStart (die : BitVec 11) (s : State) : Out :=
  let d := die.toNat
  let now := s.now d
  let x := s.die d
  match x.hints.findIdx? (fun h => !h.begun && decide (h.start ≤ now)) with
  | some i =>
    if !s.dieUp d then .next s
    else .next ((s.setDie d (govern { x with hints := x.hints.modify i (fun h => { h with begun := true }) })).rebudget (diePkg d))
  | none => .next s

/-- HINT_WINDOW_END (R458). -/
def execHintWindowEnd (die : BitVec 11) (s : State) : Out :=
  let d := die.toNat
  let now := s.now d
  let x := s.die d
  match x.hints.findIdx? (fun h => h.begun && decide (h.stop ≤ now)) with
  | some i =>
    if !s.dieUp d then .next s
    else .next ((s.setDie d (govern { x with hints := x.hints.eraseIdx i })).rebudget (diePkg d))
  | none => .next s

/-! ### Energy (R460, R461) -/

/-- 2^(r/15) in units of 2^-30, rounded down. -/
def pow15 : List Nat := [1073741824, 1124523501, 1177706854, 1233405466, 1291738296, 1352829926, 1416810830, 1483817656, 1553993510, 1627488270, 1704458900, 1785069789, 1869493099, 1957909135, 2050506730]

/-- R460: x × 2^((t − 70)/15) for t in degrees, rounded down (log 30). -/
def heatScale (x : Nat) (t : Int) : Nat :=
  let e := t - 70
  let q := e / 15
  let y := x * pow15.getD (e % 15).toNat 0
  if 0 ≤ q then y * 2 ^ q.toNat / 2 ^ 30 else y / 2 ^ 30 / 2 ^ (-q).toNat

/-- R460: a die's core voltage over its slice, as a sum in mV and the ticks it was taken at; the present one where no tick was. -/
def sliceMv (x : Die) : Nat × Nat := if x.slice.num = 0 then (x.subst.mv, 1) else (x.slice.mv, x.slice.num)

/-- R460: a die's mean hottest reading over its slice, in degrees plus 40, rounded down. -/
def sliceHot (x : Die) : Nat := if x.slice.hotNum = 0 then (hottest x).getD 0 else x.slice.hot / x.slice.hotNum

/-- R460: the dynamic energy of one VI's activity on a die, in fJ. -/
def dynFj (d : Nat) (v : Nat × Nat) (a : Activity) : Nat :=
  sumN (a.map (fun e => e.2 * Config.fuseCoeff d e.1)) * v.1 ^ 2 / (750 * v.2) ^ 2

/-- R460: the static energy of a die in a 1 ms slice, in fJ. -/
def staticFj (d : Nat) (x : Die) : Nat :=
  heatScale (Config.fuseL70 d * 1000000000 * (sliceMv x).1 / (750 * (sliceMv x).2)) ((sliceHot x : Int) - 40)

/-- R461: energy added to a VI, or to UNATTRIBUTED (32). -/
def State.addEnergy (s : State) (p v fj : Nat) : State :=
  if v < 32 then s.modVi p v (fun x =>
    let t := x.energyFj + fj
    { x with energy := x.energy + BitVec.ofNat 64 (t / 1000000000), energyFj := t % 1000000000 })
  else s.modPkg p (fun k =>
    let t := k.energyUnFj + fj
    { k with energyUn := k.energyUn + BitVec.ofNat 64 (t / 1000000000), energyUnFj := t % 1000000000 })

/-- R460: a die's slice. -/
def State.energyDie (s : State) (d : Nat) : State :=
  let p := diePkg d
  let x := s.die d
  let bound (v : Nat) : Nat := if v < 32 ∧ (s.vi p v).st == .bound then v else 32
  let dyn := x.activity.map (fun e => (bound e.1, dynFj d (sliceMv x) e.2))
  let total := sumN (dyn.map (·.2))
  let st := staticFj d x
  let s := s.setDie d { x with activity := [], slice := {} }
  if total = 0 then s.addEnergy p 32 st
  else
    let shares := dyn.map (fun e => (e.1, e.2, st * e.2 / total))
    let s := shares.foldl (fun s e => s.addEnergy p e.1 (e.2.1 + e.2.2)) s
    s.addEnergy p 32 (st - sumN (shares.map (·.2.2)))

/-- ENERGY_SLICE (R460, R461): every 1 ms, with the 30 W overhead. -/
def execEnergySlice (pkg : BitVec 8) (s : State) : Out :=
  let p := pkg.toNat
  let now := (s.pkg p).tick
  if !s.pkgUp p || !after now (s.pkg p).lastSlice tickMs then .next s
  else
    let s := s.modPkg p (fun k => { k with lastSlice := now })
    .next (((List.range 8).foldl (fun s i => s.energyDie (p * 8 + i)) s).addEnergy p 32 (30000 * 1000000000))

/-! ### The reference tick -/

/-- R460: one tick of a die's energy slice. -/
def sampleSlice (d now : Nat) (x : Die) : Die :=
  let y : Slice := { x.slice with num := x.slice.num + 1, mv := x.slice.mv + presentMv d x.subst now }
  { x with slice := match hottest x with | some h => { y with hotNum := y.hotNum + 1, hot := y.hot + h } | none => y }

/-- GOVERNOR_TICK (R50): one 10 ns reference tick of a package: credits, dips of the rate, windows that near their start (R457), and what the
energy slice sees (R460). -/
def execGovernorTick (pkg : BitVec 8) (s : State) : Out :=
  let p := pkg.toNat
  if (s.pkg p).phase == .off then .next s
  else
    let s := s.modPkg p tickPkg
    let fixed := (s.pkg p).fixedRate
    .next ((List.range 8).foldl (fun s i =>
      let d := p * 8 + i
      let s := s.modDie d (sampleSlice d (s.now d))
      if !s.dieUp d then s
      else
        let l := rateLimit fixed (s.die d)
        let s := (s.fixedPaced d fixed).noteRate d
        let s := if l.isNone && (s.die d).limit.isNone then s else s.modDie d (governDie l)
        s.leadHints d) s)

end Sys2Proof.Machine
end

