-- ==== Sys2Proof/Machine/Mailbox.lean ====
section
/-! DEFINITION. The mailboxes (R472 to R475, R500 to R513): GO, DROPPED, the management bus (R502), roles, responses, repeats, relays, and the
frame in which every message is performed. -/
set_option Elab.async false
namespace Sys2Proof.Machine

/-- The tray-controller mailbox. -/
def tcBox : Nat := 32

def State.mb (s : State) (p b : Nat) : Mailbox := tget (s.pkg p).mbs b {}
def State.modMb (s : State) (p b : Nat) (f : Mailbox → Mailbox) : State := s.modPkg p (fun k => { k with mbs := tset k.mbs b (f (tget k.mbs b {})) })

/-- R401, R471, R536, R576: a mailbox that answers: a function's unless it is DISABLED, in load and run phase; the tray controller's in run phase. -/
def State.mbPresent (s : State) (p b : Nat) : Bool :=
  let ph := (s.pkg p).phase
  if b = tcBox then ph == .run else (ph == .run || ph == .load) && decide (b < 32) && (s.vi p b).st != .disabled

/-! ### Requests (R504 to R507) -/

def Mailbox.cls (m : Mailbox) : Nat := (m.req.getD 0 0).toNat
def Mailbox.code (m : Mailbox) : Nat := (m.req.getD 1 0).toNat
def Mailbox.seq (m : Mailbox) : Nat := leNat ((m.req.drop 2).take 2)
def Mailbox.len (m : Mailbox) : Nat := leNat ((m.req.drop 4).take 2)
def Mailbox.relayed (m : Mailbox) : Bool := (m.req.getD 6 0).getLsbD 0
def Mailbox.target (m : Mailbox) : Nat := (m.req.getD 7 0).toNat
def Mailbox.body (m : Mailbox) : List Byte := (m.req.take m.len).drop 16

/-- R506: the bytes that the body of a message needs; none for an unassigned class or code. -/
def bodyNeed (cls code : Nat) : Option Nat :=
  let l : List Nat := match cls with
    | 1 => [0, 0]
    | 2 => [10, 1, 2, 6, 2, 8, 8, 1]
    | 3 => [16, 6, 6, 0]
    | 4 => [32, 1, 1, 1, 8, 1]
    | 5 => [2, 16, 4, 2, 1, 8, 8]
    | 6 => [2, 2, 2, 2, 8, 0, 2, 0, 1, 1, 1]
    | 7 => [2, 2, 1]
    | 8 => [1, 2, 2, 4, 0, 1]
    | 9 => [0, 7, 16, 1, 0]
    | 10 => [2, 2, 5, 2, 1]
    | 11 => [4, 4, 5, 4, 2]
    | 12 => [1, 1, 5, 0]
    | _ => []
  if code = 0 then none else l[code - 1]?

/-- A field of a body (R505). -/
def fld (b : List Byte) (off size : Nat) : Nat := leNat ((b.drop off).take size)

/-- R505: fields (size, value) in order, each at the next multiple of its size, or of 8 for a larger one; padded to a multiple of 8. -/
def padTo (k : Nat) (b : List Byte) : List Byte := b ++ List.replicate ((k - b.length % k) % k) 0
def packBody (l : List (Nat × Nat)) : List Byte :=
  padTo 8 (l.foldl (fun b e => padTo (min e.1 8) b ++ leBytes e.1 e.2) [])

/-! ### Responses (R504, R508 to R510) -/

def stsOk := 0
def stsBusy := 1
def stsBadArg := 2
def stsNoRight := 3
def stsSuperseded := 4
def stsRetry := 5
def stsGone := 6
def stsUnattainable := 7

/-- DETAIL for a fault of the header (R504). -/
def headerFault : Nat := 0xFFFFFFFF

/-- R504: the bytes of a response. -/
def rspBytes (cls code seq status detail : Nat) (body : List Byte) (relayed again : Bool) : List Byte :=
  let body := padTo 8 body
  leBytes 8 (cls % 256 + code % 256 * 2 ^ 8 + seq % 65536 * 2 ^ 16 + (16 + body.length) * 2 ^ 32 + status % 256 * 2 ^ 48 +
    b2n relayed * 2 ^ 56 + b2n again * 2 ^ 57) ++ leBytes 4 detail ++ [0, 0, 0, 0] ++ body

/-- R473 steps 4 and 5: a response stands in the buffer. -/
def deliver (bytes : List Byte) (m : Mailbox) : Mailbox :=
  { m with rsp := bytes ++ m.rsp.drop bytes.length, seqDone := BitVec.ofNat 16 m.seq, done := true, owned := false, wait := .none }

/-- R473: DONE, and the function's vector 0. -/
def State.respondMb (s : State) (p b : Nat) (f : Mailbox → Mailbox) : State :=
  let s := s.modMb p b f
  if b < 32 then s.msix p b 0 else s

/-- R509, R510: a request is answered, and its response stored unless it is BUSY or RETRY_LATER. -/
def State.answerMb (s : State) (p b status detail : Nat) (body : List Byte) (relayed : Bool) : State :=
  s.respondMb p b (fun m =>
    let bytes := rspBytes m.cls m.code m.seq status detail body relayed false
    let m := if status = stsBusy ∨ status = stsRetry then m
      else { m with stored := (⟨BitVec.ofNat 16 m.seq, BitVec.ofNat 8 m.cls, BitVec.ofNat 8 m.code, bytes⟩ :: m.stored).take 32 }
    deliver bytes m)

/-- R509: the stored response of a repeat. -/
def withRepeat (bytes : List Byte) : List Byte := bytes.set 7 ((bytes.getD 7 0) ||| 2)

/-! ### Admission (R475, R508, R535, R536) -/

/-- R536: the classes answered while no image runs. -/
def romClass (c : Nat) : Bool := c == 1 || c == 9 || c == 12

/-- R535: the classes answered with STRAPS 0 (log 39). -/
def strapClass (c : Nat) : Bool := romClass c || c == 8

/-- R508: BUSY, or RETRY_LATER. -/
def State.early (s : State) (p b cls : Nat) : Option Nat :=
  if (s.die (headDie p)).swapping.isSome then some stsBusy
  else if b < 32 && (s.vi p b).st == .resetting then some stsRetry
  else if (s.pkg p).image.isNone && !romClass cls then some stsRetry
  else none

/-- MB_DOORBELL GO (R473, R474): firmware takes the request; what its header, its SEQ or the moment decides is answered at once. -/
def State.go (s : State) (p b : Nat) : State :=
  let m := s.mb p b
  if !s.mbPresent p b then s
  else if m.owned then s.modMb p b (fun m => { m with dropped := true })
  else
    let s := s.modMb p b (fun m => { m with owned := true, done := false, wait := .perform })
    match s.early p b m.cls with
    | some st => s.answerMb p b st 0 [] false
    | none =>
      match m.stored.find? (fun e => e.seq.toNat == m.seq) with
      | some e =>
        if e.cls.toNat = m.cls ∧ e.code.toNat = m.code then s.respondMb p b (deliver (withRepeat e.rsp))
        else s.respondMb p b (fun m => deliver (rspBytes m.cls m.code m.seq stsBadArg headerFault [] false false) m)
      | none =>
        match bodyNeed m.cls m.code with
        | none => s.answerMb p b stsBadArg headerFault [] false
        | some n =>
          if m.len < 16 + n ∨ 256 < m.len then s.answerMb p b stsBadArg headerFault [] false
          else s.modPkg p (fun k => { k with goQueue := k.goQueue ++ [b] })

/-- MAILBOX_GO (R473). -/
def execMailboxGo (pkg : BitVec 8) (vi : BitVec 5) (s : State) : Out := .next (s.go pkg.toNat vi.toNat)

/-- R472: DROPPED is cleared. -/
def State.clearDropped (s : State) (p b : Nat) : State :=
  if s.mbPresent p b then s.modMb p b (fun m => { m with dropped := false }) else s

/-- DROPPED_CLEAR (R472). -/
def execDroppedClear (pkg : BitVec 8) (vi : BitVec 5) (s : State) : Out := .next (s.clearDropped pkg.toNat vi.toNat)

/-- SMBUS_GO (R502). -/
def execSmbusGo (pkg : BitVec 8) (s : State) : Out := .next (s.go pkg.toNat tcBox)

/-- SMBUS_CLEAR_DROPPED (R502). -/
def execSmbusClearDropped (pkg : BitVec 8) (s : State) : Out := .next (s.clearDropped pkg.toNat tcBox)

/-- R472, R474: bytes of the request buffer are written, or dropped while OWNED. -/
def State.writeReq (s : State) (p b off : Nat) (bytes : List Byte) : State :=
  if !s.mbPresent p b then s
  else s.modMb p b (fun m => if m.owned then { m with dropped := true }
    else { m with req := (m.req.take off ++ bytes ++ m.req.drop (off + bytes.length)).take 256 })

/-- SMBUS_BLOCK_WRITE (R502): dropped on a bad check or while OWNED. -/
def execSmbusBlockWrite (pkg : BitVec 8) (k : BitVec 3) (bytes : List (BitVec 8)) (pecOk : Bool) (s : State) : Out :=
  let p := pkg.toNat
  if !s.mbPresent p tcBox then .next s
  else if !pecOk || bytes.length != 32 then .next (s.modMb p tcBox (fun m => { m with dropped := true }))
  else .next (s.writeReq p tcBox (32 * k.toNat) bytes)

/-! ### Performing a message (R501, R503, R508, R513) -/

/-- R501: the roles. -/
inductive Role where
  | pf | own | free | tc
  deriving DecidableEq, Repr

/-- Who asks: package, mailbox, role, body; and whether the request came by relay. -/
structure Asker where
  p : Nat
  b : Nat
  role : Role
  body : List Byte
  relayed : Bool

def State.roleOf (s : State) (p b : Nat) : Role :=
  if b = tcBox then .tc else if b = 0 then .pf else if (s.vi p b).st == .bound then .own else .free

/-- OWN: the function's VI is BOUND. -/
def State.ownsVi (s : State) (x : Asker) : Bool := decide (x.b < 32) && x.role != .tc && !x.relayed && (s.vi x.p x.b).st == .bound
def Asker.isPf (x : Asker) : Bool := x.role == .pf
def Asker.isTc (x : Asker) : Bool := x.role == .tc
def Asker.n (x : Asker) (off size : Nat) : Nat := fld x.body off size

/-- What performing gives: an answer, a wait, or a request that will not be answered. -/
inductive MsgOut where
  | answer (s : State) (status detail : Nat) (body : List Byte)
  | wait (s : State) (w : MbWait)
  | silent (s : State)

/-- A message: its code, its tests in the order of R508, and its effect. -/
structure Msg where
  cls : Nat
  code : Nat
  relay : Bool := false
  rights : State → Asker → Bool
  retry : State → Asker → Bool := fun _ _ => false
  bad : State → Asker → Option Nat := fun _ _ => none
  /-- The die mask for which GONE is answered. -/
  gone : State → Asker → Nat := fun _ _ => 0
  perform : State → Asker → MsgOut

/-- R508: the first status that applies. -/
def State.runMsg (s : State) (m : Msg) (x : Asker) : MsgOut :=
  if m.retry s x then .answer s stsRetry 0 []
  else match m.bad s x with
  | some off => .answer s stsBadArg off []
  | none =>
    if !m.rights s x then .answer s stsNoRight 0 []
    else if !(s.pkg x.p).clean && !strapClass m.cls then .answer s stsGone 0xFF []
    else if m.gone s x ≠ 0 then .answer s stsGone (m.gone s x) []
    else m.perform s x

/-- A package that relayed requests reach. -/
def State.reaches (s : State) (p t : Nat) : Bool :=
  s.inMachine p t && s.pkgUp t && (tget (s.die (headDie p)).targets (headDie t) .inService == .inService) && s.reached (headDie p) (headDie t)

/-- The outcome of a message as the mailbox sees it. -/
def State.takeOut (p b : Nat) (relayed : Bool) : MsgOut → State
  | .answer s st det body => s.answerMb p b st det body relayed
  | .wait s w => s.modMb p b (fun m => { m with wait := w })
  | .silent s => s

/-- A message is performed for the mailbox whose GO came first (R513, log 42). -/
def performMsg (m : Msg) (pkg : BitVec 8) (mb : BitVec 6) (s : State) : Out :=
  let p := pkg.toNat
  let b := mb.toNat
  let k := s.mb p b
  if (s.pkg p).goQueue.head? ≠ some b ∨ k.cls ≠ m.cls ∨ k.code ≠ m.code then .next s
  else
    let s := s.modPkg p (fun k => { k with goQueue := k.goQueue.drop 1 })
    match s.early p b m.cls with
    | some st => .next (s.answerMb p b st 0 [] false)
    | none =>
      let role := s.roleOf p b
      if k.relayed then
        if !m.relay || !(role == .pf || role == .tc) then .next (s.answerMb p b stsNoRight 0 [] false)
        else if k.target = p then .next (State.takeOut p b false (s.runMsg m ⟨p, 0, .pf, k.body, true⟩))
        else if !s.reaches p k.target then .next (s.answerMb p b stsGone 0xFF [] false)
        else
          let s := s.modMb p b (fun m => { m with wait := .relay })
          .next (s.post (s.mgmt (headDie p) (headDie k.target) (.mgmt (.relayReq b k.req))))
      else .next (State.takeOut p b false (s.runMsg m ⟨p, b, role, k.body, false⟩))

/-! ### Tests that messages share -/

/-- The dies of a mask that are out of service or resetting. -/
def State.goneMask (s : State) (p mask : Nat) : Nat :=
  (List.range 8).foldl (fun m i => if bit mask i && !s.dieUp (p * 8 + i) then m + 2 ^ i else m) 0

/-- The mask of one die that a field names. -/
def State.goneDie (s : State) (p i : Nat) : Nat := s.goneMask p (2 ^ (i % 8))

def answerOk (s : State) (body : List Byte) : MsgOut := .answer s stsOk 0 body

/-- The rights of a message (R501, R517): ANY, OWN, PF, and combinations. -/
def rAny : State → Asker → Bool := fun _ _ => true
def rOwn : State → Asker → Bool := fun s x => s.ownsVi x
def rPf : State → Asker → Bool := fun _ x => x.isPf
def rPfTc : State → Asker → Bool := fun _ x => x.isPf || x.isTc
def rPfOwn : State → Asker → Bool := fun s x => x.isPf || s.ownsVi x

/-- The die that a field names. -/
def Asker.die (x : Asker) (off : Nat) : Nat := x.p * 8 + x.n off 1 % 8
def goneAt (off : Nat) : State → Asker → Nat := fun s x => s.goneDie x.p (x.n off 1)

/-- A field out of range, if a test holds. -/
def badIf (c : Bool) (off : Nat) : Option Nat := if c then some off else none

/-- The first bad field. -/
def firstBad (l : List (Option Nat)) : Option Nat := l.findSome? id

def badDie (x : Asker) (off : Nat) : Option Nat := badIf (decide (7 < x.n off 1)) off

/-- A field outside a range. -/
def badRange (x : Asker) (off size lo hi : Nat) : Option Nat := badIf (decide (x.n off size < lo) || decide (hi < x.n off size)) off

/-- R90: a queue read: at most n records, oldest first, of those the requester may read; they are removed. -/
def takeRecs (may : List Word → Bool) : Nat → List (List Word) → List (List Word) × List (List Word)
  | _, [] => ([], [])
  | 0, q => ([], q)
  | n + 1, r :: q =>
    if may r then let (a, b) := takeRecs may n q; (r :: a, b)
    else let (a, b) := takeRecs may (n + 1) q; (a, r :: b)

/-- A record's words as one number. -/
def recNat (r : List Word) : Nat := r.foldr (fun w n => w.toNat + 2 ^ 64 * n) 0

/-- N (1), DROPPED (2), RECORD (size) × N. -/
def recReply (size : Nat) (rs : List (List Word)) (dropped : BitVec 16) : List Byte :=
  packBody ([(1, rs.length), (2, dropped.toNat)] ++ rs.map (fun r => (size, recNat r)))

/-- The VI field of a record's first word. -/
def recVi (lo : Nat) (r : List Word) : Nat := bits (r.headD 0).toNat lo 5

end Sys2Proof.Machine
end

