-- ==== Sys2Proof/Machine/HostIf.lean ====
section
/-! DEFINITION. What a host does at a function (R462 to R487, R499): window A with its registers, doorbells and MSI-X table, window B with its
reads, writes and AtomicOps, the ring fetcher, and the coalescing time. -/
set_option Elab.async false
namespace Sys2Proof.Machine

/-! ### Window A as it reads (R469 to R478) -/

/-- R470: KIND of a function. -/
def State.kindOf (s : State) (p v : Nat) : Nat := if v = 0 then 0 else if s.isPf p v then 2 else 1

/-- R470: the identity and revision register; the management bus reads it with KIND 7 and VI 0 (R502). -/
def State.idReg (s : State) (p kind v : Nat) : Nat :=
  let (major, minor) := match (s.pkg p).image with | some i => (i.major.toNat, i.minor.toNat) | none => (0, 0)
  0x9A7 * 2 ^ 52 + 0x820 * 2 ^ 40 + (Config.assembly p).toNat * 2 ^ 32 + (Config.stepping p).toNat * 2 ^ 24 + major * 2 ^ 16 + minor * 2 ^ 8 +
    kind * 2 ^ 5 + v

/-- R472: MB_STATUS. -/
def mbStatus (m : Mailbox) : Nat := m.seqDone.toNat * 2 ^ 48 + b2n m.dropped * 4 + b2n m.done * 2 + b2n m.owned

/-- Some die of a package holds a record that satisfies a test. -/
def State.anyRec (s : State) (p : Nat) (f : Die → Bool) : Bool := (List.range 8).any (fun i => f (s.die (p * 8 + i)))

/-- R476: NOTICE_SUMMARY of a function. -/
def State.noticeSummary (s : State) (p v : Nat) : Nat :=
  let x := s.vi p v
  let named (lo : Nat) (q : List (List Word)) : Bool := q.any (fun r => recVi lo r == v)
  let stopped := (List.range 16).foldl (fun n r => if (s.ring p v r).st == .stopped then n + 2 ^ (48 + r) else n) 0
  let marks := if v = 0 then (List.range 16).foldl (fun n k =>
      let w := tget (s.pkg p).watermarks k {}
      if !w.tc && w.count != 0 then n + 2 ^ (32 + k) else n) 0 else 0
  stopped + marks + b2n (s.anyRec p (fun d => named 43 d.threadFaults || named 43 d.memFaults || named 43 d.ledgerFaults)) * 2 ^ 31 +
    b2n (s.anyRec p (fun d => named 43 d.sigEvents)) * 2 ^ 30 + b2n (s.anyRec p (fun d => named 47 d.reports)) * 2 ^ 29 +
    b2n (!x.events.isEmpty) * 2 ^ 28 + min x.events.length 65535

/-- R478: the physical-function area. -/
def State.pfArea (s : State) (p off : Nat) : Nat :=
  let k := s.pkg p
  if off = 0x3000 then b2n (k.phase == .beacon) * 2 ^ 63 + k.beacon.toNat
  else if off = 0x3008 then k.capForce * 2 ^ 32 + k.inputMean % 65536
  else if off = 0x3010 then k.ledgerShown.toNat
  else if 0x3100 ≤ off ∧ off < 0x3200 then (s.vi p ((off - 0x3100) / 8)).energy.toNat
  else if off = 0x3200 then k.energyUn.toNat
  else 0

/-- R469: the word at a window A offset that is a multiple of 8.  After a package-fatal event only the identity register and the beacon
mirror answer (R471). -/
def State.windowWord (s : State) (p v off : Nat) : Nat :=
  let m := s.mb p v
  if off = 0 then s.idReg p (s.kindOf p v) v
  else if (s.pkg p).phase == .beacon then (if v = 0 ∧ off = 0x3000 then s.pfArea p off else 2 ^ 64 - 1)
  else if off = 0x100 then mbStatus m
  else if 0x400 ≤ off ∧ off < 0x500 then fld m.req (off - 0x400) 8
  else if 0x800 ≤ off ∧ off < 0x900 then fld m.rsp (off - 0x800) 8
  else if 0x1000 ≤ off ∧ off < 0x1080 then
    let g := s.ring p v ((off - 0x1000) / 8)
    g.head.toNat * 2 ^ 32 + g.tail.toNat
  else if off = 0x2000 then s.noticeSummary p v
  else if 0x2800 ≤ off ∧ off < 0x2C00 then (tget (s.vi p v).msixTable ((off - 0x2800) / 8) (if off % 16 = 0 then 0 else BitVec.ofNat 64 (2 ^ 32))).toNat
  else if off = 0x2C00 then (s.vi p v).msixPba.toNat
  else if 0x3000 ≤ off ∧ v = 0 then s.pfArea p off
  else 0

/-- R469: what a host reads in window A: naturally aligned accesses of 4 and 8 bytes. -/
def State.readA (s : State) (p v off size : Nat) : Nat :=
  if (size = 4 ∨ size = 8) ∧ off % size = 0 then s.windowWord p v (off / 8 * 8) / 2 ^ (off % 8 * 8) % 2 ^ (8 * size) else 0

/-! ### Window A as it is written -/

/-- R485: a TAIL write. -/
def State.doorbell (s : State) (p v r : Nat) (tail : BitVec 32) : State :=
  let g := s.ring p v r
  if !s.pkgUp p || (s.vi p v).st == .resetting || (s.vi p v).st == .disabled || g.st == .disabled then s
  else if decide (g.size < (tail - g.head).toNat) || decide ((tail - g.head).toNat < (g.tail - g.head).toNat) then
    s.event (p * 8 + s.portDie p v) v evRingOverrun (0x40 + r) tail.toNat
  else s.modRing p v r (fun g => { g with tail := tail })

/-- RING_DOORBELL_WRITE (R485). -/
def execRingDoorbellWrite (pkg : BitVec 8) (vi : BitVec 5) (ring : BitVec 4) (tail : BitVec 32) (s : State) : Out :=
  .next (s.doorbell pkg.toNat vi.toNat ring.toNat tail)

/-- A 64-bit register after a write of its low or high half, or of all of it. -/
def mergeHalf (old : Word) (off size : Nat) (val : Nat) : Word :=
  if size = 8 then BitVec.ofNat 64 val
  else if off % 8 = 0 then BitVec.ofNat 64 (old.toNat / 2 ^ 32 * 2 ^ 32 + val % 2 ^ 32)
  else BitVec.ofNat 64 (old.toNat % 2 ^ 32 + val % 2 ^ 32 * 2 ^ 32)

/-- R469: the MSI-X table; a vector that is pending when it is unmasked is sent (log 41). -/
def writeMsix (i off size val : Nat) (x : Vi) : Vi :=
  let old := tget x.msixTable i (if i % 2 = 0 then 0 else BitVec.ofNat 64 (2 ^ 32))
  let x := { x with msixTable := tset x.msixTable i (mergeHalf old off size val) }
  let vec := i / 2
  if !msixMasked x vec && bit x.msixPba.toNat vec then
    signalMsix vec { x with msixPba := x.msixPba &&& ~~~(BitVec.ofNat 64 (2 ^ vec)) }
  else x

/-- REGISTER_WRITE (R469, R471): writes of other sizes or alignments, to read-only and unlisted offsets, and in beacon phase are dropped. -/
def execRegisterWrite (pkg : BitVec 8) (vi : BitVec 5) (off : BitVec 14) (size : Nat) (val : BitVec 64) (s : State) : Out :=
  let p := pkg.toNat
  let v := vi.toNat
  let o := off.toNat
  let low := decide (o % 8 = 0)
  if !((size == 4 || size == 8) && o % size == 0) || (s.pkg p).phase == .beacon || (s.vi p v).st == .disabled then .next s
  else if o / 8 * 8 = 0x100 then .next (if low && val.getLsbD 2 then s.clearDropped p v else s)
  else if o / 8 * 8 = 0x108 then .next (if low && val.getLsbD 0 then s.go p v else s)
  else if 0x400 ≤ o ∧ o < 0x500 then .next (s.writeReq p v (o - 0x400) (leBytes size val.toNat))
  else if 0x1000 ≤ o ∧ o < 0x1080 then .next (if low then s.doorbell p v ((o - 0x1000) / 8) (val.truncate 32) else s)
  else if 0x2800 ≤ o ∧ o < 0x2C00 then .next (s.modVi p v (writeMsix ((o - 0x2800) / 8) o size val.toNat))
  else .next s

/-! ### Window B (R464, R467, R479 to R482) -/

/-- R464: the size of a function's window B. -/
def State.windowSize (s : State) (p v : Nat) : Nat :=
  if s.isPf p v then 2 ^ 36
  else match (s.pkg p).image with | some i => 2 ^ (30 + 2 * i.wbCode.toNat) | none => 2 ^ 36

/-- What window B says of an access. -/
structure WinB where
  tenant : Nat
  va : Nat
  unit : XUnit

/-- The access of a BOUND VI, inside its window, at a port whose die serves. -/
def State.winB (s : State) (p v woff n : Nat) : Option WinB :=
  let x := s.vi p v
  let d := p * 8 + s.portDie p v
  if s.dieUp d && x.st == .bound && decide (woff + n ≤ s.windowSize p v) then some ⟨x.tenant, x.wbBase + woff, .windowB p (s.portDie p v == 4)⟩
  else none

/-- R154: the cause in DETAIL. -/
def missCause (e : AccErr) : Nat := match e with | .rights => 2 | .foreign => 3 | .gone => 4 | _ => 1

/-- R481: FLT_WINDOW_MISS on the die of the function's port. -/
def State.winMiss (s : State) (v woff : Nat) (w : WinB) (cause : Nat) (write atomic : Bool) : State :=
  s.memFault w.unit.die { kind := 7, tenant := w.tenant, vi := v, pa := woff, detail := cause + b2n write * 16 + b2n atomic * 32 }

/-- What the host gets (R481). -/
def State.rdReturn (s : State) (p : Nat) (bytes : List Byte) (poison : Bool) : State :=
  s.modPkg p (fun k => { k with rdData := bytes, rdPoison := poison })

/-- The first refusal that the home dies of a translated range give, and the fault that goes with it. -/
def State.partsRefused (s : State) (d tenant : Nat) (parts : List (Nat × Nat)) : Option (AccErr × Option (Nat × Nat × Nat)) :=
  parts.findSome? (fun e => s.homeCheck d tenant e.1)

/-- The bytes of home memory in parts of lines. -/
def State.readParts (s : State) (tenant : Nat) (parts : List (Nat × Nat)) : List Byte × Option Nat × State :=
  parts.foldl (fun (acc : List Byte × Option Nat × State) e =>
    let s := ((acc.2.2.dramTouch e.1).chargeMem tenant e.1 e.2).ceFoundAt e.1
    (acc.1 ++ s.readPa e.1 e.2, (match acc.2.1 with | some w => some w | none => s.poisonIn e.1 e.2), s)) ([], none, s)

/-- WINDOW_B_READ (R480, R481). -/
def execWindowBRead (pkg : BitVec 8) (vi : BitVec 5) (woff : BitVec 36) (len : Nat) (s : State) : Out :=
  let p := pkg.toNat
  let v := vi.toNat
  let ones := List.replicate len (0xFF : Byte)
  match s.winB p v woff.toNat len with
  | none => .next (s.rdReturn p ones false)
  | some w =>
    match s.checkVa w.unit w.tenant v false w.va len (len / 128 + 2) with
    | (.inr e, s) => .next ((s.winMiss v woff.toNat w (missCause e) false false).rdReturn p ones false)
    | (.inl parts, s) =>
      match s.partsRefused w.unit.die w.tenant parts with
      | some (e, f) => .next (((s.accFault w.unit.die w.tenant v f).winMiss v woff.toNat w (missCause e) false false).rdReturn p ones false)
      | none =>
        let (bytes, bad, s) := s.readParts w.tenant parts
        match bad with
        | some a => .next ((s.memFault w.unit.die { kind := 3, tenant := w.tenant, vi := v, pa := a, detail := s.ueDetail a false }).rdReturn p bytes true)
        | none => .next (s.rdReturn p bytes false)

/-- Writes parts of lines at home: a partial write of an uncorrectable word lands and is reported (R129). -/
def State.writeParts (s : State) (d tenant v : Nat) : List (Nat × Nat) → List Byte → State
  | [], _ => s
  | (pa, k) :: r, b =>
    let s := (s.dramTouch pa).chargeMem tenant pa k
    let sel := List.replicate k true
    let bad := s.partialPoison pa sel sel
    let s := s.writeMasked pa ((b.take k).map (fun x => (true, x)))
    let s := match bad with
      | some a => s.memFault d { kind := 3, tenant := tenant, vi := v, pa := a, detail := s.ueDetail a true }
      | none => s
    s.writeParts d tenant v r (b.drop k)

/-- WINDOW_B_WRITE (R480, R481). -/
def execWindowBWrite (pkg : BitVec 8) (vi : BitVec 5) (woff : BitVec 36) (bytes : List (BitVec 8)) (s : State) : Out :=
  let p := pkg.toNat
  let v := vi.toNat
  let n := bytes.length
  match s.winB p v woff.toNat n with
  | none => .next s
  | some w =>
    match s.checkVa w.unit w.tenant v true w.va n (n / 128 + 2) with
    | (.inr e, s) => .next (s.winMiss v woff.toNat w (missCause e) true false)
    | (.inl parts, s) =>
      match s.partsRefused w.unit.die w.tenant parts with
      | some (e, f) => .next ((s.accFault w.unit.die w.tenant v f).winMiss v woff.toNat w (missCause e) true false)
      | none => .next (s.writeParts w.unit.die w.tenant v parts bytes)

/-- R467: an AtomicOp receives Unsupported Request. -/
def State.unsupportedReq (s : State) (p : Nat) : State := s.modPkg p (fun k => { k with unsupported := k.unsupported + 1 })

/-- R467: a FetchAdd or CAS of 4 or 8 bytes, as an atomic at the home die. -/
def State.winAtomic (s : State) (p v woff fn : Nat) (wide : Bool) (a b : Nat) : State :=
  let n := if wide then 8 else 4
  let ones := List.replicate n (0xFF : Byte)
  match s.winB p v woff n with
  | none => s.rdReturn p ones false
  | some w =>
    match s.xlat w.unit w.tenant v w.va with
    | (none, s) => (s.winMiss v woff w 1 false true).rdReturn p ones false
    | (some x, s) =>
      if paSpace x.pa = 1 then s.unsupportedReq p
      else if !entryWr x.entry then (s.winMiss v woff w 2 false true).rdReturn p ones false
      else
        match s.homeCheck w.unit.die w.tenant x.pa with
        | some (e, f) => ((s.accFault w.unit.die w.tenant v f).winMiss v woff w (missCause e) false true).rdReturn p ones false
        | none =>
          match s.amoAt w.tenant x.pa fn wide a b with
          | (.inl old, s) => s.rdReturn p (leBytes n old) false
          | (.inr (_, f), s) => (s.accFault w.unit.die w.tenant v f).rdReturn p ones f.isSome

/-- ATOMIC_FETCHADD (R467): AMO ADD. -/
def execAtomicFetchadd (pkg : BitVec 8) (vi : BitVec 5) (woff : BitVec 36) (wide : Bool) (val : BitVec 64) (s : State) : Out :=
  .next (s.winAtomic pkg.toNat vi.toNat woff.toNat 0 wide val.toNat 0)

/-- ATOMIC_CAS (R467): AMO CAS. -/
def execAtomicCas (pkg : BitVec 8) (vi : BitVec 5) (woff : BitVec 36) (wide : Bool) (cmp val : BitVec 64) (s : State) : Out :=
  .next (s.winAtomic pkg.toNat vi.toNat woff.toNat 7 wide val.toNat cmp.toNat)

/-- ATOMIC_UNSUPPORTED (R467): Swap, 128-bit CAS, and any AtomicOp to a section in yard SRAM. -/
def execAtomicUnsupported (pkg : BitVec 8) (_ : BitVec 5) (_ : BitVec 36) (_ : AtomicKind) (s : State) : Out :=
  .next (s.unsupportedReq pkg.toNat)

/-! ### The ring fetcher (R487) -/

/-- How many commands a ring's next fetch reads. -/
def fetchCount (g : Ring) : Nat := if g.st == .running then min (8 - g.held.length) (g.tail - g.fetch).toNat else 0

/-- The VIs and rings of a port that have something to fetch. -/
def State.fetchable (s : State) (p : Nat) (die4 : Bool) : List (Nat × Nat × Ring) :=
  ((s.pkg p).vis.map (fun e =>
    if (s.portDie p e.1 == 4) == die4 && e.2.st == .bound then
      (e.2.rings.filter (fun g => fetchCount g.2 != 0)).map (fun g => (e.1, g.1, g.2))
    else [])).flatten

/-- The first of some numbers after a last one, in a circle of n. -/
def nextAfter (n last : Nat) (l : List Nat) : Nat :=
  ((List.range n).map (fun i => (last + 1 + i) % n)).find? (fun i => l.contains i) |>.getD 0

/-- R487: FETCHCLASS, then round robin among VIs, then among that VI's rings. -/
def State.fetchPick (s : State) (p : Nat) (die4 : Bool) : Option (Nat × Nat × Ring) :=
  let l := s.fetchable p die4
  match minBy (fun (a b : Nat × Nat × Ring) => decide (a.2.2.fetchCls < b.2.2.fetchCls)) l with
  | none => none
  | some best =>
    let l := l.filter (fun e => e.2.2.fetchCls == best.2.2.fetchCls)
    let v := nextAfter 32 (if die4 then (s.pkg p).lastVi4 else (s.pkg p).lastVi) (l.map (·.1))
    let l := l.filter (fun e => e.1 == v)
    let r := nextAfter 16 (s.vi p v).lastRing (l.map (·.2.1))
    l.find? (fun e => e.2.1 == r)

/-- R32, R61, R487, R489: a command as it is accepted: its class at most as urgent as the ceiling, its absolute deadline, and the dies of
its mask in service. -/
def State.accepted (s : State) (p v : Nat) (idx : BitVec 32) (w : List Word) (order : Nat) : RCmd :=
  let w0 := (w.getD 0 0).toNat
  let rel := bits w0 0 24
  let mask := bits (w.getD 3 0).toNat 56 8
  { idx := idx, w := w, cls := max (min (bits w0 54 2) 2) (s.vi p v).ceiling,
    deadline := (s.pkg p).tick + tickUs * (if rel = 0 then 0xFFFFFF else rel),
    dies := if [1, 2, 5, 10, 11].contains (bits w0 56 8) then (List.range 8).filter (fun i => bit mask i && s.dieUp (p * 8 + i)) else [],
    order := order }

/-- RING_FETCH (R487): one fetch read, of up to 8 commands. -/
def execRingFetch (pkg : BitVec 8) (pdie : Bool) (s : State) : Out :=
  let p := pkg.toNat
  let d := p * 8 + (if pdie then 4 else 0)
  if !s.dieUp d || !(if pdie then (s.pkg p).link4 else (s.pkg p).link0) then .next s
  else
    match s.fetchPick p pdie with
    | none => .next s
    | some (v, r, g) =>
      let n := fetchCount g
      let first := (s.vi p v).nextOrder
      let cmds := (List.range n).map (fun i =>
        let idx := g.fetch + BitVec.ofNat 32 i
        let b := s.hostRead p (g.cmdBase.toNat + 64 * (idx.toNat % g.size)) 64
        s.accepted p v idx (wordsOf b 8) (first + i))
      let s := s.modPkg p (fun k => if pdie then { k with lastVi4 := v } else { k with lastVi := v })
      let s := s.modVi p v (fun x => { x with lastRing := r, nextOrder := first + n })
      .next (s.modRing p v r (fun g => { g with held := g.held ++ cmds, fetch := g.fetch + BitVec.ofNat 32 n }))

/-- COALESCE_TIMER (R499): the coalescing time has passed since the first unsignalled entry. -/
def execCoalesceTimer (pkg : BitVec 8) (vi : BitVec 5) (ring : BitVec 4) (s : State) : Out :=
  let p := pkg.toNat
  let v := vi.toNat
  let r := ring.toNat
  let g := s.ring p v r
  if s.linkUp p v && decide (0 < g.unsignalled) && after (s.pkg p).tick g.firstUnsig (g.ctime * tickUs) then
    .next ((s.modRing p v r (fun g => { g with unsignalled := 0 })).msix p v (2 + r))
  else .next s

end Sys2Proof.Machine
end

