-- ==== Sys2Proof/Machine/MsgVi.lean ====
section
/-! DEFINITION. The messages of the ID, VI and SECTION classes (R133, R135, R138, R401 to R406, R410, R415 to R417, R518 to R521). -/
set_option Elab.async false
namespace Sys2Proof.Machine

/-! ### ID (R518) -/

/-- STATE of a VI as IDENTIFY and QUERY code it. -/
def viCode (x : ViState) : Nat := match x with | .bound => 1 | .resetting => 2 | _ => 0

def msgIdentify : Msg where
  cls := 1
  code := 1
  relay := true
  rights := rAny
  perform := fun s x =>
    let k := s.pkg x.p
    let tc := x.b = tcBox
    let (machine, racks) := match k.image with | some i => (i.machine.toNat, i.racks) | none => (0, 0)
    let up := (s.upDies x.p).foldl (fun m i => m + 2 ^ i) 0
    answerOk s (packBody ([(8, if tc then s.idReg x.p 7 0 else s.idReg x.p (s.kindOf x.p x.b) x.b), (1, mkPkg k.rack k.tray k.slot),
      (1, if tc then 0xFF else viCode (s.vi x.p x.b).st), (1, b2n k.lead), (1, racks),
      (2, if tc then 0 else (s.vi x.p x.b).tenant), (1, up), (2, k.epoch.toNat), (2, machine), (1, k.central.getD 0xFF)] ++
      (List.range 8).map (fun i => (1, (s.die (x.p * 8 + i)).epoch.toNat))))

/-- IDENTIFY (R518). -/
def execIdentify (pkg : BitVec 8) (mb : BitVec 6) (s : State) : Out := performMsg msgIdentify pkg mb s

def msgPosition : Msg where
  cls := 1
  code := 2
  relay := true
  rights := rAny
  perform := fun s x =>
    let k := s.pkg x.p
    answerOk s (packBody [(1, k.rack), (1, k.tray), (1, k.slot), (1, b2n k.clean), (1, b2n k.boot), (1, b2n (s.x8x8 x.p))])

/-- POSITION (R518, R535). -/
def execPosition (pkg : BitVec 8) (mb : BitVec 6) (s : State) : Out := performMsg msgPosition pkg mb s

/-! ### BIND (R402 to R404, R519, R540 to R542) -/

/-- The fields of a BIND. -/
structure BindReq where
  vi : Nat
  ceiling : Nat
  scrub : Bool
  tenant : Nat
  tokens : Nat
  pool : Nat

def bindReq (x : Asker) : BindReq := ⟨x.n 0 1, min (x.n 1 1) 2, x.n 2 1 == 1, x.n 4 2, x.n 6 2, x.n 8 2⟩

/-- R414: a die lacks the units that a share needs. -/
def State.lacks (s : State) (p : Nat) (q : BindReq) : Bool :=
  (List.range 8).any (fun i => decide (s.unalloc 4 (p * 8 + i) < q.tokens) || decide (s.unalloc 5 (p * 8 + i) < q.pool))

/-- Units granted from the unallocated count (R415 step 3). -/
def State.grantUnits (s : State) (ledger d v n : Nat) : State :=
  let x := s.share ledger d v
  ((s.setShare ledger d v { x with share := x.share + n }).setUnalloc ledger d (s.unalloc ledger d - n)).auditDue ledger d

/-- R401, R404, R461, R479: the VI is BOUND: its sections start empty, WB_BASE and its energy are 0. -/
def State.bindVi (s : State) (p : Nat) (q : BindReq) : State :=
  let s := (List.range 8).foldl (fun s i => (s.grantUnits 4 (p * 8 + i) q.vi q.tokens).grantUnits 5 (p * 8 + i) q.vi q.pool) s
  s.modVi p q.vi (fun x => { x with
    st := .bound, tenant := q.tenant, ceiling := q.ceiling, scrub := q.scrub, wbBase := 0, trapPc := 0, timeoutUs := 10000, rings := [],
    rUnbind := false, rDisable := false, rStep := 0, binding := none, energy := 0, energyFj := 0 })

/-- R403: the central station's answer is known. -/
def State.bindEnds (s : State) (p : Nat) (q : BindReq) (ok : Bool) : State × Nat :=
  let s := s.modVi p q.vi (fun x => { x with binding := none })
  if !ok then (s, stsNoRight)
  else if (s.vi p q.vi).st != .free || s.lacks p q then (s.unbindCentral p q.vi q.tenant, stsUnattainable)
  else (s.bindVi p q, stsOk)

/-- R540, R542, R544: a bind must wait for a central station that the package reaches, and for a map that includes the package. -/
def State.bindWaits (s : State) (p : Nat) : Bool :=
  match (s.pkg p).central with
  | none => true
  | some c => (mapReg (s.die (headDie p)).map p).isNone || (c != p && !s.reaches p c)

def msgBind : Msg where
  cls := 2
  code := 1
  rights := rPf
  retry := fun s x =>
    let v := s.vi x.p (x.n 0 1)
    v.st == .resetting || v.binding.isSome || (!s.keptDark x.p && s.bindWaits x.p)
  bad := fun s x => firstBad [badIf (decide (31 < x.n 0 1) || (s.vi x.p (x.n 0 1)).st != .free) 0, badRange x 1 1 0 3, badRange x 2 1 0 1,
    badRange x 4 2 1 4095, badRange x 6 2 0 1024, badRange x 8 2 0 16384]
  gone := fun s x => if s.keptDark x.p then 0xFF else 0
  perform := fun s x =>
    let q := bindReq x
    match (s.pkg x.p).central with
    | none => .answer s stsRetry 0 []
    | some c =>
      if c = x.p then
        let held := (s.pkg c).bindings.contains (x.p * 4096 + q.tenant)
        let s := if held then s else s.modPkg c (fun k => { k with bindings := k.bindings ++ [x.p * 4096 + q.tenant] })
        let (s, st) := s.bindEnds x.p q (!held)
        .answer s st 0 []
      else
        let s := s.modVi x.p q.vi (fun v => { v with binding := some (q.ceiling, b2n q.scrub, q.tenant, q.tokens, q.pool) })
        .wait (s.post (s.mgmt (headDie x.p) (headDie c) (.mgmt (.bindAsk (BitVec.ofNat 5 q.vi) (BitVec.ofNat 12 q.tenant))))) (.bind q.vi)

/-- VI_BIND (R402, R403, R519). -/
def execViBind (pkg : BitVec 8) (mb : BitVec 6) (s : State) : Out := performMsg msgBind pkg mb s

/-! ### UNBIND, RESET, MOVE, CEILING, WINDOW, TRAP, QUERY (R519) -/

/-- A field that names a VI which is BOUND. -/
def badBound (s : State) (x : Asker) (off : Nat) : Option Nat := badIf (decide (31 < x.n off 1) || (s.vi x.p (x.n off 1)).st != .bound) off

/-- The named VI is resetting (R508: the object is changing state). -/
def viResetting (off : Nat) : State → Asker → Bool := fun s x => (s.vi x.p (x.n off 1)).st == .resetting

def msgUnbind : Msg where
  cls := 2
  code := 2
  rights := rPf
  retry := viResetting 0
  bad := fun s x => badBound s x 0
  perform := fun s x =>
    let v := x.n 0 1
    let s := if v = 0 then s.resetFunction x.p 0 (s.vi x.p v).scrub true else s.startReset x.p v (s.vi x.p v).scrub true false
    if v = x.b then .silent s else .wait s (.viReturn v)

/-- VI_UNBIND (R406, R410, R519). -/
def execViUnbind (pkg : BitVec 8) (mb : BitVec 6) (s : State) : Out := performMsg msgUnbind pkg mb s

def msgReset : Msg where
  cls := 2
  code := 3
  rights := fun s x => x.isPf || (s.ownsVi x && x.n 0 1 == x.b)
  retry := viResetting 0
  bad := fun s x => firstBad [badIf (x.n 0 1 != 0) 0 |>.bind (fun _ => badBound s x 0), badRange x 1 1 0 2]
  perform := fun s x =>
    let v := x.n 0 1
    let scrub := s.scrubChoice x.p v (x.n 1 1)
    let s := if v = 0 then s.resetFunction x.p 0 scrub false else s.startReset x.p v scrub false false
    if v = x.b then .silent (s.resetMailbox x.p v) else .wait s (.viReturn v)

/-- VI_RESET_MESSAGE (R406, R410, R519). -/
def execViResetMessage (pkg : BitVec 8) (mb : BitVec 6) (s : State) : Out := performMsg msgReset pkg mb s

/-- R415: n units of a ledger move on a die; 255 stands for the unallocated count. -/
def State.moveUnits (s : State) (ledger d frm dest n : Nat) : State :=
  if n = 0 then s
  else if frm = 255 then (s.grantUnits ledger d dest n).event d 0 evBooksGranted noUnit (ledger + dest * 16)
  else
    let x := s.share ledger d frm
    let now := min n (x.share - x.held)
    let s := s.setShare ledger d frm { x with share := x.share - now, withdraw := n - now, gain := if dest = 255 then 32 else dest, units := n }
    let s := s.giveUnalloc ledger d now
    if n = now then s.grantShare ledger d frm else s

/-- What FROM has of a ledger on a die. -/
def State.unitsOf (s : State) (ledger d frm : Nat) : Nat := if frm = 255 then s.unalloc ledger d else (s.share ledger d frm).share

def msgMove : Msg where
  cls := 2
  code := 4
  rights := rPf
  retry := fun s x => (List.range 8).any (fun i => bit (x.n 1 1) i &&
    [x.n 2 1, x.n 3 1].any (fun v => decide (v < 32) && (s.share (x.n 0 1) (x.p * 8 + i) v).withdraw != 0))
  bad := fun s x =>
    let side (off : Nat) : Option Nat := if x.n off 1 = 255 then none else badBound s x off
    firstBad [badRange x 0 1 4 5, side 2, side 3, badIf (x.n 2 1 == x.n 3 1) 3,
      badIf ((List.range 8).any (fun i => bit (x.n 1 1) i && s.dieUp (x.p * 8 + i) && decide (s.unitsOf (x.n 0 1) (x.p * 8 + i) (x.n 2 1) < x.n 4 2))) 4]
  gone := fun s x => s.goneMask x.p (x.n 1 1)
  perform := fun s x =>
    answerOk ((List.range 8).foldl (fun s i => if bit (x.n 1 1) i then s.moveUnits (x.n 0 1) (x.p * 8 + i) (x.n 2 1) (x.n 3 1) (x.n 4 2) else s) s) []

/-- VI_MOVE (R415 to R417, R519). -/
def execViMove (pkg : BitVec 8) (mb : BitVec 6) (s : State) : Out := performMsg msgMove pkg mb s

def msgCeiling : Msg where
  cls := 2
  code := 5
  rights := rPf
  retry := viResetting 0
  bad := fun s x => firstBad [badBound s x 0, badRange x 1 1 0 3]
  perform := fun s x => answerOk (s.modVi x.p (x.n 0 1) (fun v => { v with ceiling := min (x.n 1 1) 2 })) []

/-- VI_CEILING (R32, R519). -/
def execViCeiling (pkg : BitVec 8) (mb : BitVec 6) (s : State) : Out := performMsg msgCeiling pkg mb s

def msgWindow : Msg where
  cls := 2
  code := 6
  rights := rOwn
  bad := fun s x => badIf (x.n 0 8 % 2 ^ 25 != 0 || decide (2 ^ 48 < x.n 0 8 + s.windowSize x.p x.b)) 0
  perform := fun s x => answerOk (s.modVi x.p x.b (fun v => { v with wbBase := x.n 0 8 })) []

/-- VI_WINDOW (R479, R519). -/
def execViWindow (pkg : BitVec 8) (mb : BitVec 6) (s : State) : Out := performMsg msgWindow pkg mb s

def msgTrap : Msg where
  cls := 2
  code := 7
  rights := rOwn
  bad := fun _ x => badIf (x.n 0 8 % 8 != 0 || decide (2 ^ 48 ≤ x.n 0 8)) 0
  perform := fun s x => answerOk (s.modVi x.p x.b (fun v => { v with trapPc := BitVec.ofNat 48 (x.n 0 8) })) []

/-- VI_TRAP (R121, R519). -/
def execViTrap (pkg : BitVec 8) (mb : BitVec 6) (s : State) : Out := performMsg msgTrap pkg mb s

/-- R130: YARD_TENANT_BASE of a die. -/
def yardTenantBase (x : Die) : Nat := 4096 * rhSize x + 12 * 2 ^ 20

def msgQuery : Msg where
  cls := 2
  code := 8
  rights := fun _ x => x.isPf || (!x.isTc && x.n 0 1 == x.b)
  bad := fun _ x => badRange x 0 1 0 31
  perform := fun s x =>
    let v := x.n 0 1
    let w := s.vi x.p v
    let h := s.die (headDie x.p)
    -- STATE of a DISABLED VI is not stated: a free value (log 42)
    let (st, s) := if w.st = .disabled then (let (f, s) := s.draw; (f.toNat % 256, s)) else (viCode w.st, s)
    answerOk s (packBody ([(1, st), (1, w.ceiling), (1, b2n w.scrub), (2, w.tenant), (8, w.wbBase), (8, w.trapPc.toNat), (4, 0), (4, rhSize h),
      (4, yardTenantBase h)] ++ (List.range 8).map (fun i => (2, (s.share 4 (x.p * 8 + i) v).share)) ++
      (List.range 8).map (fun i => (2, (s.share 5 (x.p * 8 + i) v).share))))

/-- VI_QUERY (R519). -/
def execViQuery (pkg : BitVec 8) (mb : BitVec 6) (s : State) : Out := performMsg msgQuery pkg mb s

/-! ### SECTION (R133 to R138, R520, R521) -/

/-- The sections that a request names, and what lies out of range. -/
def Asker.secs (x : Asker) : List Nat := (List.range (x.n 4 2)).map (fun i => x.n 0 4 + i)
def badSecs (x : Asker) (most : Nat) : List (Option Nat) := [badIf (decide (2 ^ 23 < x.n 0 4 + max 1 (x.n 4 2))) 0, badRange x 4 2 1 most]

/-- Entry i of a MAP: ENTRY with PBASE + i, its reserved bits 0. -/
def mapEntry (x : Asker) (i : Nat) : SectionEntry :=
  let e := x.n 8 8
  BitVec.ofNat 64 (bits e 38 26 * 2 ^ 38 + (bits e 0 27 + i) % 2 ^ 27)

/-- R135: a mapping that is refused with BAD_ARG. -/
def State.badEntry (s : State) (p : Nat) (e : SectionEntry) : Bool :=
  let pa := entryPbase e * 2 ^ 25
  let lo := paOff pa + entryYbase e * 2 ^ 16
  !(s.inMachine p (diePkg (paDie pa))) ||
  (if paSpace pa = 0 then decide (dramSize ≤ paOff pa) || entryYlen e != 0 || entryYbase e != 0
   else if paSpace pa = 1 then
     entryYlen e == 0 || paOff pa != 0 || decide (lo < yardTenantBase (s.die (paDie pa))) || decide (yardSize < lo + entryYlen e * 2 ^ 16)
   else true)

/-- R26, R403: the tenant holds a VI on a package, by the central station's record; while none is known, only the package's own VIs count. -/
def State.holdsVi (s : State) (p tenant q : Nat) : Bool :=
  match (s.pkg p).central with
  | some c => (s.pkg c).bindings.contains (q * 4096 + tenant)
  | none => q == p && (s.pkg p).vis.any (fun v => v.2.tenant == tenant && (v.2.st == .bound || v.2.st == .resetting))

/-- R26, R135, R403: a mapping that is refused with NO_RIGHT: no VI of the tenant there, or a range of another tenant. -/
def State.foreignEntry (s : State) (p tenant : Nat) (e : SectionEntry) : Bool :=
  !s.holdsVi p tenant (diePkg (paDie (entryPbase e * 2 ^ 25))) ||
  (entryRanges e).any (fun r => let o := tget (s.die r.1).owner r.2 0; o != 0 && o != tenant)

/-- R133: level-1 entries that a MAP needs and the VI has no table for. -/
def State.newTables (s : State) (p v : Nat) (secs : List Nat) : List Nat :=
  ((secs.map (fun n => v * 2048 + n / 4096)).eraseDups).filter (fun k => !thas (s.pkg p).l2 k)

/-- R133: a table of the pool of 240 that no VI holds. -/
def freeTable (l2 : Tab Nat) : Nat := ((List.range 240).find? (fun n => l2.all (fun e => e.2 != n))).getD 0

/-- The valid entries of a VI's sections. -/
def State.oldEntries (s : State) (p v : Nat) (secs : List Nat) : List SectionEntry :=
  (secs.filterMap (fun n => tget? (s.pkg p).sections (v * 2 ^ 23 + n))).filter entryV

/-- Signal requests go by handle, tickets by die and partials to the partial pool: no section entry translates them. -/
def translated (k : OKind) : Bool :=
  match k with
  | .fill .. => true
  | .uload _ => true
  | .ufetch .. => true
  | .ulane .. => true
  | .uwalk .. => true
  | .wb .. => true
  | .store _ => true
  | .amo .. => true
  | .unitWrite .. => true
  | .partial_ .. => false
  | .sigPost .. => false
  | .sigRead _ => false
  | .sigWait _ => false
  | .sigSetCmd _ => false
  | .ringSig .. => false
  | .travel _ => false
  | .tquery _ => false
  | .cancel => false
  | .abandoned => true

/-- R138: a VI's requests that are out under section entries, as die * 4096 + tag. -/
def State.tagsOf (s : State) (p tenant v : Nat) : List Nat :=
  ((List.range 8).map (fun i => ((s.die (p * 8 + i)).outst.filter (fun e => ofTenant tenant v e.2 && translated e.2.kind)).map (fun e => (p * 8 + i) * 4096 + e.1))).flatten

/-- R138, R160: the caches write back and drop the lines of old STABLE sections; the reply waits for the requests that are out. -/
def State.sectionsChanged (s : State) (x : Asker) (old : List SectionEntry) : MsgOut :=
  if old.isEmpty then answerOk s []
  else
    let ranges := (old.map entryRanges).flatten
    let s := s.purgeRanges x.p ((old.filter entryStable).map entryRanges).flatten
    .wait s (.sections ranges (s.tagsOf x.p (s.vi x.p x.b).tenant x.b))

/-- R132, R138: the entries written, in all copies. -/
def State.writeSections (s : State) (x : Asker) : State :=
  let p := x.p
  let v := x.b
  let t := (s.vi p v).tenant
  let s := (s.newTables p v x.secs).foldl (fun s k => s.modPkg p (fun y => { y with l2 := tset y.l2 k (freeTable y.l2) })) s
  let s := (x.secs.zipIdx).foldl (fun s e =>
    let en := mapEntry x e.2
    let s := s.modPkg p (fun y => { y with sections := tset y.sections (v * 2 ^ 23 + e.1) en })
    (entryRanges en).foldl (fun s r => s.modDie r.1 (fun y => { y with owner := tset y.owner r.2 t })) s) s
  (s.copyAll p).keepLa p (fun e => !(e.tenant == t && x.secs.contains e.section_))

def msgMap : Msg where
  cls := 3
  code := 1
  bad := fun s x => firstBad (badSecs x 64 ++ [badIf (!bit (x.n 8 8) 63) 8, badIf (bits (x.n 8 8) 23 4 == 1 && decide (1 < x.n 4 2)) 4,
    badIf ((List.range (x.n 4 2)).any (fun i => s.badEntry x.p (mapEntry x i))) 8])
  rights := fun s x => s.ownsVi x && (List.range (x.n 4 2)).all (fun i => !s.foreignEntry x.p (s.vi x.p x.b).tenant (mapEntry x i))
  gone := fun s x => ((List.range (x.n 4 2)).map (fun i => paDie (entryPbase (mapEntry x i) * 2 ^ 25))).eraseDups.foldl (fun m d =>
    if s.dieUp d && s.reached (headDie x.p) d then m else m ||| 2 ^ dieNo d) 0
  perform := fun s x =>
    if 240 < (s.pkg x.p).l2.length + (s.newTables x.p x.b x.secs).length then .answer s stsUnattainable 0 []
    else
      let old := s.oldEntries x.p x.b x.secs
      (s.writeSections x).sectionsChanged x old

/-- SECTION_MAP (R132, R135, R138, R520, R521). -/
def execSectionMap (pkg : BitVec 8) (mb : BitVec 6) (s : State) : Out := performMsg msgMap pkg mb s

def msgUnmap : Msg where
  cls := 3
  code := 2
  rights := rOwn
  bad := fun _ x => firstBad (badSecs x 64)
  perform := fun s x =>
    let old := s.oldEntries x.p x.b x.secs
    (((s.dropSections x.p x.b x.secs).trimL2 x.p x.b).copyAll x.p).sectionsChanged x old

/-- SECTION_UNMAP (R133, R138, R520). -/
def execSectionUnmap (pkg : BitVec 8) (mb : BitVec 6) (s : State) : Out := performMsg msgUnmap pkg mb s

def msgSecRead : Msg where
  cls := 3
  code := 3
  rights := rOwn
  bad := fun _ x => firstBad (badSecs x 30)
  perform := fun s x => answerOk s (packBody (x.secs.map (fun n => (8, (tget (s.pkg x.p).sections (x.b * 2 ^ 23 + n) 0).toNat))))

/-- SECTION_READ (R520). -/
def execSectionRead (pkg : BitVec 8) (mb : BitVec 6) (s : State) : Out := performMsg msgSecRead pkg mb s

def msgTables : Msg where
  cls := 3
  code := 4
  rights := rOwn
  perform := fun s x =>
    let l2 := (s.pkg x.p).l2
    answerOk s (packBody [(2, 240 - l2.length), (2, (l2.filter (fun e => e.1 / 2048 == x.b)).length)])

/-- SECTION_TABLES (R133, R520). -/
def execSectionTables (pkg : BitVec 8) (mb : BitVec 6) (s : State) : Out := performMsg msgTables pkg mb s

end Sys2Proof.Machine
end

