-- ==== Sys2Proof/Machine/MsgRing.lean ====
section
/-! DEFINITION. The messages of the RING and SIGNAL classes (R314, R315, R331, R337, R339, R342, R483, R495, R522, R523). -/
set_option Elab.async false
namespace Sys2Proof.Machine

/-! ### RING (R522) -/

/-- The ring that a message names is idle: HEAD = TAIL and no command held. -/
def idleRing (g : Ring) : Bool := g.head == g.tail && g.held.isEmpty

def Asker.ring (x : Asker) (s : State) : Ring := s.ring x.p x.b (x.n 0 1)
def badRing (x : Asker) : Option Nat := badRange x 0 1 0 15

def powerOfTwo (n : Nat) : Bool := (List.range 17).any (fun i => 2 ^ i == n)

def msgConfigure : Msg where
  cls := 4
  code := 1
  rights := rOwn
  retry := fun s x => let g := x.ring s; g.st != .disabled && !idleRing g
  bad := fun _ x => firstBad [badRing x, badRange x 1 1 0 2, badRange x 2 1 1 64,
    badIf (decide (x.n 4 4 < 64) || decide (65536 < x.n 4 4) || !powerOfTwo (x.n 4 4)) 4, badRange x 8 4 0 1000,
    badIf (x.n 16 8 % 4096 != 0) 16, badIf (x.n 24 8 % 4096 != 0) 24]
  perform := fun s x => answerOk (s.modRing x.p x.b (x.n 0 1) (fun _ =>
    { ({} : Ring) with st := .running, fetchCls := x.n 1 1, ccount := x.n 2 1, size := x.n 4 4, ctime := x.n 8 4,
                       cmdBase := BitVec.ofNat 64 (x.n 16 8), cplBase := BitVec.ofNat 64 (x.n 24 8) })) []

/-- RING_CONFIGURE (R483, R522). -/
def execRingConfigure (pkg : BitVec 8) (mb : BitVec 6) (s : State) : Out := performMsg msgConfigure pkg mb s

def msgResume : Msg where
  cls := 4
  code := 2
  rights := rOwn
  bad := fun _ x => badRing x
  perform := fun s x =>
    answerOk (if (x.ring s).st == .stopped then s.modRing x.p x.b (x.n 0 1) (fun g => { g with st := .running }) else s) []

/-- RING_RESUME (R495, R522). -/
def execRingResume (pkg : BitVec 8) (mb : BitVec 6) (s : State) : Out := performMsg msgResume pkg mb s

/-- R491, R495: the result word of an aborted command. -/
def abortedResult (opcode : Nat) : Word := if [3, 4, 5, 6, 7].contains opcode then refusedResult opcode else ringResult 3 4 0 0

/-- R495: every waiting command and every command up to TAIL completes as REFUSED; the ring is RUNNING. -/
def State.abortRing (s : State) (p v r : Nat) : State :=
  let g := s.ring p v r
  let n := (g.tail - g.fetch).toNat
  let first := (s.vi p v).nextOrder
  let rest := (List.range n).map (fun i =>
    let idx := g.fetch + BitVec.ofNat 32 i
    s.accepted p v idx (wordsOf (s.hostRead p (g.cmdBase.toNat + 64 * (idx.toNat % g.size)) 64) 8) (first + i))
  let s := s.modVi p v (fun x => { x with nextOrder := first + n })
  let held := (g.held ++ rest).map (fun k =>
    if k.started || k.result.isSome then k else { k with started := true, result := some (3, abortedResult k.opcode) })
  let out := (g.held.filter (fun k => !k.started && k.result.isNone) ++ rest).map (·.idx)
  let s := s.modRing p v r (fun g => { g with held := held, fetch := g.tail, st := .running })
  out.foldl (fun s i => s.writeEntryAs ⟨BitVec.ofNat 8 p, BitVec.ofNat 5 v, BitVec.ofNat 4 r, i⟩ false) s

def msgAbort : Msg where
  cls := 4
  code := 3
  rights := rOwn
  bad := fun _ x => badRing x
  perform := fun s x =>
    if (x.ring s).st == .disabled then answerOk s [] else .wait (s.abortRing x.p x.b (x.n 0 1)) (.abort (x.n 0 1))

/-- RING_ABORT (R495, R522). -/
def execRingAbort (pkg : BitVec 8) (mb : BitVec 6) (s : State) : Out := performMsg msgAbort pkg mb s

def msgDisable : Msg where
  cls := 4
  code := 4
  rights := rOwn
  retry := fun s x => !idleRing (x.ring s)
  bad := fun _ x => badRing x
  perform := fun s x => answerOk (s.modRing x.p x.b (x.n 0 1) (fun g => { g with st := .disabled })) []

/-- RING_DISABLE (R522). -/
def execRingDisable (pkg : BitVec 8) (mb : BitVec 6) (s : State) : Out := performMsg msgDisable pkg mb s

def msgCoalesce : Msg where
  cls := 4
  code := 5
  rights := rOwn
  bad := fun _ x => firstBad [badRing x, badRange x 1 1 1 64, badRange x 4 4 0 1000]
  perform := fun s x => answerOk (s.modRing x.p x.b (x.n 0 1) (fun g => { g with ccount := x.n 1 1, ctime := x.n 4 4 })) []

/-- RING_COALESCE (R483, R522). -/
def execRingCoalesce (pkg : BitVec 8) (mb : BitVec 6) (s : State) : Out := performMsg msgCoalesce pkg mb s

def ringCode (g : RingState) : Nat := match g with | .disabled => 0 | .running => 1 | .stopped => 2

def msgRingQuery : Msg where
  cls := 4
  code := 6
  rights := rOwn
  bad := fun _ x => badRing x
  perform := fun s x =>
    let g := x.ring s
    answerOk s (packBody [(1, ringCode g.st), (1, g.held.length), (4, g.head.toNat), (4, g.tail.toNat), (4, g.fetch.toNat), (4, g.size),
      (8, g.cmdBase.toNat), (8, g.cplBase.toNat)])

/-- RING_QUERY (R522). -/
def execRingQuery (pkg : BitVec 8) (mb : BitVec 6) (s : State) : Out := performMsg msgRingQuery pkg mb s

/-! ### SIGNAL (R523) -/

/-- R314: the pool signals of a die that nobody owns, the lowest n. -/
def freeSignals (x : Die) (n : Nat) : List Nat := ((List.range 16384).filter (fun i => (tget x.signals i {}).owner == 0)).take n

def msgAlloc : Msg where
  cls := 5
  code := 1
  rights := rOwn
  bad := fun _ x => firstBad [badDie x 0, badRange x 1 1 1 30]
  gone := goneAt 0
  perform := fun s x =>
    let d := x.die 0
    let n := x.n 1 1
    let sh := s.share 5 d x.b
    let free := freeSignals (s.die d) n
    if sh.withdraw ≠ 0 ∨ sh.share < sh.held + n ∨ free.length < n then .answer s stsUnattainable 0 []
    else
      let t := (s.vi x.p x.b).tenant
      let s := s.modDie d (fun y => { y with signals := free.foldl (fun g i => tset g i { ({} : Signal) with owner := t }) y.signals })
      let s := s.setShare 5 d x.b { sh with held := sh.held + n }
      answerOk s (packBody (free.map (fun i => (8, (mkHandle 1 (s.die d).epoch.toNat d i).toNat))))

/-- SIGNAL_ALLOC (R314, R523). -/
def execSignalAlloc (pkg : BitVec 8) (mb : BitVec 6) (s : State) : Out := performMsg msgAlloc pkg mb s

/-- R315, R523: a handle of the VI's own pool signals on the package, at its die's present epoch. -/
def State.ownsSignal (s : State) (p v : Nat) (h : Word) : Bool :=
  handleValid h && hKind h == 1 && diePkg (hDie h) == p && s.dieUp (hDie h) && hEpoch h == (s.die (hDie h)).epoch &&
  (s.signal (hDie h) (hKey h)).owner == (s.vi p v).tenant

def msgFree : Msg where
  cls := 5
  code := 2
  rights := rOwn
  bad := fun _ x => firstBad [badIf (decide (x.body.length < 8 + 8 * x.n 0 1)) headerFault, badRange x 0 1 1 29]
  perform := fun s x =>
    let (s, n) := (List.range (x.n 0 1)).foldl (fun (acc : State × Nat) i =>
      let h : Word := BitVec.ofNat 64 (x.n (8 + 8 * i) 8)
      if acc.1.ownsSignal x.p x.b h then (acc.1.freePool (hDie h) (hKey h) x.b, acc.2 + 1) else acc) (s, 0)
    answerOk s (packBody [(1, n)])

/-- SIGNAL_FREE (R315, R523). -/
def execSignalFree (pkg : BitVec 8) (mb : BitVec 6) (s : State) : Out := performMsg msgFree pkg mb s

def msgTimeout : Msg where
  cls := 5
  code := 3
  rights := rOwn
  bad := fun _ x => badRange x 0 4 1 60000000
  perform := fun s x => answerOk (s.modVi x.p x.b (fun v => { v with timeoutUs := x.n 0 4 })) []

/-- SIGNAL_TIMEOUT (R331, R523). -/
def execSignalTimeout (pkg : BitVec 8) (mb : BitVec 6) (s : State) : Out := performMsg msgTimeout pkg mb s

/-- R523, R526: PF reads every record; OWN those whose VI field, at bit lo of word 0, names its VI and whose PKG bit is 0. -/
def mayRead (x : Asker) (lo : Nat) (pkgBit : Bool) (r : List Word) : Bool :=
  x.isPf || (recVi lo r == x.b && !(pkgBit && bit (r.headD 0).toNat 11))

def msgSigEvents : Msg where
  cls := 5
  code := 4
  rights := rPfOwn
  bad := fun _ x => firstBad [badDie x 0, badRange x 1 1 1 7]
  gone := goneAt 0
  perform := fun s x =>
    let y := s.die (x.die 0)
    let (out, left) := takeRecs (mayRead x 43 false) (x.n 1 1) y.sigEvents
    answerOk (s.setDie (x.die 0) { y with sigEvents := left }) (recReply 32 out y.sigDropped)

/-- SIGNAL_EVENTS (R337, R523). -/
def execSignalEvents (pkg : BitVec 8) (mb : BitVec 6) (s : State) : Out := performMsg msgSigEvents pkg mb s

def msgReports : Msg where
  cls := 5
  code := 5
  rights := rPfOwn
  bad := fun _ x => badDie x 0
  gone := goneAt 0
  perform := fun s x =>
    let y := s.die (x.die 0)
    let (out, left) := takeRecs (mayRead x 47 false) 1 y.reports
    let out' := if out.isEmpty then [[]] else out
    answerOk (s.setDie (x.die 0) { y with reports := left })
      (packBody ([(1, out.length), (2, y.repDropped.toNat)] ++ out'.map (fun r => (128, recNat r))))

/-- SIGNAL_REPORTS (R342, R523). -/
def execSignalReports (pkg : BitVec 8) (mb : BitVec 6) (s : State) : Out := performMsg msgReports pkg mb s

def msgScan : Msg where
  cls := 5
  code := 6
  rights := rPf
  bad := fun _ x => badRange x 4 4 0 10000
  gone := fun s x => s.goneMask x.p (x.n 0 1)
  perform := fun s x => answerOk ((List.range 8).foldl (fun s i =>
    if bit (x.n 0 1) i then s.modDie (x.p * 8 + i) (fun y => { y with scanMs := x.n 4 4, lastScan := (s.pkg x.p).tick, scopes := [] }) else s) s) []

/-- SIGNAL_SCAN (R339, R523). -/
def execSignalScan (pkg : BitVec 8) (mb : BitVec 6) (s : State) : Out := performMsg msgScan pkg mb s

/-- R318: the home die of a handle does not answer, or its epoch is another. -/
def State.signalGone (s : State) (p : Nat) (h : Word) : Bool :=
  !s.inMachine p (diePkg (hDie h)) || !s.dieUp (hDie h) || !s.reached (headDie p) (hDie h) || hEpoch h != (s.die (hDie h)).epoch

def Asker.handle (x : Asker) : Word := BitVec.ofNat 64 (x.n 0 8)

def msgSigStatus : Msg where
  cls := 5
  code := 7
  rights := fun s x => s.ownsVi x && (s.signalGone x.p x.handle || (s.signal (hDie x.handle) (hKey x.handle)).owner == (s.vi x.p x.b).tenant)
  bad := fun _ x => badIf (!handleValid x.handle) 0
  gone := fun s x => if s.signalGone x.p x.handle then 2 ^ dieNo (hDie x.handle) else 0
  perform := fun s x =>
    let g := s.signal (hDie x.handle) (hKey x.handle)
    answerOk s (packBody [(4, g.count.toNat), (8, slotStatus g)])

/-- SIGNAL_STATUS (R320, R523). -/
def execSignalStatus (pkg : BitVec 8) (mb : BitVec 6) (s : State) : Out := performMsg msgSigStatus pkg mb s

end Sys2Proof.Machine
end

