-- ==== Sys2Proof/Machine/MsgPower.lean ====
section
/-! DEFINITION. The messages of the POWER, BOOKS and POINTS classes (R35, R47, R54, R56, R302, R303, R416, R431, R433, R435, R442, R444, R452 to
R454, R461, R524, R525, R530). -/
set_option Elab.async false
namespace Sys2Proof.Machine

/-! ### POWER (R524) -/

def msgCap : Msg where
  cls := 6
  code := 1
  rights := rPfTc
  bad := fun _ x => badRange x 0 2 450 1400
  perform := fun s x =>
    .wait (s.modPkg x.p (fun k => if x.isTc then { k with trayCap := x.n 0 2 } else { k with hostCap := x.n 0 2 })) (.cap x.isTc false 0)

/-- POWER_CAP (R433, R442, R444, R524). -/
def execPowerCap (pkg : BitVec 8) (mb : BitVec 6) (s : State) : Out := performMsg msgCap pkg mb s

def msgPin : Msg where
  cls := 6
  code := 2
  rights := rPf
  bad := fun _ x => badIf (decide (15 < x.n 1 1) && x.n 1 1 != 255) 1
  gone := fun s x => s.goneMask x.p (x.n 0 1)
  perform := fun s x =>
    let dies := (List.range 8).filter (fun i => bit (x.n 0 1) i)
    let op := if x.n 1 1 = 255 then none else some (x.n 1 1)
    let s := dies.foldl (fun s i => s.modDie (x.p * 8 + i) (fun y => { y with pinned := op })) s
    let s := s.retarget x.p
    if op.isNone then answerOk s [] else .wait s (.pin dies)

/-- POWER_PIN (R431, R456, R524). -/
def execPowerPin (pkg : BitVec 8) (mb : BitVec 6) (s : State) : Out := performMsg msgPin pkg mb s

/-- R524: the three fields of ORDER. -/
def orderOf (n : Nat) : List Nat := [n % 4, n / 4 % 4, n / 16 % 4]

def msgPriority : Msg where
  cls := 6
  code := 3
  rights := rPf
  bad := fun _ x => firstBad [badIf (! ([0, 1, 2]).all (fun k => (orderOf (x.n 0 1)).contains k)) 0, badIf (! ([1, 2, 4]).contains (x.n 1 1)) 1]
  perform := fun s x => answerOk (s.modPkg x.p (fun k => { k with priority := orderOf (x.n 0 1), minWidth := x.n 1 1 })) []

/-- POWER_PRIORITY (R435, R524). -/
def execPowerPriority (pkg : BitVec 8) (mb : BitVec 6) (s : State) : Out := performMsg msgPriority pkg mb s

def msgFixed : Msg where
  cls := 6
  code := 4
  rights := rPf
  bad := fun _ x => badIf (x.n 0 2 != 0 && (decide (x.n 0 2 < 410) || decide (1843 < x.n 0 2))) 0
  perform := fun s x => answerOk (s.modPkg x.p (fun k => { k with fixedRate := x.n 0 2 })) []

/-- POWER_FIXED (R54, R524). -/
def execPowerFixed (pkg : BitVec 8) (mb : BitVec 6) (s : State) : Out := performMsg msgFixed pkg mb s

/-- The quantity belongs to one die (R452). -/
def ofDie (quantity : Nat) : Bool := decide (1 ≤ quantity) && decide (quantity ≤ 4)

def msgWatermark : Msg where
  cls := 6
  code := 5
  rights := rPfTc
  bad := fun _ x => firstBad [badRange x 0 1 0 15, badIf (decide (4 < x.n 1 1) && x.n 1 1 != 255) 1, badIf (ofDie (x.n 1 1) && decide (7 < x.n 2 1)) 2,
    badRange x 3 1 0 1]
  gone := fun s x => if ofDie (x.n 1 1) then s.goneDie x.p (x.n 2 1) else 0
  perform := fun s x =>
    let on := x.n 1 1 != 255
    let w : Watermark := { enabled := on, quantity := if on then x.n 1 1 else 0, die := x.n 2 1 % 8, falling := x.n 3 1 == 1,
                           mark := BitVec.ofNat 16 (x.n 4 2), hyst := BitVec.ofNat 16 (x.n 6 2), tc := x.isTc, armed := on }
    answerOk (s.modPkg x.p (fun k => { k with watermarks := tset k.watermarks (x.n 0 1) w })) []

/-- POWER_WATERMARK (R452, R524). -/
def execPowerWatermark (pkg : BitVec 8) (mb : BitVec 6) (s : State) : Out := performMsg msgWatermark pkg mb s

/-- R454: the notice of a watermark. -/
def State.notice (s : State) (p i : Nat) : Nat :=
  let w := tget (s.pkg p).watermarks i {}
  let level := if w.enabled then min (s.level p w) 65535 else 0
  w.count.toNat * 2 ^ 56 + b2n w.falling * 2 ^ 55 + b2n (w.enabled && w.past level) * 2 ^ 54 + b2n w.armed * 2 ^ 53 + i % 16 * 2 ^ 48 +
    w.latch.toNat * 2 ^ 32 + level * 2 ^ 16

def msgNotices : Msg where
  cls := 6
  code := 6
  relay := true
  rights := rPfTc
  perform := fun s x => answerOk s (packBody ((List.range 16).map (fun i => (8, s.notice x.p i))))

/-- POWER_NOTICES (R454, R524). -/
def execPowerNotices (pkg : BitVec 8) (mb : BitVec 6) (s : State) : Out := performMsg msgNotices pkg mb s

def msgAck : Msg where
  cls := 6
  code := 7
  rights := rPfTc
  perform := fun s x =>
    let own := (List.range 16).filter (fun i => bit (x.n 0 2) i && (tget (s.pkg x.p).watermarks i {}).enabled && (tget (s.pkg x.p).watermarks i {}).tc == x.isTc)
    let s := own.foldl (fun s i => s.modPkg x.p (fun k => { k with watermarks := tset k.watermarks i { tget k.watermarks i {} with count := 0, latch := 0 } })) s
    answerOk s (packBody [(2, own.foldl (fun m i => m + 2 ^ i) 0)])

/-- POWER_ACK (R454, R524). -/
def execPowerAck (pkg : BitVec 8) (mb : BitVec 6) (s : State) : Out := performMsg msgAck pkg mb s

def msgReadings : Msg where
  cls := 6
  code := 8
  relay := true
  rights := rPfTc
  perform := fun s x =>
    let k := s.pkg x.p
    let dies := (List.range 8).map (fun i => s.die (x.p * 8 + i))
    answerOk s (packBody ([(2, k.inputMean), (2, 10 * k.capForce), (2, 15000), (1, k.levers % 16 + b2n k.hardThrottle * 16 + b2n k.capPending * 32),
      (4, k.hardCount.toNat)] ++
      (dies.map (fun y => [(2, y.power.getD 2 0), (2, y.power.getD 1 0), (2, y.power.getD 0 0)])).flatten ++
      dies.map (fun y => (1, y.ceiling)) ++ dies.map (fun y => (1, y.subst.targetOp))))

/-- POWER_READINGS (R445, R524): every power in units of 0.1 W (log 67). -/
def execPowerReadings (pkg : BitVec 8) (mb : BitVec 6) (s : State) : Out := performMsg msgReadings pkg mb s

def msgMonitors : Msg where
  cls := 6
  code := 9
  relay := true
  rights := rPfTc
  bad := fun _ x => badDie x 0
  gone := goneAt 0
  perform := fun s x =>
    let d := x.die 0
    let body := packBody ((List.range 8).map (fun m => (8, monitorWord d m (s.monitor d m))) ++ [(2, (s.die d).shortfalls.toNat)])
    answerOk (s.modDie d (fun y => { y with
      monitors := (List.range 8).foldl (fun t m => tset t m { tget t m {} with rateMin := 0xFFFF }) y.monitors, shortArmed := true })) body

/-- POWER_MONITORS (R47, R56, R524). -/
def execPowerMonitors (pkg : BitVec 8) (mb : BitVec 6) (s : State) : Out := performMsg msgMonitors pkg mb s

def msgFuses : Msg where
  cls := 6
  code := 10
  rights := rPfTc
  bad := fun _ x => badDie x 0
  gone := goneAt 0
  perform := fun s x =>
    let d := x.die 0
    answerOk s (packBody ((List.range 16).map (fun op => (4, fuseEntry d op)) ++ [(4, Config.fuseL70 d)] ++
      (List.range 10).map (fun i => (4, Config.fuseCoeff d i))))

/-- POWER_FUSES (R429, R460, R524). -/
def execPowerFuses (pkg : BitVec 8) (mb : BitVec 6) (s : State) : Out := performMsg msgFuses pkg mb s

def msgEnergy : Msg where
  cls := 6
  code := 11
  rights := rPfOwn
  bad := fun _ x => badRange x 0 1 0 1
  perform := fun s x =>
    if x.isPf then
      answerOk s (packBody ((List.range 16).map (fun i => (8, (s.vi x.p (16 * x.n 0 1 + i)).energy.toNat)) ++ [(8, (s.pkg x.p).energyUn.toNat)]))
    else answerOk s (packBody [(8, (s.vi x.p x.b).energy.toNat)])

/-- POWER_ENERGY (R461, R524). -/
def execPowerEnergy (pkg : BitVec 8) (mb : BitVec 6) (s : State) : Out := performMsg msgEnergy pkg mb s

/-! ### BOOKS (R525) -/

def msgLedger : Msg where
  cls := 7
  code := 1
  rights := rPfOwn
  bad := fun _ x => firstBad [badRange x 0 1 4 5, badDie x 1]
  gone := goneAt 1
  perform := fun s x =>
    let l := x.n 0 1
    let d := x.die 1
    let three (v : Nat) : List (Nat × Nat) := let h := s.share l d v; [(2, h.share), (2, h.held), (2, h.withdraw)]
    answerOk s (packBody ((2, s.unalloc l d) :: (if x.isPf then ((List.range 32).map three).flatten else three x.b)))

/-- BOOKS_LEDGER (R416, R525). -/
def execBooksLedger (pkg : BitVec 8) (mb : BitVec 6) (s : State) : Out := performMsg msgLedger pkg mb s

def msgBooksFaults : Msg where
  cls := 7
  code := 2
  rights := rPfOwn
  bad := fun _ x => firstBad [badDie x 0, badRange x 1 1 1 7]
  gone := goneAt 0
  perform := fun s x =>
    let y := s.die (x.die 0)
    let (out, left) := takeRecs (mayRead x 43 false) (x.n 1 1) y.ledgerFaults
    answerOk (s.setDie (x.die 0) { y with ledgerFaults := left }) (recReply 32 out y.ledDropped)

/-- BOOKS_FAULTS (R420, R525). -/
def execBooksFaults (pkg : BitVec 8) (mb : BitVec 6) (s : State) : Out := performMsg msgBooksFaults pkg mb s

def msgDeadlines : Msg where
  cls := 7
  code := 3
  rights := fun s x => x.isPf || (s.ownsVi x && x.n 0 1 == x.b)
  bad := fun _ x => badRange x 0 1 0 31
  perform := fun s x => let m := (s.vi x.p (x.n 0 1)).missed; answerOk s (packBody ((List.range 3).map (fun i => (8, m.getD i 0))))

/-- BOOKS_DEADLINES (R35, R525). -/
def execBooksDeadlines (pkg : BitVec 8) (mb : BitVec 6) (s : State) : Out := performMsg msgDeadlines pkg mb s

/-! ### POINTS (R530) -/

/-- The route table that DIE and TABLE name. -/
def Asker.table (x : Asker) (s : State) : RTable := tget (s.die (x.die 0)).rtables (x.n 1 1) {}
def State.setTable (s : State) (x : Asker) (r : RTable) : State := s.modDie (x.die 0) (fun y => { y with rtables := tset y.rtables (x.n 1 1) r })
def badTable (x : Asker) : List (Option Nat) := [badDie x 0, badRange x 1 1 0 15]

/-- The table is held by the mailbox's own VI. -/
def holdsTable : State → Asker → Bool := fun s x => s.ownsVi x && (x.table s).vi == some x.b

def msgPtGrant : Msg where
  cls := 11
  code := 1
  rights := rPf
  bad := fun s x => firstBad (badTable x ++ [badIf ((x.table s).vi.isSome && (x.table s).vi != some (x.n 2 1)) 1, badRange x 2 1 0 31, badRange x 3 1 0 4])
  gone := goneAt 0
  perform := fun s x => answerOk (s.setTable x (if x.n 3 1 = 0 then {} else { vi := some (x.n 2 1), rmax := x.n 3 1, ex := [] })) []

/-- POINTS_GRANT (R302, R530). -/
def execPointsGrant (pkg : BitVec 8) (mb : BitVec 6) (s : State) : Out := performMsg msgPtGrant pkg mb s

def msgPtInterval : Msg where
  cls := 11
  code := 2
  rights := rPf
  bad := fun _ x => badRange x 0 4 0 60000
  perform := fun s x => answerOk (s.modPkg x.p (fun k => { k with revMs := x.n 0 4, lastRev := k.tick })) []

/-- POINTS_INTERVAL (R303, R530). -/
def execPointsInterval (pkg : BitVec 8) (mb : BitVec 6) (s : State) : Out := performMsg msgPtInterval pkg mb s

def msgPtPin : Msg where
  cls := 11
  code := 3
  rights := holdsTable
  bad := fun s x => firstBad (badTable x ++ [badRange x 2 2 0 4095, badRange x 4 1 0 (if holdsTable s x then (x.table s).rmax else 4)])
  gone := goneAt 0
  perform := fun s x =>
    let r := x.table s
    let e := tget r.ex (x.n 2 2) {}
    answerOk (s.setTable x { r with ex := tset r.ex (x.n 2 2) (if x.n 4 1 = 0 then { e with pinned := false } else { e with reps := x.n 4 1, pinned := true }) }) []

/-- POINTS_PIN (R303, R530). -/
def execPointsPin (pkg : BitVec 8) (mb : BitVec 6) (s : State) : Out := performMsg msgPtPin pkg mb s

def msgPtRead : Msg where
  cls := 11
  code := 4
  rights := fun s x => x.isPf || holdsTable s x
  bad := fun _ x => firstBad (badTable x)
  gone := goneAt 0
  perform := fun s x =>
    let r := x.table s
    let n := min 40 (4096 - x.n 2 2)
    let e (i : Nat) : Expert := if i < n then tget r.ex (x.n 2 2 + i) {} else { hist := 0, reps := 0 }
    answerOk s (packBody ([(1, if r.vi.isSome then r.rmax else 0), (1, n)] ++ (List.range 40).map (fun i => (4, (e i).hist.toNat)) ++
      (List.range 40).map (fun i => (1, (e i).reps))))

/-- POINTS_READ (R302, R530). -/
def execPointsRead (pkg : BitVec 8) (mb : BitVec 6) (s : State) : Out := performMsg msgPtRead pkg mb s

def msgPtClear : Msg where
  cls := 11
  code := 5
  rights := holdsTable
  bad := fun _ x => firstBad (badTable x)
  gone := goneAt 0
  perform := fun s x =>
    let r := x.table s
    answerOk (s.setTable x { r with ex := tmap r.ex (fun _ e => { e with hist := 0 }) }) []

/-- POINTS_CLEAR (R530). -/
def execPointsClear (pkg : BitVec 8) (mb : BitVec 6) (s : State) : Out := performMsg msgPtClear pkg mb s

end Sys2Proof.Machine
end

