-- ==== Sys2Proof/Machine/MsgFw.lean ====
section
/-! DEFINITION. The messages of the FAULT, FIRMWARE, LINK and DIAG classes (R76, R90, R154, R348, R350, R368, R371, R514, R526 to R529, R532, R548,
R556, R558), and the swaps of a live firmware update (R527, R528, R559 to R561). -/
set_option Elab.async false
namespace Sys2Proof.Machine

/-! ### FAULT (R526) -/

def msgEvents : Msg where
  cls := 8
  code := 1
  rights := fun s x => x.isPf || x.isTc || s.ownsVi x
  bad := fun _ x => badRange x 0 1 1 14
  perform := fun s x =>
    let rec2 (e : Word × Word) : Nat × Nat := (16, recNat [e.1, e.2])
    let n := x.n 0 1
    if x.isTc then
      let k := s.pkg x.p
      let out := k.tcEvents.take n
      answerOk (s.setPkg x.p { k with tcEvents := k.tcEvents.drop n }) (packBody ([(1, out.length), (2, k.tcDropped.toNat)] ++ out.map rec2))
    else
      let v := s.vi x.p x.b
      let out := v.events.take n
      answerOk (s.setVi x.p x.b { v with events := v.events.drop n }) (packBody ([(1, out.length), (2, v.evDropped.toNat)] ++ out.map rec2))

/-- FAULT_EVENTS (R514, R526). -/
def execFaultEvents (pkg : BitVec 8) (mb : BitVec 6) (s : State) : Out := performMsg msgEvents pkg mb s

def msgThreads : Msg where
  cls := 8
  code := 2
  rights := rPfOwn
  bad := fun _ x => firstBad [badDie x 0, badRange x 1 1 1 7]
  gone := goneAt 0
  perform := fun s x =>
    let y := s.die (x.die 0)
    let (out, left) := takeRecs (mayRead x 43 false) (x.n 1 1) y.threadFaults
    answerOk (s.setDie (x.die 0) { y with threadFaults := left }) (recReply 32 out y.threadDropped)

/-- FAULT_THREADS (R90, R526). -/
def execFaultThreads (pkg : BitVec 8) (mb : BitVec 6) (s : State) : Out := performMsg msgThreads pkg mb s

def msgMemory : Msg where
  cls := 8
  code := 3
  rights := rPfOwn
  bad := fun _ x => firstBad [badDie x 0, badRange x 1 1 1 7]
  gone := goneAt 0
  perform := fun s x =>
    let y := s.die (x.die 0)
    let (out, left) := takeRecs (mayRead x 43 true) (x.n 1 1) y.memFaults
    answerOk (s.setDie (x.die 0) { y with memFaults := left }) (recReply 32 out y.memDropped)

/-- FAULT_MEMORY (R154, R526). -/
def execFaultMemory (pkg : BitVec 8) (mb : BitVec 6) (s : State) : Out := performMsg msgMemory pkg mb s

def msgRelease : Msg where
  cls := 8
  code := 4
  rights := rOwn
  bad := fun s x =>
    let th := x.n 0 4
    let t := s.thread th
    badIf (thDie th / 8 != x.p || t.st != .halted || t.vi != x.b || t.tenant != (s.vi x.p x.b).tenant) 0
  perform := fun s x => answerOk (s.endThread (x.n 0 4) true) []

/-- FAULT_RELEASE (R76, R526). -/
def execFaultRelease (pkg : BitVec 8) (mb : BitVec 6) (s : State) : Out := performMsg msgRelease pkg mb s

/-- R526: the cause of a die's absence. -/
def Die.causeCode (x : Die) : Nat := match x.st with | .inService => 0 | _ => x.cause

def msgPackage : Msg where
  cls := 8
  code := 5
  relay := true
  rights := rPfTc
  perform := fun s x =>
    let dies := (List.range 8).map (fun i => s.die (x.p * 8 + i))
    let out := (dies.zipIdx.filter (fun e => e.1.st != .inService)).foldl (fun m e => m + 2 ^ e.2) 0
    answerOk s (packBody ([(1, (s.pkg x.p).beacon.toNat), (1, out)] ++ dies.map (fun y => (1, y.causeCode))))

/-- FAULT_PACKAGE (R526). -/
def execFaultPackage (pkg : BitVec 8) (mb : BitVec 6) (s : State) : Out := performMsg msgPackage pkg mb s

def msgResetPackage : Msg where
  cls := 8
  code := 6
  rights := rPfTc
  bad := fun _ x => badRange x 0 1 0 1
  perform := fun s x => .silent (s.resetPkg x.p (x.n 0 1 == 1) false)

/-- RESET_PACKAGE (R526, R548): not answered. -/
def execResetPackage (pkg : BitVec 8) (mb : BitVec 6) (s : State) : Out := performMsg msgResetPackage pkg mb s

/-! ### FIRMWARE (R527) -/

def fwCode (x : FwState) : Nat := match x with | .idle => 0 | .staging => 1 | .checked => 2 | .swapping => 3

/-- R527: the largest image. -/
def imageMax : Nat := 6 * 2 ^ 20

/-- R527: another mailbox is staging, or the cores are swapping (R508). -/
def stagingElsewhere : State → Asker → Bool := fun s x =>
  let k := s.pkg x.p
  k.fwState == .swapping || (k.fwState == .staging && k.stagedBy != x.b)

def msgFwQuery : Msg where
  cls := 9
  code := 1
  rights := rPfTc
  perform := fun s x =>
    let k := s.pkg x.p
    answerOk s (packBody ([(2, Config.romRevision.toNat)] ++ (List.range 8).map (fun i => (2, (s.die (x.p * 8 + i)).rev.toNat)) ++
      [(2, match k.stagedImage with | some i => (imageRev (some i)).toNat | none => 0), (4, k.staged.length), (1, fwCode k.fwState)]))

/-- FIRMWARE_QUERY (R527). -/
def execFirmwareQuery (pkg : BitVec 8) (mb : BitVec 6) (s : State) : Out := performMsg msgFwQuery pkg mb s

def msgStage : Msg where
  cls := 9
  code := 2
  rights := rPfTc
  retry := stagingElsewhere
  bad := fun s x =>
    let have_ := (s.pkg x.p).staged.length
    firstBad [badIf (decide (x.body.length < 6 + x.n 4 2)) headerFault, badIf (x.n 0 4 != have_) 0,
      badIf (decide (x.n 4 2 < 1) || decide (224 < x.n 4 2) || decide (imageMax < have_ + x.n 4 2)) 4]
  perform := fun s x => answerOk (s.modPkg x.p (fun k =>
    { k with staged := k.staged ++ (x.body.drop 6).take (x.n 4 2), fwState := .staging, stagedBy := x.b, stagedImage := none })) []

/-- FIRMWARE_STAGE (R527). -/
def execFirmwareStage (pkg : BitVec 8) (mb : BitVec 6) (s : State) : Out := performMsg msgStage pkg mb s

def msgStageHost : Msg where
  cls := 9
  code := 3
  rights := rPf
  retry := stagingElsewhere
  bad := fun _ x => badRange x 0 4 1 imageMax
  perform := fun s x => .wait (s.modPkg x.p (fun k => { k with fwState := .staging, stagedBy := x.b, staged := [], stagedImage := none })) .hostRead

/-- FIRMWARE_STAGE_HOST (R527): the image is read when its wait ends. -/
def execFirmwareStageHost (pkg : BitVec 8) (mb : BitVec 6) (s : State) : Out := performMsg msgStageHost pkg mb s

/-- R559: the dies of a mask, die 0 last. -/
def swapOrder (mask : Nat) : List Nat := (List.range 8).map (fun i => (i + 1) % 8) |>.filter (fun i => bit mask i)

def msgCommit (chk : ImageCheck) : Msg where
  cls := 9
  code := 4
  rights := rPfTc
  retry := stagingElsewhere
  bad := fun s x => badIf (!chk.info.ok || (s.pkg x.p).staged.isEmpty) 0
  gone := fun s x => s.goneMask x.p (x.n 0 1)
  perform := fun s x =>
    let s := s.modPkg x.p (fun k => { k with fwState := .swapping, stagedImage := some chk.info, swapFailed := [] })
    .wait (s.swapFrom x.p (swapOrder (x.n 0 1))) .commit

/-- FIRMWARE_COMMIT (R527, R559): `chk` is the outcome of the check against the key in ROM. -/
def execFirmwareCommit (pkg : BitVec 8) (mb : BitVec 6) (chk : ImageCheck) (s : State) : Out := performMsg (msgCommit chk) pkg mb s

def msgDiscard : Msg where
  cls := 9
  code := 5
  rights := rPfTc
  retry := fun s x => (s.pkg x.p).fwState == .swapping
  perform := fun s x => answerOk (s.modPkg x.p (fun k => { k with fwState := .idle, staged := [], stagedImage := none })) []

/-- FIRMWARE_DISCARD (R527). -/
def execFirmwareDiscard (pkg : BitVec 8) (mb : BitVec 6) (s : State) : Out := performMsg msgDiscard pkg mb s

/-! ### An image begins to run (R533, R536, R537, R559) -/

/-- The dies of a package are laid out for an image and their ports begin training; in X8X8 mode VI 16 is FREE and the die 4 port comes up. -/
def State.openPkg (s : State) (p : Nat) (i : ImageInfo) : State :=
  let s := s.modPkg p (fun k => { k with image := some i, nextImage := none, link4 := i.x8x8 && k.perst1,
                                         vis := if i.x8x8 then tset k.vis 16 { ({} : Vi) with st := .free } else k.vis })
  (List.range 8).foldl (fun s j =>
    let s := s.modDie (p * 8 + j) (fun x => { x with rhCode := i.rhCode })
    if s.dieUp (p * 8 + j) then s.trainPorts (p * 8 + j) else s) s

/-- R559: the head Turja's new image: its revision and identity hold at once; port mode, window and record sizes hold from the next package
reset (log 40); a package that ran no image is opened (R536). -/
def State.headImage (s : State) (p : Nat) (i : ImageInfo) : State :=
  match (s.pkg p).image with
  | none => s.openPkg p i
  | some old => s.modPkg p (fun k => { k with
      image := some { i with x8x8 := old.x8x8, rhCode := old.rhCode, wbCode := old.wbCode }, nextImage := some i })

/-- TURJA_SWAP_DONE (R559): the new image starts within 20 ms. -/
def execTurjaSwapDone (die : BitVec 11) (s : State) : Out :=
  let d := die.toNat
  let p := diePkg d
  match (s.die d).swapping, (s.pkg p).stagedImage with
  | some since, some i =>
    if s.dieUp d && decide (s.now d ≤ since + 20 * tickMs) then
      let s := s.modDie d (fun x => { x with rev := imageRev (some i) })
      let s := if dieNo d = 0 then (s.headImage p i).modPkg p (fun k => { k with checkin := k.tick }) else s
      .next (s.swapEnds d false)
    else .next s
  | _, _ => .next s

/-- TURJA_SWAP_TIMEOUT (R559): 20 ms: the core resumes its earlier image. -/
def execTurjaSwapTimeout (die : BitVec 11) (s : State) : Out :=
  let d := die.toNat
  match (s.die d).swapping with
  | some since => if s.dieUp d && after (s.now d) since (20 * tickMs) then .next (s.swapEnds d true) else .next s
  | none => .next s

/-! ### LINK (R529) -/

def portCode (x : PortState) : Nat := match x with | .dark => 0 | .training => 1 | .up => 2 | .refused => 3 | .fenced => 4

def Asker.port (x : Asker) (s : State) : Port := s.port (x.die 0) (x.n 1 1)

def msgPort : Msg where
  cls := 10
  code := 1
  relay := true
  rights := rPfTc
  bad := fun _ x => firstBad [badDie x 0, badRange x 1 1 0 3]
  gone := goneAt 0
  perform := fun s x =>
    let y := s.die (x.die 0)
    let q := x.port s
    let (fp, fd, fq, fe) := match q.far with | some f => (f.pkg.toNat, f.die.toNat, f.port.toNat, f.pepoch.toNat) | none => (0, 0, 0, 0)
    answerOk s (packBody [(1, portCode q.st), (1, q.width), (1, q.usable.toNat), (1, q.fenced.toNat), (1, q.isOpen.toNat), (1, fp), (1, fd), (1, fq),
      (2, fe), (4, q.replays.toNat), (4, q.retrains.toNat), (4, y.badPkt.toNat), (4, y.staleRsp.toNat), (4, y.routeLost.toNat)])

/-- LINK_PORT (R529). -/
def execLinkPort (pkg : BitVec 8) (mb : BitVec 6) (s : State) : Out := performMsg msgPort pkg mb s

/-- R349, R350, R529: a port is asked to train: one that is up retrains, one that is dark or refused begins its attempts. -/
def State.askTrain (s : State) (d q : Nat) : State :=
  match (s.port d q).st with
  | .up => s.retrain d q
  | .training => s
  | .fenced => s
  | _ => if s.neverTrains (diePkg d) (dieNo d) q then s else s.modPort d q trainPort

/-- A port as the wait of RETRAIN names it. -/
def portNo (d q : Nat) : Nat := d * 4 + q

def msgRetrain : Msg where
  cls := 10
  code := 2
  rights := rPf
  bad := fun _ x => firstBad [badDie x 0, badRange x 1 1 0 3]
  gone := goneAt 0
  perform := fun s x => .wait (s.askTrain (x.die 0) (x.n 1 1)) (.retrain (portNo (x.die 0) (x.n 1 1)))

/-- LINK_RETRAIN (R349, R350, R529). -/
def execLinkRetrain (pkg : BitVec 8) (mb : BitVec 6) (s : State) : Out := performMsg msgRetrain pkg mb s

/-- R348: lanes are unfenced; a port all of whose lanes were fenced is dark again. -/
def unfenceLanes (lanes : Nat) (x : Port) : Port :=
  let f := x.fenced &&& ~~~(BitVec.ofNat 4 lanes)
  { x with fenced := f, st := if x.st == .fenced && f != 15 then .dark else x.st }

/-- R368: a junction's fence is cleared at both ends; while a neighbour is out of service it stays. -/
def State.unfenceJunction (s : State) (d j : Nat) : State :=
  let e := diePkg d * 8 + jAcross (dieNo d) j
  let f : JFence := if s.dieUp d && s.dieUp e then .none else .neighbour
  ((s.modJunction d j (fun x => { x with fence := f })).modJunction e (jTwin j) (fun x => { x with fence := f })).reportLinks (diePkg d)

def msgUnfence : Msg where
  cls := 10
  code := 3
  rights := rPf
  bad := fun _ x => firstBad [badDie x 0, badRange x 2 2 0x30 0x36, badRange x 4 1 0 15]
  gone := goneAt 0
  perform := fun s x =>
    let d := x.die 0
    let u := x.n 2 2
    if u < 0x34 then
      .wait ((s.modPort d (u - 0x30) (unfenceLanes (x.n 4 1))).askTrain d (u - 0x30)) (.retrain (portNo d (u - 0x30)))
    else
      let s := s.unfenceJunction d (u - 0x34)
      answerOk s (packBody [(1, b2n (s.jOpen d (u - 0x34)))])

/-- LINK_UNFENCE (R348, R368, R529). -/
def execLinkUnfence (pkg : BitVec 8) (mb : BitVec 6) (s : State) : Out := performMsg msgUnfence pkg mb s

def msgRoutes : Msg where
  cls := 10
  code := 4
  relay := true
  rights := rPfTc
  bad := fun _ x => firstBad [badDie x 0, badRange x 1 1 0 1]
  gone := goneAt 0
  perform := fun s x =>
    let y := s.die (x.die 0)
    answerOk s (packBody ((4, y.map.version.toNat) :: (List.range 128).map (fun i =>
      let p := 128 * x.n 1 1 + i
      (1, if p = x.p then 0xFE else tget y.routes p 0xFF))))

/-- LINK_ROUTES (R371, R529). -/
def execLinkRoutes (pkg : BitVec 8) (mb : BitVec 6) (s : State) : Out := performMsg msgRoutes pkg mb s

def msgJunctions : Msg where
  cls := 10
  code := 5
  relay := true
  rights := rPfTc
  bad := fun _ x => badDie x 0
  gone := goneAt 0
  perform := fun s x =>
    let js := (List.range 3).map (fun j => s.junction (x.die 0) j)
    answerOk s (packBody (js.map (fun j => (1, b2n (j.fence == .none))) ++ js.map (fun j => (4, j.replays.toNat))))

/-- LINK_JUNCTIONS (R368, R529). -/
def execLinkJunctions (pkg : BitVec 8) (mb : BitVec 6) (s : State) : Out := performMsg msgJunctions pkg mb s

/-! ### DIAG (R532) -/

def msgCounters : Msg where
  cls := 12
  code := 1
  relay := true
  rights := rPfTc
  bad := fun _ x => badDie x 0
  gone := goneAt 0
  perform := fun s x => answerOk s (packBody ((List.range 7).map (fun i => (4, ((s.die (x.die 0)).counters.getD i 0).toNat))))

/-- DIAG_COUNTERS (R154, R532). -/
def execDiagCounters (pkg : BitVec 8) (mb : BitVec 6) (s : State) : Out := performMsg msgCounters pkg mb s

def msgUnits : Msg where
  cls := 12
  code := 2
  relay := true
  rights := rPf
  bad := fun _ x => badDie x 0
  perform := fun s x => answerOk s (packBody [(8, (s.gates (x.die 0)).toNat), (8, (s.die (x.die 0)).table.toNat)])

/-- DIAG_UNITS (R532, R556). -/
def execDiagUnits (pkg : BitVec 8) (mb : BitVec 6) (s : State) : Out := performMsg msgUnits pkg mb s

/-- R558: the gate is open, the table in service and no drain under way. -/
def State.unitIn (s : State) (d u : Nat) : Bool := s.unitOpen d u

def msgSetUnit : Msg where
  cls := 12
  code := 3
  rights := rPf
  bad := fun _ x => firstBad [badDie x 0, badIf (!reconciled.contains (x.n 2 2)) 2, badRange x 4 1 0 1]
  gone := goneAt 0
  perform := fun s x =>
    let d := x.die 0
    let u := x.n 2 2
    if x.n 4 1 = 0 then answerOk (s.modDie d (fun y => { y with table := y.table &&& ~~~(gateMask u) })) []
    else if s.unitIn d u then answerOk s []
    else .wait (s.modDie d (fun y => { y with returns := y.returns.filter (· != u) ++ [u] })) (.unitIn d u)

/-- DIAG_SET_UNIT (R532, R556, R558). -/
def execDiagSetUnit (pkg : BitVec 8) (mb : BitVec 6) (s : State) : Out := performMsg msgSetUnit pkg mb s

def msgEcho : Msg where
  cls := 12
  code := 4
  rights := fun _ x => x.role != .free
  perform := fun s x => answerOk s (x.body.take 224)

/-- DIAG_ECHO (R501, R532). -/
def execDiagEcho (pkg : BitVec 8) (mb : BitVec 6) (s : State) : Out := performMsg msgEcho pkg mb s

end Sys2Proof.Machine
end

