-- ==== Sys2Proof/Machine/Special.lean ====
section
/-! DEFINITION. The function menu of the Consist (R260 to R262): special functions, correctly rounded from an enclosure of the exact
result, and the functions built from F32 steps. -/
set_option Elab.async false
namespace Sys2Proof.Machine

/-! ### Enclosures: fixed-point numbers of 256 fraction bits -/

abbrev fxP : Nat := 256

/-- m × 2^e at 256 fraction bits, rounded down. -/
def toFx (m : Nat) (e : Int) : Nat := if 0 ≤ e + fxP then m * 2 ^ (e + fxP).toNat else m / 2 ^ (-(e + fxP)).toNat

/-- The fixed-point number lo to hi. -/
structure Fx where
  lo : Nat
  hi : Nat

def Fx.mul (a b : Fx) : Fx := ⟨a.lo * b.lo / 2 ^ fxP, a.hi * b.hi / 2 ^ fxP + 1⟩
def Fx.div (a b : Fx) : Fx := ⟨a.lo * 2 ^ fxP / b.hi, a.hi * 2 ^ fxP / b.lo + 1⟩
def Fx.addNat (a : Fx) (n : Nat) : Fx := ⟨a.lo + n * 2 ^ fxP, a.hi + n * 2 ^ fxP⟩
def Fx.subOne (a : Fx) : Fx := ⟨a.lo - 2 ^ fxP, a.hi - 2 ^ fxP⟩
def fxOne : Fx := ⟨2 ^ fxP, 2 ^ fxP⟩

/-- The terms y^k / k! from k on, each rounded down. -/
def expTerms (y : Nat) : Nat → Nat → Nat → Nat
  | 0, _, acc => acc
  | n + 1, t, acc => expTerms y n (t * y / 2 ^ fxP / (55 - n)) (acc + t)

/-- e^x for x = m × 2^e from 2^-30 to 104: the series at x / 256, squared eight times. -/
def fxExp (m : Nat) (e : Int) : Fx :=
  let s := expTerms (toFx m (e - 8)) 55 (2 ^ fxP) 0
  (List.range 8).foldl (fun (a : Fx) _ => a.mul a) ⟨s, s + 1024⟩

/-- The terms t^(2i+1) / (2i+1), each rounded down. -/
def atanhTerms (t2 : Nat) : Nat → Nat → Nat → Nat → Nat
  | 0, _, _, acc => acc
  | n + 1, k, t, acc => atanhTerms t2 n (k + 2) (t * t2 / 2 ^ fxP) (acc + t / k)

/-- 2 atanh of num / den, at most 1/3. -/
def fxAtanh2 (num den : Nat) : Fx :=
  let t := num * 2 ^ fxP / den
  let s := 2 * atanhTerms (t * t / 2 ^ fxP) 90 1 t 0
  ⟨s, s + 4096⟩

/-- ln of m × 2^e as integers lo to hi at 256 fraction bits. -/
def fxLog (m : Nat) (e : Int) : Int × Int :=
  let k := Nat.log2 m
  let z := fxAtanh2 (m - 2 ^ k) (m + 2 ^ k)
  let l2 := fxAtanh2 1 3
  let n : Int := k + e
  if 0 ≤ n then (n * l2.lo + z.lo, n * l2.hi + z.hi) else (n * l2.hi + z.lo, n * l2.lo + z.hi)

/-- atan(1/q) at 512 fraction bits, its alternating terms. -/
def atanTerms (q : Nat) : Nat → Nat → Nat → Int → Int
  | 0, _, _, acc => acc
  | n + 1, k, t, acc => atanTerms q n (k + 2) (t / (q * q)) (if k % 4 = 1 then acc + (t / k : Nat) else acc - (t / k : Nat))

/-- 2 / √π, by Machin's formula for π. -/
def fxErfC : Fx :=
  let pi := (16 * atanTerms 5 120 1 (2 ^ 512 / 5) 0 - 4 * atanTerms 239 120 1 (2 ^ 512 / 239) 0).toNat
  let r := isqrt pi
  ⟨2 ^ 513 / (r + 2), 2 ^ 513 / (r - 2) + 1⟩

/-- The alternating terms x^(2n) / (n! (2n + 1)). -/
def erfTerms (x2 : Nat) : Nat → Nat → Nat → Int → Int
  | 0, _, _, acc => acc
  | k + 1, n, t, acc =>
    erfTerms x2 k (n + 1) (t * x2 / 2 ^ fxP / (n + 1)) (if n % 2 = 0 then acc + (t / (2 * n + 1) : Nat) else acc - (t / (2 * n + 1) : Nat))

/-- erf x divided by x, for x = m × 2^e up to 5. -/
def fxErf (m : Nat) (e : Int) : Fx :=
  let s := (erfTerms (toFx (m * m) (2 * e)) 220 0 (2 ^ fxP) 0).toNat
  fxErfC.mul ⟨s - 2 ^ 60, s + 2 ^ 60⟩

/-! ### Correct rounding -/

def fxVal (neg : Bool) (n : Nat) : Val := .fin neg n (-(fxP : Int))

/-- The F32 value nearest to a number between two bounds; where the bounds round apart, a free value (log 31). -/
def nearest (fn : Nat) (x : BitVec 32) (lo hi : Val) : BitVec 32 × FpFlags :=
  let a := toF32 0 false (lo, 0)
  let b := toF32 0 false (hi, 0)
  if a = b then a else (Config.specialResult fn x, a.2 ||| b.2)

def nearestFx (fn : Nat) (x : BitVec 32) (neg : Bool) (r : Fx) : BitVec 32 × FpFlags := nearest fn x (fxVal neg r.lo) (fxVal neg r.hi)

/-- A finite magnitude lies below 2^k, or at or above it. -/
def magBelow (m : Nat) (e k : Int) : Bool := decide (log2Val m e < k)

/-- m × 2^e is at least n. -/
def magGe (m : Nat) (e : Int) (n : Nat) : Bool := decide (n * 2 ^ fxP ≤ toFx m e)

/-- Bounds around 1, and just below 1. -/
def near1 : Fx := ⟨2 ^ fxP - 2 ^ (fxP - 28), 2 ^ fxP + 2 ^ (fxP - 28)⟩
def under1 : Fx := ⟨2 ^ fxP - 2 ^ (fxP - 40), 2 ^ fxP - 2 ^ (fxP - 40)⟩

/-- EXP. -/
def spExp (x : BitVec 32) : BitVec 32 × FpFlags :=
  match f32Val x with
  | .nan s => (f32Nan, if s then fpNV else 0)
  | .inf n => (if n then 0 else x, 0)
  | .fin n m e =>
    if m = 0 then (0x3F800000#32, 0)
    else if magBelow m e (-30) then nearestFx 0x10 x false near1
    else if magGe m e 105 then (let v : Val := .fin false 1 (if n then -300 else 300); nearest 0x10 x v v)
    else if n then nearestFx 0x10 x false (fxOne.div (fxExp m e))
    else nearestFx 0x10 x false (fxExp m e)

/-- LOG. -/
def spLog (x : BitVec 32) : BitVec 32 × FpFlags :=
  match f32Val x with
  | .nan s => (f32Nan, if s then fpNV else 0)
  | .inf n => if n then (f32Nan, fpNV) else (x, 0)
  | .fin n m e =>
    if m = 0 then (0xFF800000#32, 0)
    else if n then (f32Nan, fpNV)
    else if x = 0x3F800000#32 then (0, 0)
    else
      let (lo, hi) := fxLog m e
      nearest 0x11 x (fxVal (decide (lo < 0)) lo.natAbs) (fxVal (decide (hi < 0)) hi.natAbs)

/-- RCP. -/
def spRcp (x : BitVec 32) : BitVec 32 × FpFlags := toF32 0 false (vDiv (.fin false 1 0) (f32Val x))

/-- RSQRT. -/
def spRsqrt (x : BitVec 32) : BitVec 32 × FpFlags :=
  match f32Val x with
  | .nan s => (f32Nan, if s then fpNV else 0)
  | .inf n => if n then (f32Nan, fpNV) else (0, 0)
  | .fin n m e =>
    if m = 0 then (if n then 0xFF800000#32 else 0x7F800000#32, 0)
    else if n then (f32Nan, fpNV)
    else
      let m' := if e % 2 = 0 then m else 2 * m
      let e' : Int := if e % 2 = 0 then e else e - 1
      let q := 2 ^ 240 / m'
      let r := isqrt q
      toF32 0 false (.fin false (2 * r + (if r * r * m' = 2 ^ 240 then 0 else 1)) (-121 - e' / 2), 0)

/-- SQRT. -/
def spSqrt (x : BitVec 32) : BitVec 32 × FpFlags := toF32 0 false (vSqrt (f32Val x))

/-- TANH. -/
def spTanh (x : BitVec 32) : BitVec 32 × FpFlags :=
  match f32Val x with
  | .nan s => (f32Nan, if s then fpNV else 0)
  | .inf n => (if n then 0xBF800000#32 else 0x3F800000#32, 0)
  | .fin n m e =>
    if m = 0 then (x, 0)
    else if magBelow m e (-20) then
      -- x − x³/2 to x − x³/4
      let q := m * m * m
      let s := 2 ^ (-2 * e).toNat * m
      nearest 0x15 x (.fin n (4 * s - 2 * q) (3 * e - 2)) (.fin n (4 * s - q) (3 * e - 2))
    else if magGe m e 20 then nearestFx 0x15 x n under1
    else let g := fxExp m (e + 1); nearestFx 0x15 x n (g.subOne.div (g.addNat 1))

/-- SIGMOID. -/
def spSigmoid (x : BitVec 32) : BitVec 32 × FpFlags :=
  match f32Val x with
  | .nan s => (f32Nan, if s then fpNV else 0)
  | .inf n => (if n then 0 else 0x3F800000#32, 0)
  | .fin n m e =>
    if m = 0 then (0x3F000000#32, 0)
    else if magBelow m e (-30) then nearestFx 0x16 x false ⟨near1.lo / 2, near1.hi / 2⟩
    else if magGe m e 105 then (if n then (let v : Val := .fin false 1 (-300); nearest 0x16 x v v) else nearestFx 0x16 x false under1)
    else
      let g := fxExp m e
      if n then nearestFx 0x16 x false (fxOne.div (g.addNat 1)) else nearestFx 0x16 x false (g.div (g.addNat 1))

/-- ERF. -/
def spErf (x : BitVec 32) : BitVec 32 × FpFlags :=
  match f32Val x with
  | .nan s => (f32Nan, if s then fpNV else 0)
  | .inf n => (if n then 0xBF800000#32 else 0x3F800000#32, 0)
  | .fin n m e =>
    if m = 0 then (x, 0)
    else if magGe m e 5 then nearestFx 0x17 x n under1
    else let r := fxErf m e; nearest 0x17 x (.fin n (m * r.lo) (e - fxP)) (.fin n (m * r.hi) (e - fxP))

/-! ### F32 steps (R260) -/

def fAdd (a b : BitVec 32) : BitVec 32 × FpFlags := toF32 0 false (vAdd (f32Val a) (f32Val b))
def fNeg (a : BitVec 32) : BitVec 32 := a ^^^ 0x80000000#32
def fSub (a b : BitVec 32) : BitVec 32 × FpFlags := toF32 0 false (vAdd (f32Val a) (f32Val b).neg)
def fMul (a b : BitVec 32) : BitVec 32 × FpFlags := toF32 0 false (vMul (f32Val a) (f32Val b))
def fDiv (a b : BitVec 32) : BitVec 32 × FpFlags := toF32 0 false (vDiv (f32Val a) (f32Val b))
def fMulAdd (a b c : BitVec 32) : BitVec 32 × FpFlags := toF32 0 false (vFma (f32Val a) (f32Val b) (f32Val c))
def fMaxMin (isMax : Bool) (a b : BitVec 32) : BitVec 32 × FpFlags := toF32 0 false (vMinMax isMax (f32Val a) (f32Val b))

/-! ### The menu (R260) -/

/-- FN is assigned. -/
def fnKnown (fn : Nat) : Bool := decide (fn ≤ 0x1A)

/-- FN takes an operand b. -/
def fnBinary (fn : Nat) : Bool := [1, 2, 3, 4, 5, 6, 7, 9, 0x0A, 0x0E, 0x0F, 0x18].contains fn

/-- PREDGT and PREDGE. -/
def fnPred (fn : Nat) : Bool := fn == 0x0E || fn == 0x0F

/-- The cost of a function. -/
def fnCost (fn : Nat) : Nat := if fn < 0x10 then 1 else if fn ≤ 0x18 then 4 else if fn = 0x19 then 5 else 7

/-- A function of x, b and IMM: its value and flags (R260, R261). -/
def menuFn (fn : Nat) (x b imm : BitVec 32) : BitVec 32 × FpFlags :=
  let vx := f32Val x
  let vb := f32Val b
  if fn = 6 then fMaxMin true x b
  else if fn = 7 then fMaxMin false x b
  else if fn = 0x0A then
    let (m, f) := fMaxMin true x b
    let (r, g) := fMaxMin false m imm
    (r, f ||| g)
  else if vx.isNan || (fnBinary fn && vb.isNan) then
    (f32Nan, (if vx.isSnan || (fnBinary fn && vb.isSnan) then fpNV else 0) |||
      (if fn = 0x0D then (encodeFmt (imm.toNat % 16) 0 false 0 vx).2 else 0))
  else
    match fn with
    | 0x01 => fAdd x b
    | 0x02 => fSub x b
    | 0x03 => fSub b x
    | 0x04 => fMul x b
    | 0x05 => fMulAdd x b imm
    | 0x08 => (if vLt .zero vx then x else 0, 0)
    | 0x09 => if vLt vx .zero then fMul x b else (x, 0)
    | 0x0B => (x &&& 0x7FFFFFFF#32, 0)
    | 0x0C => (fNeg x, 0)
    | 0x0D =>
      let (c, f) := encodeFmt (imm.toNat % 16) 0 false 0 vx
      ((toF32 0 false (decodeFmt (imm.toNat % 16) c, 0)).1, f)
    | 0x18 => fDiv x b
    | 0x19 =>
      let (s, f) := spSigmoid x
      let (r, g) := fMul x s
      (r, f ||| g)
    | 0x1A =>
      let (u, f) := fMul x 0x3F3504F3#32
      let (v, g) := spErf u
      let (w, h) := fAdd 0x3F800000#32 v
      let (t, i) := fMul x w
      let (y, j) := fMul 0x3F000000#32 t
      (y, f ||| g ||| h ||| i ||| j)
    | 0x10 => spExp x
    | 0x11 => spLog x
    | 0x12 => spRcp x
    | 0x13 => spRsqrt x
    | 0x14 => spSqrt x
    | 0x15 => spTanh x
    | 0x16 => spSigmoid x
    | 0x17 => spErf x
    | _ => (x, 0)

/-- R262: the comparison of PREDGT or PREDGE; false with a NaN. -/
def predTest (fn : Nat) (x b : BitVec 32) : Bool :=
  let vx := f32Val x
  let vb := f32Val b
  !vx.isNan && !vb.isNan && (vLt vb vx || (fn == 0x0F && vEq vx vb))

end Sys2Proof.Machine
end

