-- ==== Sys2Proof/Machine/Points.lean ====
section
/-! DEFINITION. The Points (R286 to R308): SELECT, DISPATCH and COMBINE, their blocks, completion, and the revision of route tables. -/
set_option Elab.async false
namespace Sys2Proof.Machine

/-! ### The route descriptor and the route block (R288, R290) -/

structure RouteDesc where
  op : Nat
  overflow : Bool
  depth : Nat
  k : Nat
  gate : Nat
  sfmt : Nat
  scores : Nat
  e : Nat
  caps : Nat
  t : Nat
  cap : Nat
  rtable : Nat
  tagsMode : Bool
  skip : Nat
  exit : Bool
  rfmt : Nat
  sstride : Nat
  rowbytes : Nat
  exitThr : BitVec 32
  active : Nat
  conf : Nat
  route : Nat
  xstride : Nat
  ystride : Nat
  x : Nat
  disp : Nat
  exstride : Nat
  exout : Nat
  y : Nat
  tags : Nat
  ttfirst : Nat
  tt : Nat

def routeDescOf (l : List Word) : RouteDesc :=
  let g (i lo n : Nat) : Nat := bits (l.getD i 0).toNat lo n
  { op := g 0 62 2, overflow := bit (g 0 61 1) 0, depth := (if g 0 58 3 = 0 then 8 else g 0 58 3), k := g 0 54 4, gate := g 0 52 2,
    sfmt := g 0 48 4, scores := g 0 0 48, e := g 1 51 13, caps := g 1 0 48, t := g 2 44 20, cap := g 2 24 20, rtable := g 2 20 4,
    tagsMode := bit (g 2 19 1) 0, skip := g 2 17 2, exit := bit (g 2 16 1) 0, rfmt := g 2 12 4, sstride := g 3 32 32, rowbytes := g 3 0 32,
    exitThr := BitVec.ofNat 32 (g 4 32 32), active := g 5 0 48, conf := g 6 0 48, route := g 7 0 48, xstride := g 8 32 32, ystride := g 8 0 32,
    x := g 9 0 48, disp := g 10 0 48, exstride := g 11 32 32, exout := g 12 0 48, y := g 13 0 48, tags := g 14 0 48, ttfirst := g 15 52 12,
    tt := g 15 0 48 }

/-- R289, but for CAPSUM. -/
def RouteDesc.refused (q : RouteDesc) : Bool :=
  decide (q.op = 3) || decide (q.gate = 3) || decide (8 < q.k) || ! ([0, 1, 2, 7]).contains q.sfmt || !decide (q.rfmt ≤ 2) ||
  decide (q.e = 0) || decide (4096 < q.e) || decide (q.route = 0) || q.route % 64 != 0 ||
  (q.op != 0 && (q.rowbytes == 0 || q.rowbytes % 32 != 0)) || (q.op == 0 && q.tt != 0 && decide (4096 < q.ttfirst + 4 * q.e))

def up64 (n : Nat) : Nat := (n + 63) / 64 * 64

/-- Addresses of the parts of a route block. -/
structure RouteLay where
  counts : Nat
  offsets : Nat
  perm : Nat
  tokoff : Nat
  inv : Nat
  activeOut : Nat
  replicas : Nat

def routeLay (q : RouteDesc) (capsum : Nat) : RouteLay :=
  let offsets := q.route + up64 (4 * q.e)
  let perm := offsets + up64 (4 * (q.e + 1))
  let tokoff := perm + up64 (8 * capsum)
  let inv := tokoff + up64 (4 * (q.t + 1))
  let act := inv + up64 (4 * capsum)
  { counts := q.route, offsets := offsets, perm := perm, tokoff := tokoff, inv := inv, activeOut := act, replicas := act + up64 (8 * ((q.t + 63) / 64)) }

/-! ### Reads -/

/-- n numbers of b bytes each at an address. -/
def State.ptNums (s : State) (d : Nat) (tenant v va b n : Nat) : (List Nat ⊕ AccErr) × State :=
  match s.readBytes (.points d) tenant v va (b * n) with
  | (.inl l, s) => (.inl ((chunks b n l).map leNat), s)
  | (.inr e, s) => (.inr e, s)

/-- R288: each expert's capacity. -/
def State.ptCaps (s : State) (d : Nat) (tenant v : Nat) (q : RouteDesc) : (List Nat ⊕ AccErr) × State :=
  if q.caps = 0 then (.inl (List.replicate q.e q.cap), s) else s.ptNums d tenant v q.caps 4 q.e

def capSum (q : RouteDesc) (caps : List Nat) : Nat := caps.foldl (fun n c => n + min c q.t) 0

/-- One read of each of a list of addresses. -/
def State.ptRows (s : State) (d : Nat) (tenant v n : Nat) : List Nat → (List (List Byte) ⊕ AccErr) × State
  | [] => (.inl [], s)
  | a :: r =>
    match s.readBytes (.points d) tenant v a n with
    | (.inr e, s) => (.inr e, s)
    | (.inl b, s) =>
      match s.ptRows d tenant v n r with
      | (.inl l, s) => (.inl (b :: l), s)
      | (.inr e, s) => (.inr e, s)

/-! ### Selection (R292 to R294) -/

/-- Scores of a token by expert, as F32 values (R206, R207). -/
abbrev Scores := List (List (BitVec 32))

def ptScore (fmt code : Nat) : BitVec 32 := if fmt = 0 then BitVec.ofNat 32 code else (toF32 0 false (decodeFmt fmt code, 0)).1

def finiteF (x : BitVec 32) : Bool := let v := f32Val x; !v.isNan && !v.isInf

def scoreAt (sc : Scores) (t e : Nat) : BitVec 32 := (sc.getD t []).getD e 0

/-- a ranks above b: greater score, then lower index. -/
def ranksAbove (sa sb : BitVec 32) (ia ib : Nat) : Bool :=
  vLt (f32Val sb) (f32Val sa) || (!vLt (f32Val sa) (f32Val sb) && decide (ia < ib))

/-- Ranked by a strict order. -/
def rankBy (lt : Nat → Nat → Bool) (l : List Nat) : List Nat := l.foldr (insertBy lt) []

/-- An expert's ranking of its eligible tokens (R293). -/
def expertRank (sc : Scores) (elig : Nat → Nat → Bool) (t e : Nat) : List Nat :=
  rankBy (fun a b => ranksAbove (scoreAt sc a e) (scoreAt sc b e) a b) ((List.range t).filter (fun x => elig x e))

/-- A token's ranking of experts. -/
def tokenRank (sc : Scores) (x : Nat) (l : List Nat) : List Nat := rankBy (fun a b => ranksAbove (scoreAt sc x a) (scoreAt sc x b) a b) l

/-- Experts that hold a token. -/
def Sel.picks (z : Sel) (x : Nat) : List Nat := (z.held.zipIdx.filter (fun h => h.1.contains x)).map (·.2)

/-- Phase 2. -/
def expertChoice (sc : Scores) (elig : Nat → Nat → Bool) (t : Nat) (caps : List Nat) : Sel :=
  let rs := caps.zipIdx.map (fun (c, e) => (c, expertRank sc elig t e))
  { held := rs.map (fun r => r.2.take r.1), room := rs.map (fun r => r.1 - r.2.length), spill := rs.map (fun r => r.2.drop r.1) }

/-- Phase 3: a token keeps the K experts that it ranks highest. -/
def tokenLimit (sc : Scores) (k t : Nat) (z : Sel) : Sel :=
  if k = 0 then z
  else
    (List.range t).foldl (fun z x =>
      let p := z.picks x
      if p.length ≤ k then z
      else
        let out := (tokenRank sc x p).drop k
        { z with held := z.held.zipIdx.map (fun (h, e) => if out.contains e then h.filter (· != x) else h),
                 room := z.room.zipIdx.map (fun (r, e) => if out.contains e then r + 1 else r) }) z

/-- The expert to which a token proposes in this round. -/
def proposal (sc : Scores) (elig : Nat → Nat → Bool) (k ne : Nat) (z : Sel) (x : Nat) : Option Nat :=
  let p := z.picks x
  if (k ≠ 0 ∧ k ≤ p.length) ∨ !z.spill.any (fun l => l.contains x) then none
  else (tokenRank sc x ((List.range ne).filter (fun e => decide (0 < z.room.getD e 0) && elig x e && !p.contains e && !z.asked.contains (x, e)))).head?

/-- Phase 4: one round, if some token proposes. -/
def overflowRound (sc : Scores) (elig : Nat → Nat → Bool) (k ne t : Nat) (z : Sel) : Option Sel :=
  let props := (List.range t).filterMap (fun x => (proposal sc elig k ne z x).map (fun e => (x, e)))
  if props.isEmpty then none
  else
    let acc := (List.range ne).map (fun e =>
      (rankBy (fun a b => ranksAbove (scoreAt sc a e) (scoreAt sc b e) a b) ((props.filter (fun p => p.2 == e)).map (·.1))).take (z.room.getD e 0))
    some { z with held := (z.held.zip acc).map (fun h => h.1 ++ h.2), room := (z.room.zip acc).map (fun r => r.1 - r.2.length),
                  asked := z.asked ++ props }

/-! ### Gate weights (R295) -/

/-- EXP(s − m), with flags. -/
def expOf (sc : Scores) (x e : Nat) (m : BitVec 32) : BitVec 32 × FpFlags :=
  let (d, f) := fSub (scoreAt sc x e) m
  let (y, g) := spExp d
  (y, f ||| g)

/-- Weights of a token's picks, ascending by expert, with flags. -/
def gateWeights (gate : Nat) (sc : Scores) (x : Nat) (eligible picks : List Nat) : List (Nat × BitVec 32) × FpFlags :=
  if gate = 0 then (picks.map (fun e => (e, scoreAt sc x e)), 0)
  else
    let among := if gate = 1 then eligible else picks
    match (tokenRank sc x among).head? with
    | none => ([], 0)
    | some top =>
      let m := scoreAt sc x top
      let (sum, f) := among.foldl (fun (a, f) e =>
        let (y, g) := expOf sc x e m
        match a with
        | none => (some y, f ||| g)
        | some z => let (w, h) := fAdd z y; (some w, f ||| g ||| h)) ((none, 0) : Option (BitVec 32) × FpFlags)
      let ws := picks.map (fun e =>
        let (y, g) := expOf sc x e m
        let (w, h) := fDiv y (sum.getD 0)
        (e, w, g ||| h))
      (ws.map (fun w => (w.1, w.2.1)), ws.foldl (fun a w => a ||| w.2.2) f)

/-! ### SELECT (R290, R291, R294, R297) -/

/-- Bits as bytes, in whole 64-bit words. -/
def bitBytes (l : List Bool) : List Byte :=
  let n := (l.length + 63) / 64
  leBytes (8 * n) (l.foldr (fun b a => b2n b + 2 * a) 0)

def nums4 (l : List Nat) : List Byte := (l.map (leBytes 4)).flatten

/-- What selection gives. -/
structure Routing where
  counts : List Nat
  /-- PERM: token and weight of each position. -/
  perm : List (Nat × BitVec 32)
  /-- Positions of each token, in ascending expert order. -/
  inv : List (List Nat)
  live : List Bool
  exited : Nat
  unrouted : Nat
  nans : Nat
  flags : FpFlags

def runningSums : Nat → List Nat → List Nat
  | a, [] => [a]
  | a, n :: r => a :: runningSums (a + n) r

/-- Phase 1: an active token is exited. -/
def exitedAt (q : RouteDesc) (active : List Bool) (conf : List (BitVec 32)) (x : Nat) : Bool :=
  q.exit && active.getD x true &&
    (let c := f32Val (conf.getD x 0); !c.isNan && !(f32Val q.exitThr).isNan && !vLt c (f32Val q.exitThr))

def liveAt (q : RouteDesc) (active : List Bool) (conf : List (BitVec 32)) (x : Nat) : Bool := active.getD x true && !exitedAt q active conf x

/-- A token is eligible for an expert. -/
def eligAt (q : RouteDesc) (active : List Bool) (conf : List (BitVec 32)) (sc : Scores) (x e : Nat) : Bool :=
  liveAt q active conf x && finiteF (scoreAt sc x e)

/-- Phases 1 to 3. -/
def firstSel (q : RouteDesc) (caps : List Nat) (active : List Bool) (conf : List (BitVec 32)) (sc : Scores) : Sel :=
  tokenLimit sc q.k q.t (expertChoice sc (eligAt q active conf sc) q.t caps)

/-- The next overflow round, if one runs after `rounds` of them. -/
def nextSel (q : RouteDesc) (active : List Bool) (conf : List (BitVec 32)) (sc : Scores) (z : Sel) (rounds : Nat) : Option Sel :=
  if q.overflow ∧ rounds < q.depth then overflowRound sc (eligAt q active conf sc) q.k q.e q.t z else none

/-- What selection gives in the end. -/
def routingOf (q : RouteDesc) (active : List Bool) (conf : List (BitVec 32)) (sc : Scores) (z : Sel) : Routing :=
  let live := liveAt q active conf
  let elig := eligAt q active conf sc
  let held := z.held.map (fun l => rankBy (fun a b => decide (a < b)) l)
  let ws := (List.range q.t).map (fun x => gateWeights q.gate sc x ((List.range q.e).filter (elig x)) (z.picks x))
  let weight (x e : Nat) : BitVec 32 := match ((ws.getD x ([], 0)).1).find? (fun w => w.1 == e) with | some w => w.2 | none => 0
  let perm := (held.zipIdx.map (fun (l, e) => l.map (fun x => (x, weight x e)))).flatten
  let nans := sc.foldl (fun n r => n + (r.filter (fun x => (f32Val x).isNan)).length) 0
  { counts := held.map List.length, perm := perm,
    inv := (List.range q.t).map (fun x => (perm.zipIdx.filter (fun p => p.1.1 == x)).map (·.2)),
    live := (List.range q.t).map live, exited := ((List.range q.t).filter (exitedAt q active conf)).length,
    unrouted := ((List.range q.t).filter (fun x => live x && (z.picks x).isEmpty)).length,
    nans := nans, flags := ws.foldl (fun a w => a ||| w.2) (if nans = 0 then 0 else fpNV) }

/-- The route block's writes. -/
def blockWrites (q : RouteDesc) (lay : RouteLay) (r : Routing) (reps : List Nat) : List (Nat × List Byte) :=
  [(lay.counts, nums4 r.counts), (lay.offsets, nums4 (runningSums 0 r.counts)),
   (lay.perm, wordBytes (r.perm.map (fun p => p.1 + p.2.toNat * 2 ^ 32))),
   (lay.tokoff, nums4 (runningSums 0 (r.inv.map List.length))), (lay.inv, nums4 r.inv.flatten),
   (lay.activeOut, bitBytes r.live), (lay.replicas, (reps.take q.e).map (BitVec.ofNat 8))].filter (fun w => !w.2.isEmpty)

/-- Writes of a block: addresses, and for each byte the bits written and the byte. -/
abbrev PtWrites := List (Nat × List (Byte × Byte))

def wholeBytes (b : List Byte) : List (Byte × Byte) := b.map (fun x => (0xFF, x))

/-- R297: the rewritten fields of four Timetable entries of an expert; M is bits 63:44 of word 0, and bits 43:40 of its first byte are not
written. -/
def entryRewrite (q : RouteDesc) (e offset n reps : Nat) : PtWrites :=
  let c := (n + reps - 1) / reps
  ([0, 1, 2, 3].map (fun r =>
    let va := q.tt + 64 * (q.ttfirst + 4 * e + r)
    let start := min (r * c) n
    let rows := if r < reps then min ((r + 1) * c) n - start else 0
    let m := (va + 5, ([0xF0, 0xFF, 0xFF] : List Byte).zip (leBytes 3 (rows * 16)))
    if r < reps then
      [m, (va + 8, wholeBytes (leBytes 6 (q.disp + (offset + start) * q.rowbytes))), (va + 24, wholeBytes (leBytes 6 (q.exout + (offset + start) * q.exstride)))]
    else [m])).flatten

/-- R308: the ROUTE result word. -/
def routeResult (outcome reason unrouted exited flags nans : Nat) : Word :=
  BitVec.ofNat 64 (outcome * 2 ^ 60 + reason * 2 ^ 56 + unrouted % 2 ^ 20 * 2 ^ 36 + exited % 2 ^ 20 * 2 ^ 16 + flags * 2 ^ 12 + min nans 4095)

/-- The replica count and histogram of an expert (R302). -/
def State.rtable (s : State) (d n : Nat) : RTable := tget (s.die d).rtables n {}
def RTable.expert (r : RTable) (e : Nat) : Expert := tget r.ex e {}

/-- What a block does: its writes and the command after it, or the error of a read (R307). -/
abbrev PtBlock := (PtWrites × PtCmd ⊕ AccErr) × State

/-- The end of SELECT: the route block, the Timetable, the result. -/
def selectEnd (q : RouteDesc) (k : PtCmd) (z : Sel) : PtWrites × PtCmd :=
  let r := routingOf q k.active k.conf k.scores z
  let offs := runningSums 0 r.counts
  let tt := if q.tt = 0 then [] else
    ((List.range q.e).map (fun e => entryRewrite q e (offs.getD e 0) (r.counts.getD e 0) (k.reps.getD e 1))).flatten
  ((blockWrites q (routeLay q (capSum q k.caps)) r k.reps).map (fun w => (w.1, wholeBytes w.2)) ++ tt,
   { k with done := true, sel := some z, hist := some (q.rtable, r.counts),
            result := routeResult (if r.perm.isEmpty then 1 else 0) 0 r.unrouted r.exited r.flags.toNat r.nans })

/-- After phase 3 or a round: another round is a block of its own (R305), or the end. -/
def selectNext (q : RouteDesc) (k : PtCmd) (z : Sel) (rounds : Nat) : PtWrites × PtCmd :=
  if (nextSel q k.active k.conf k.scores z rounds).isSome then ([], { k with sel := some z, rounds := rounds, block := k.block + 1 })
  else selectEnd q { k with rounds := rounds, block := k.block + 1 } z

/-- Phase 1's reads: ACTIVE and CONF. -/
def State.selectHead (s : State) (d : Nat) (q : RouteDesc) (k : PtCmd) : (PtCmd ⊕ AccErr) × State :=
  match (if q.active = 0 then (.inl [], s) else s.readBytes (.points d) k.tenant k.vi q.active ((q.t + 7) / 8)) with
  | (.inr e, s) => (.inr e, s)
  | (.inl ab, s) =>
    match (if q.exit then s.ptNums d k.tenant k.vi q.conf 4 q.t else (.inl [], s)) with
    | (.inr e, s) => (.inr e, s)
    | (.inl conf, s) =>
      (.inl { k with active := (List.range q.t).map (fun x => q.active == 0 || bit (ab.getD (x / 8) 0).toNat (x % 8)), conf := conf.map (BitVec.ofNat 32) }, s)

/-- R305: the scores of up to 1,024 tokens. -/
def State.selectScores (s : State) (d : Nat) (q : RouteDesc) (k : PtCmd) : PtBlock :=
  let w := fmtBits q.sfmt / 8
  let lo := 1024 * k.block
  match s.ptRows d k.tenant k.vi (w * q.e) ((List.range (min 1024 (q.t - lo))).map (fun x => q.scores + (lo + x) * q.sstride)) with
  | (.inr e, s) => (.inr e, s)
  | (.inl rows, s) =>
    let k := { k with scores := k.scores ++ rows.map (fun b => (chunks w q.e b).map (fun c => ptScore q.sfmt (leNat c))) }
    if lo + 1024 < q.t then (.inl ([], { k with block := k.block + 1 }), s)
    else (.inl (selectNext q k (firstSel q k.caps k.active k.conf k.scores) 0), s)

/-- A block of SELECT: 1,024 tokens of phase 2, or an overflow round; with the last, its writes. -/
def State.selectBlock (s : State) (d : Nat) (q : RouteDesc) (k : PtCmd) : PtBlock :=
  match k.sel with
  | some z => (.inl (selectNext q k ((nextSel q k.active k.conf k.scores z k.rounds).getD z) (k.rounds + 1)), s)
  | none =>
    if k.block = 0 then
      match s.selectHead d q k with
      | (.inr e, s) => (.inr e, s)
      | (.inl k, s) => s.selectScores d q k
    else s.selectScores d q k

/-! ### DISPATCH and COMBINE (R299 to R301) -/

/-- The expert of each position. -/
def positionExperts (offs : List Nat) : List Nat :=
  ((offs.zip (offs.drop 1)).zipIdx.map (fun (p, e) => List.replicate (p.2 - p.1) e)).flatten

def State.readRoute (s : State) (d : Nat) (tenant v : Nat) (q : RouteDesc) (capsum : Nat) (all : Bool) : (RouteRead ⊕ AccErr) × State :=
  let lay := routeLay q capsum
  match s.ptNums d tenant v lay.offsets 4 (q.e + 1) with
  | (.inr e, s) => (.inr e, s)
  | (.inl offs, s) =>
  let total := min (offs.getD q.e 0) capsum
  match s.ptNums d tenant v lay.perm 8 total with
  | (.inr e, s) => (.inr e, s)
  | (.inl perm, s) =>
  let perm := perm.map (fun p => (p % 2 ^ 32, BitVec.ofNat 32 (p / 2 ^ 32)))
  if !all then (.inl { perm := perm, expert := positionExperts offs, inv := [], live := [] }, s)
  else
  match s.ptNums d tenant v lay.tokoff 4 (q.t + 1) with
  | (.inr e, s) => (.inr e, s)
  | (.inl to_, s) =>
  match s.ptNums d tenant v lay.inv 4 total with
  | (.inr e, s) => (.inr e, s)
  | (.inl inv, s) =>
  match s.readBytes (.points d) tenant v lay.activeOut ((q.t + 7) / 8) with
  | (.inr e, s) => (.inr e, s)
  | (.inl act, s) =>
    (.inl { perm := perm, expert := positionExperts offs,
            inv := (List.range q.t).map (fun x => (inv.drop (to_.getD x 0)).take (to_.getD (x + 1) 0 - to_.getD x 0)),
            live := (List.range q.t).map (fun x => bit (act.getD (x / 8) 0).toNat (x % 8)) }, s)

/-- R299: a tag. -/
def tagBytes (token expert : Nat) (w : BitVec 32) : List Byte := wordBytes [token % 2 ^ 20 * 2 ^ 44 + expert % 4096 * 2 ^ 32, w.toNat * 2 ^ 32]

/-- The command with its route block, read in its first block. -/
def State.withRoute (s : State) (d : Nat) (q : RouteDesc) (k : PtCmd) (all : Bool) : (RouteRead ⊕ AccErr) × State :=
  match k.route with
  | some r => (.inl r, s)
  | none => s.readRoute d k.tenant k.vi q (capSum q k.caps) all

/-- A block of DISPATCH: 128 pick positions. -/
def State.dispatchBlock (s : State) (d : Nat) (q : RouteDesc) (k : PtCmd) : PtBlock :=
  match s.withRoute d q k false with
  | (.inr e, s) => (.inr e, s)
  | (.inl r, s) =>
    let lo := 128 * k.block
    match s.ptRows d k.tenant k.vi q.rowbytes (((r.perm.drop lo).take 128).map (fun p => q.x + p.1 * q.xstride)) with
    | (.inr e, s) => (.inr e, s)
    | (.inl rows, s) =>
      let ws := rows.zipIdx.map (fun (b, i) =>
        let p := lo + i
        let m := r.perm.getD p (0, 0)
        (q.disp + p * q.rowbytes, wholeBytes b) :: (if q.tagsMode then [(q.tags + 16 * p, wholeBytes (tagBytes m.1 (r.expert.getD p 0) m.2))] else []))
      (.inl (ws.flatten, { k with route := some r, block := k.block + 1, done := decide (r.perm.length ≤ lo + 128) }), s)

/-- R300: the row that each tag claims for a pick position, and whether some tag is not used. -/
def claimTags (r : RouteRead) : Nat → List (Nat × Nat) → Tab Nat → Bool → Tab Nat × Bool
  | _, [], tab, bad => (tab, bad)
  | q, (token, expert) :: rest, tab, bad =>
    match (r.inv.getD token []).find? (fun p => r.expert.getD p 4096 == expert) with
    | some p => if thas tab p then claimTags r (q + 1) rest tab true else claimTags r (q + 1) rest (tset tab p q) bad
    | none => claimTags r (q + 1) rest tab true

/-- R301: a token's output row of n elements of RFMT from its weights and rows, with flags. -/
def combineRow (rfmt n : Nat) (l : List (BitVec 32 × List Byte)) : List Byte × FpFlags :=
  let w := fmtBits rfmt / 8
  let es := (List.range n).map (fun c =>
    let (a, f) := l.foldl (fun (a, f) t =>
      let v := decodeFmt rfmt (leNat ((t.2.drop (w * c)).take w))
      match a with
      | none => let (z, g) := a32First (f32Val t.1) v; (some z, f ||| g)
      | some y => let (z, g) := a32Fma y (f32Val t.1) v; (some z, f ||| g)) ((none, 0) : Option (BitVec 32) × FpFlags)
    let (code, g) := encodeFmt rfmt 0 false 0 (f32Val (a.getD 0))
    (leBytes w code, f ||| g))
  ((es.map (·.1)).flatten, es.foldl (fun a e => a ||| e.2) 0)

/-- The rows of COMBINE, token by token: writes, rows written under SKIP, flags. -/
def State.combineTokens (s : State) (d : Nat) (tenant v : Nat) (q : RouteDesc) (r : RouteRead) (row : Nat → Option Nat) :
    List Nat → (List (List (Nat × List Byte)) × Nat × FpFlags ⊕ AccErr) × State
  | [] => (.inl ([], 0, 0), s)
  | x :: rest =>
    let present := (r.inv.getD x []).filterMap (fun p => (row p).map (fun k => (p, k)))
    let out := q.y + x * q.ystride
    let this : (List (Nat × List Byte) × Nat × FpFlags ⊕ AccErr) × State :=
      if !r.live.getD x false then (.inl ([], 0, 0), s)
      else if present.isEmpty then
        (if q.skip = 2 then (.inl ([], 0, 0), s)
         else if q.skip = 1 then (.inl ([(out, List.replicate q.rowbytes 0)], 1, 0), s)
         else
          match s.readBytes (.points d) tenant v (q.x + x * q.xstride) q.rowbytes with
          | (.inl b, s) => (.inl ([(out, b)], 1, 0), s)
          | (.inr e, s) => (.inr e, s))
      else
        match s.ptRows d tenant v q.rowbytes (present.map (fun p => q.exout + p.2 * q.exstride)) with
        | (.inr e, s) => (.inr e, s)
        | (.inl rows, s) =>
          let (b, f) := combineRow q.rfmt (q.rowbytes / (fmtBits q.rfmt / 8)) ((present.map (fun p => (r.perm.getD p.1 (0, 0)).2)).zip rows)
          (.inl ([(out, b)], 0, f), s)
    match this with
    | (.inr e, s) => (.inr e, s)
    | (.inl (w, n, f), s) =>
      match s.combineTokens d tenant v q r row rest with
      | (.inr e, s) => (.inr e, s)
      | (.inl (ws, m, g), s) => (.inl (w :: ws, n + m, f ||| g), s)

/-- The first block of COMBINE reads every tag (R300). -/
def State.combineHead (s : State) (d : Nat) (q : RouteDesc) (k : PtCmd) (r : RouteRead) : (PtCmd ⊕ AccErr) × State :=
  if k.block ≠ 0 ∨ !q.tagsMode then (.inl k, s)
  else
    match s.ptNums d k.tenant k.vi q.tags 16 r.perm.length with
    | (.inr e, s) => (.inr e, s)
    | (.inl tags, s) =>
      let (tab, bad) := claimTags r 0 (tags.map (fun t => (bits t 44 20, bits t 32 12))) [] false
      (.inl { k with tags := tab, badTag := bad }, s)

/-- A block of COMBINE: 128 tokens. -/
def State.combineBlock (s : State) (d : Nat) (q : RouteDesc) (k : PtCmd) : PtBlock :=
  match s.withRoute d q k true with
  | (.inr e, s) => (.inr e, s)
  | (.inl r, s) =>
    match s.combineHead d q k r with
    | (.inr e, s) => (.inr e, s)
    | (.inl k, s) =>
      let lo := 128 * k.block
      let row (p : Nat) : Option Nat := if q.tagsMode then tget? k.tags p else some p
      match s.combineTokens d k.tenant k.vi q r row ((List.range (min 128 (q.t - lo))).map (lo + ·)) with
      | (.inr e, s) => (.inr e, s)
      | (.inl (ws, skipped, f), s) =>
        let k := { k with route := some r, block := k.block + 1, done := decide (q.t ≤ lo + 128), skipped := k.skipped + skipped, flags := k.flags ||| f }
        (.inl (ws.flatten.map (fun w => (w.1, wholeBytes w.2)),
          { k with result := routeResult (if k.badTag then 2 else 0) (if k.badTag then 2 else 0) k.skipped 0 k.flags.toNat 0 }), s)

/-! ### The command (R289, R302, R305 to R308) -/

/-- A ROUTE whose descriptor names one operation starts: refused, in error, or in progress; it waits while a command of its class is in
progress (R305).  One whose descriptor cannot be read, or whose OP is 3, starts as a SELECT. -/
def routeStart (s : State) (cmd : CmdRef) (op : Nat) : Out :=
  match s.rcmd? cmd with
  | none => .next s
  | some k0 =>
    let d0 := s.cmdDie cmd k0
    let named := match (s.readWords (.points d0) (s.vi cmd.p cmd.v).tenant cmd.v k0.desc 16).1 with
      | .inr _ => 0
      | .inl w => let q := routeDescOf w; if q.op = 3 then 0 else q.op
    if named ≠ op ∨ (s.die d0).ptCmds.any (fun k => k.cls == k0.cls) then .next s
    else startCmd s cmd 6 (fun k s =>
      let d := s.cmdDie cmd k
      let t := (s.vi cmd.p cmd.v).tenant
      let refuse (s : State) : State := s.finishCmd cmd 3 (refusedResult 6)
      let fail (s : State) : State := s.finishCmd cmd 2 (errResult 6)
      match s.readWords (.points d) t cmd.v k.desc 16 with
      | (.inr _, s) => fail s
      | (.inl w, s) =>
        let q := routeDescOf w
        if q.refused then refuse s
        else if (s.rtable d q.rtable).vi ≠ some cmd.v then refuse (s.event d cmd.v fltPointsTable 0x38 0)
        else
          match s.ptCaps d t cmd.v q with
          | (.inr _, s) => fail s
          | (.inl caps, s) =>
            if 2 ^ 24 - 1 < capSum q caps then refuse s
            else
              let tab := s.rtable d q.rtable
              let rec_ : PtCmd := { c := cmd, tenant := t, vi := cmd.v, cls := k.cls, deadline := k.deadline, desc := w, caps := caps,
                                    reps := (List.range q.e).map (fun e => (tab.expert e).reps), order := (s.pkg cmd.p).nextCmd }
              let s := s.modPkg cmd.p (fun x => { x with nextCmd := x.nextCmd + 1 })
              (s.modDie d (fun x => { x with ptCmds := x.ptCmds ++ [rec_] })).setWork cmd .route)

/-- ROUTE_SELECT (R294). -/
def execRouteSelect (cmd : CmdRef) (s : State) : Out := routeStart s cmd 0

/-- ROUTE_DISPATCH (R299). -/
def execRouteDispatch (cmd : CmdRef) (s : State) : Out := routeStart s cmd 1

/-- ROUTE_COMBINE (R301). -/
def execRouteCombine (cmd : CmdRef) (s : State) : Out := routeStart s cmd 2

def ptKey (k : PtCmd) : Nat × Nat × Nat := (k.cls, k.deadline, k.order)

/-- R305: the commands in progress whose next block may start. -/
def State.ptCands (s : State) (d : Nat) : List PtCmd := (s.die d).ptCmds.filter (fun k => !k.err && !k.done && !s.gated d k.cls)

def State.modPt (s : State) (d : Nat) (c : CmdRef) (f : PtCmd → PtCmd) : State :=
  s.modDie d (fun x => { x with ptCmds := x.ptCmds.map (fun k => if k.c == c then f k else k) })

/-- A block's writes are issued; one that its section does not take ends the command (R307). -/
def State.ptWrites (s : State) (d : Nat) (k : PtCmd) : PtWrites → State
  | [] => s
  | (va, b) :: r =>
    match s.writeVaBits (.points d) (.unitWrite k.c 0 0) k.tenant k.vi k.cls k.deadline va b with
    | (none, s) => s.ptWrites d k r
    | (some _, s) => s.modPt d k.c (fun k => { k with err := true })

/-- The next block of a command. -/
def State.ptBlock (s : State) (d : Nat) (k : PtCmd) : PtBlock :=
  let q := routeDescOf k.desc
  if q.op = 0 then s.selectBlock d q k else if q.op = 1 then s.dispatchBlock d q k else s.combineBlock d q k

/-- POINTS_BLOCK_START (R305, R307): the block's reads, then its writes; a read in error ends the command. -/
def execPointsBlockStart (die : BitVec 11) (s : State) : Out :=
  let d := die.toNat
  let x := s.die d
  if !s.dieUp d || !x.gate.getLsbD 0x38 then .next s
  else
    match arbitrate (·.cls) (fun a b => workLt (ptKey a) (ptKey b)) (fun a b => decide (a.order < b.order)) x.ptStreak (s.ptCands d) with
    | none => .next s
    | some (k, streak) =>
      let s := s.modDie d (fun x => { x with ptStreak := streak })
      match s.ptBlock d k with
      | (.inr _, s) => .next (s.modPt d k.c (fun k => { k with err := true }))
      | (.inl (ws, k'), s) => .next ((s.modPt d k.c (fun _ => k')).ptWrites d k' ws)

/-- R303: counts added to the histograms of a route table. -/
def addHist (r : RTable) (counts : List Nat) : RTable :=
  { r with ex := counts.zipIdx.foldl (fun ex (n, e) =>
      if n = 0 then ex else
      let x := tget ex e ({} : Expert)
      tset ex e { x with hist := BitVec.ofNat 32 (satAdd 32 x.hist.toNat n) }) r.ex }

/-- ROUTE_COMPLETE (R298, R303, R307): every block done, and every write acknowledged. -/
def execRouteComplete (cmd : CmdRef) (s : State) : Out :=
  match (List.range 8).findSome? (fun i => ((s.die (cmd.p * 8 + i)).ptCmds.find? (fun k => k.c == cmd)).map (fun k => (cmd.p * 8 + i, k))) with
  | none => .next s
  | some (d, k) =>
    if !s.dieUp d || (!k.err && !k.done) || s.cmdOut d cmd != 0 then .next s
    else
      let s := s.modDie d (fun x => { x with ptCmds := x.ptCmds.filter (fun e => e.c != cmd) })
      if k.err then .next (s.finishCmd cmd 2 (errResult 6))
      else
        let s := match k.hist with
          | some (t, counts) => s.modDie d (fun x => { x with rtables := tmap x.rtables (fun n r => if n = t then addHist r counts else r) })
          | none => s
        .next (s.finishCmd cmd (if bits k.result.toNat 60 4 = 0 then 0 else 1) k.result)

/-! ### Revision (R303, R304) -/

/-- R303: the replica counts of one granted table revised, and its histograms halved. -/
def revise (r : RTable) : RTable :=
  let hmax := r.ex.foldl (fun m e => max m e.2.hist.toNat) 0
  { r with ex := tmap r.ex (fun _ x =>
      let n := if hmax = 0 then 1 else min r.rmax (max 1 ((r.rmax * x.hist.toNat + hmax - 1) / hmax))
      { x with hist := x.hist / 2, reps := if x.pinned then x.reps else n }) }

/-- ROUTE_TABLE_REVISION (R303). -/
def execRouteTableRevision (pkg : BitVec 8) (s : State) : Out :=
  let p := pkg.toNat
  let k := s.pkg p
  if !s.pkgUp p || k.revMs == 0 || !after k.tick k.lastRev (k.revMs * tickMs) then .next s
  else
    let s := s.setPkg p { k with lastRev := k.tick }
    .next ((List.range 8).foldl (fun s i =>
      if s.dieUp (p * 8 + i) then s.modDie (p * 8 + i) (fun x => { x with rtables := tmap x.rtables (fun _ r => if r.vi.isSome then revise r else r) }) else s) s)

end Sys2Proof.Machine
end

