-- ==== Sys2Proof/Machine/Relay.lean ====
section
/-! DEFINITION. Messages between head Turjas (R403, R503, R540 to R544), and the ends of the waits that messages name (R132, R138, R350, R406,
R431, R442, R495, R512, R521, R527, R528, R558). -/
set_option Elab.async false
namespace Sys2Proof.Machine

/-! ### Relayed requests (R503) -/

/-- The messages that the catalogue marks R. -/
def relayable : List Msg :=
  [msgIdentify, msgPosition, msgNotices, msgReadings, msgMonitors, msgPackage, msgPort, msgRoutes, msgJunctions, msgCounters, msgUnits]

/-- The response to a relayed request, performed with PF rights at package t. -/
def State.relayPerform (s : State) (t : Nat) (req : List Byte) : State × List Byte :=
  let m : Mailbox := { ({} : Mailbox) with req := req }
  let rsp (st det : Nat) (body : List Byte) : List Byte := rspBytes m.cls m.code m.seq st det body true false
  if (s.die (headDie t)).swapping.isSome then (s, rsp stsBusy 0 [])
  else
    match relayable.find? (fun k => k.cls == m.cls && k.code == m.code) with
    | none => (s, rsp stsNoRight 0 [])
    | some k =>
      match s.runMsg k ⟨t, 0, .pf, m.body, true⟩ with
      | .answer s st det body => (s, rsp st det body)
      | .wait s _ => (s, rsp stsRetry 0 [])
      | .silent s => (s, rsp stsRetry 0 [])

/-- The sending mailbox takes the response of its relayed request. -/
def State.relayAnswer (s : State) (p b : Nat) (rsp : List Byte) : State :=
  if (s.mb p b).wait == .relay then s.answerMb p b (fld rsp 6 1) (fld rsp 8 4) ((rsp.take (fld rsp 4 2)).drop 16) true else s

/-- R503: a relayed request or its response is lost on the way. -/
def State.relayLost (s : State) (p b : Nat) : State :=
  if (s.mb p b).wait == .relay then s.modMb p b (fun m => { m with wait := .answer stsGone 0xFF [] }) else s

/-! ### Binding at the central station (R403) -/

/-- The mailboxes that wait for a bind of VI v. -/
def State.bindBoxes (s : State) (p v : Nat) : List Nat := ((s.pkg p).mbs.filter (fun e => e.2.wait == .bind v)).map (·.1)

/-- The answer of the central station reaches the package that asked. -/
def State.bindDone (s : State) (p v t : Nat) (ok : Bool) : State :=
  match (s.vi p v).binding with
  | none => if ok then s.unbindCentral p v t else s
  | some (ceiling, scrub, tenant, tokens, pool) =>
    if tenant ≠ t then (if ok then s.unbindCentral p v t else s)
    else
      let (s, st) := s.bindEnds p ⟨v, ceiling, scrub == 1, tenant, tokens, pool⟩ ok
      (s.bindBoxes p v).foldl (fun s b => s.answerMb p b st 0 [] false) s

/-- R544: the question or its answer is lost with the central station: the bind may be sent again. -/
def State.bindLost (s : State) (p v : Nat) : State :=
  let s := (s.bindBoxes p v).foldl (fun s b => s.modMb p b (fun m => { m with wait := .answer stsRetry 0 [] })) s
  s.modVi p v (fun x => { x with binding := none })

/-- R543: a package that joins steps its count forward once; later it drifts toward the central station's. -/
def alignTick (count : Nat) (k : Pkg) : Pkg :=
  if !k.joined then { k with tick := max k.tick count, joined := true, drift := min 0 ((count : Int) - (k.tick : Int)), lastAlign := count }
  else { k with drift := (count : Int) - (k.tick : Int), lastAlign := count }

/-! ### MGMT_PACKET -/

/-- What a head Turja does with a message that arrives from die `src`. -/
def State.takeMgmt (s : State) (d src : Nat) (m : MgmtMsg) : State :=
  let p := diePkg d
  let q := diePkg src
  match m with
  | .relayReq b req =>
    let (s, rsp) := s.relayPerform p req
    s.post (s.mgmt d src (.mgmt (.relayRsp b (rsp ++ List.replicate (256 - rsp.length) 0))))
  | .relayRsp b rsp => s.relayAnswer p b rsp
  | .register r =>
    let s := s.modPkg p (fun k => { k with joinAt := some (k.joinAt.getD k.tick) })
    (s.takeRegistration p r).elect p
  | .hold n => if n.toNat = p then s.holdPkg p else s
  | .tick count half => s.modPkg p (alignTick (count.toNat + half.toNat))
  | .bindAsk v t =>
    let k := s.pkg p
    let ok := k.central == some p && !k.bindings.contains (q * 4096 + t.toNat)
    let s := if ok then s.setPkg p { k with bindings := k.bindings ++ [q * 4096 + t.toNat] } else s
    s.post (s.mgmt d src (.mgmt (.bindAnswer v t ok)))
  | .bindAnswer v t ok => s.bindDone p v.toNat t.toNat ok
  | .unbound _ t => s.modPkg p (fun k => { k with bindings := k.bindings.filter (· != q * 4096 + t.toNat) })

/-- What the sender learns when a message is lost. -/
def State.lostMgmt (s : State) (d src : Nat) (m : MgmtMsg) : State :=
  match m with
  | .relayReq b _ => s.relayLost (diePkg src) b
  | .relayRsp b _ => s.relayLost (diePkg d) b
  | .bindAsk v _ => s.bindLost (diePkg src) v.toNat
  | .bindAnswer v _ _ => s.bindLost (diePkg d) v.toNat
  | _ => s

/-- R560: messages other than relayed requests wait in VC6 buffers while the head Turja swaps. -/
def State.mgmtWaits (s : State) (d : Nat) (m : MgmtMsg) : Bool :=
  (s.die d).swapping.isSome && (match m with | .relayReq _ _ => false | _ => true)

/-- MGMT_PACKET (R503, R540, R543, R403). -/
def execMgmtPacket (pk : Packet) (s : State) : Out :=
  match pk.body with
  | .mgmt m =>
    if s.mgmtWaits pk.dst m then .next s
    else match s.arriveMgmt pk with
    | .notNext s => .next s
    | .answered s => .next (s.lostMgmt pk.dst pk.src m)
    | .here s => .next (s.takeMgmt pk.dst pk.src m)
  | _ => .next s

/-! ### The ends of waits (R512) -/

/-- An address lies in one of some owned ranges. -/
def inRanges (rs : List (Nat × Nat)) (pa : Nat) : Bool := rs.any (fun r => decide (rangeLo r ≤ pa) && decide (pa < rangeHi r))

/-- The address of a request for memory. -/
def payloadPa : Payload → Option Nat
  | .rd pa _ => some pa.toNat
  | .wr pa _ _ _ => some pa.toNat
  | .wrBits pa _ _ => some pa.toNat
  | .amo pa .. => some pa.toNat
  | _ => none

def Held.pa? : Held → Option Nat
  | .store pa .. => some pa
  | .amo pa .. => some pa
  | .sig .. => none

/-- The addresses that a fetch which waits for a Platform queue entry was translated to. -/
def State.laneAddrs (s : State) (e : PqEntry) : List Nat :=
  match e.who with
  | .thread th i =>
    match (s.thread th.toNat).wait with
    | .gather _ _ _ lanes => (lanes.filter (fun l => l.lane == i)).map (·.pa)
    | .scatter _ lanes => (lanes.filter (fun l => l.lane == i)).map (·.pa)
    | _ => []
  -- a Shunter's fetch is translated when it takes its entry
  | .walk _ => []

/-- R138: a request translated under an old entry of the VI has not completed: among those noted at the change, still to leave, or waiting
aside for a miss register or a Platform queue entry. -/
def State.oldRequests (s : State) (p v : Nat) (rs : List (Nat × Nat)) (tags : List Nat) : Bool :=
  let t := (s.vi p v).tenant
  let hits (a : Option Nat) : Bool := match a with | some a => inRanges rs a | none => false
  tags.any (fun n => match tget? (s.die (n / 4096)).outst (n % 4096) with | some o => ofTenant t v o | none => false) ||
  s.threads.any (fun e => thDie e.1 / 8 == p && e.2.vi == v && e.2.st != .free && e.2.held.any (fun h => hits h.pa?)) ||
  s.clusters.any (fun c => clDie c.1 / 8 == p && (
    c.2.aside.any (fun a => a.tenant == t && a.vi == v && inRanges rs (a.line * 128)) ||
    c.2.pqWait.any (fun e => e.2.tenant == t && (s.laneAddrs e.2).any (inRanges rs)))) ||
  (List.range 8).any (fun i =>
    (s.die (p * 8 + i)).sendQ.any (fun e => ofTenant t v e.1 && hits (payloadPa e.2.body)))

/-- R350, R529: how the attempts at a port stand: up, dark, or still under way. -/
def retrainDone (x : Port) (never : Bool) : Option Bool :=
  match x.st with
  | .up => some true
  | .refused => some false
  | .fenced => some false
  | .dark => if never || x.retryAt.isNone || decide (3 ≤ x.attempts) then some false else none
  | .training => if never then some false else none

/-- R528, R559: a mask of dies. -/
def maskOf (l : List Nat) : Nat := (List.range 8).foldl (fun m i => if l.contains i then m + 2 ^ i else m) 0

/-- The end of a mailbox's wait, if it has come: status, DETAIL, body, and the state in which it is answered. -/
def State.waitEnds (s : State) (p b : Nat) : Option (State × Nat × Nat × List Byte) :=
  let m := s.mb p b
  match m.wait with
  | .viReturn v => if (s.vi p v).st == .resetting then none else some (s, stsOk, 0, [])
  | .sections rs tags =>
    if s.oldRequests p b rs tags then none else some (rs.foldl (fun s r => s.releaseRange r) s, stsOk, 0, [])
  | .abort r =>
    if (s.ring p b r).held.any (fun k => match k.result with | some (st, _) => st == 3 | none => false) then none else some (s, stsOk, 0, [])
  | .pin dies => if dies.any (fun i => s.dieUp (p * 8 + i) && (s.die (p * 8 + i)).subst.slewing) then none else some (s, stsOk, 0, [])
  | .hostRead =>
    if !s.linkUp p b then none
    else
      let image := s.hostRead p (fld m.body 8 8) (fld m.body 0 4)
      some (s.modPkg p (fun k => { k with staged := image }), stsOk, 0, [])
  | .commit =>
    let k := s.pkg p
    if k.fwState == .swapping then none
    else if k.swapFailed.isEmpty then some (s, stsOk, 0, []) else some (s, stsUnattainable, maskOf k.swapFailed, [])
  | .retrain n =>
    let d := n / 4
    let x := s.port d (n % 4)
    match (if s.dieUp d then retrainDone x (s.neverTrains p (dieNo d) (n % 4)) else some false) with
    | some true => some (s, stsOk, 0, packBody [(1, x.width)])
    | some false => some (s, stsUnattainable, 0, [])
    | none => none
  | .unitIn d u =>
    if s.dieUp d && (s.die d).returns.contains u then none
    else if s.dieUp d && s.unitIn d u then some (s, stsOk, 0, []) else some (s, stsUnattainable, 0, [])
  | .answer st det body => some (s, st, det, body)
  | .none => none
  | .perform => none
  | .cap .. => none
  | .bind _ => none
  | .relay => none

/-- WAITED_MESSAGE_REPLY (R512): none while the head Turja swaps (R528). -/
def execWaitedMessageReply (pkg : BitVec 8) (mb : BitVec 6) (s : State) : Out :=
  let p := pkg.toNat
  let b := mb.toNat
  if !s.mbPresent p b || !(s.mb p b).owned || (s.die (headDie p)).swapping.isSome then .next s
  else
    match s.waitEnds p b with
    | none => .next s
    | some (s, st, det, body) => .next (s.answerMb p b st det body false)

end Sys2Proof.Machine
end

