-- ==== Sys2Proof/Machine/Bringup.lean ====
section
/-! DEFINITION. Power-good and start-up (R533 to R538, R568 to R574), the station pins (R571, R577, R578), and PERST# (R582). -/
set_option Elab.async false
namespace Sys2Proof.Machine

/-! ### Power-good (R568, R569) -/

/-- What a package loses with its power: packets, host memory and other packages stay. -/
def State.losePkg (s : State) (p : Nat) : State :=
  let s := s.segsLost (fun c => diePkg (clDie c) == p)
  { s with
    pkgs := terase s.pkgs p,
    dies := s.dies.filter (fun e => diePkg e.1 != p),
    clusters := s.clusters.filter (fun e => diePkg (clDie e.1) != p),
    threads := s.threads.filter (fun e => diePkg (thDie e.1) != p),
    mem := s.mem.filter (fun c => !(decide (paSpace c.1 < 2) && diePkg (paDie c.1) == p)),
    poison := s.poison.filter (fun w => diePkg (paDie (w * 8)) != p) }

/-- R538: n drawn from the hardware random source, nonzero below a bound. -/
def State.drawEpoch (s : State) (bound : Nat) : Nat × State := let (v, s) := s.draw; (v.toNat % (bound - 1) + 1, s)

/-- A die at power-on: a random epoch, four dark ports, the ROM firmware. -/
def newDie (p : Nat) (epoch : Nat) : Die :=
  { ({} : Die) with epoch := BitVec.ofNat 8 epoch, rev := Config.romRevision, routes := [(p, 0xFE)], ports := (List.range 4).map (fun q => (q, ({} : Port))) }

/-- R533, R538: strap phase begins. -/
def State.powerOn (s : State) (p : Nat) : State :=
  let k := s.pkg p
  let s := s.losePkg p
  let (e, s) := s.drawEpoch (2 ^ 16)
  let s := s.setPkg p { ({} : Pkg) with phase := .strap, epoch := BitVec.ofNat 16 e, vis := freshVis false, perst0 := k.perst0, perst1 := k.perst1 }
  (List.range 8).foldl (fun s i =>
    let (e, s) := s.drawEpoch (2 ^ 8)
    s.setDie (p * 8 + i) (newDie p e)) s

/-- POWER_GOOD (R568). -/
def execPowerGood (pkg : BitVec 8) (s : State) : Out :=
  if (s.pkg pkg.toNat).phase == .off then .next (s.powerOn pkg.toNat) else .next s

/-- POWER_GOOD_LOSS (R569): all state is lost; the levels of the PERST# inputs are the tray's. -/
def execPowerGoodLoss (pkg : BitVec 8) (s : State) : Out :=
  let p := pkg.toNat
  let k := s.pkg p
  if k.phase == .off then .next s
  else .next ((s.losePkg p).setPkg p { ({} : Pkg) with perst0 := k.perst0, perst1 := k.perst1 })

/-- VIN_OVERVOLTAGE (R570): above 13.5 V for 10 µs: Substations, stacks and SerDes shut down; the beacon shows 0x41. -/
def execVinOvervoltage (pkg : BitVec 8) (mv us : Nat) (s : State) : Out :=
  let p := pkg.toNat
  if s.powered p && decide (13500 < mv) && decide (10 ≤ us) then
    let s := (List.range 8).foldl (fun s i => s.modDie (p * 8 + i) (fun x =>
      { x with subst := { x.subst with st := .shutDown, mv := 0, since := (s.pkg p).tick }, ports := darkPorts x.ports })) s
    .next (s.enterBeacon p 0x41)
  else .next s

/-! ### Straps (R572, R573) -/

/-- R573: the times of the five samples after power-good, in ms. -/
def sampleMs : List Nat := [1, 3, 8, 9, 10]

/-- STRAP_SAMPLE (R573): a pin between VIL and VIH is open or fought. -/
def execStrapSample (pkg : BitVec 8) (levels : List PinLevel) (s : State) : Out :=
  let p := pkg.toNat
  let k := s.pkg p
  let n := k.samples.length
  if k.phase == .strap && decide (n < 5) && after k.tick 0 (sampleMs.getD n 0 * tickMs) then
    .next (s.setPkg p { k with samples := k.samples ++ [levels], strapFault := k.strapFault || levels.contains .mid })
  else .next s

/-- STRAP_TEST (R573): from 5 ms each strap pin in turn, STN2 first, for 200 µs: a shift below 50 mV is a short, a crossed threshold an open. -/
def execStrapTest (pkg : BitVec 8) (pin : BitVec 4) (shiftMv : Nat) (crosses : Bool) (s : State) : Out :=
  let p := pkg.toNat
  let k := s.pkg p
  let n := pin.toNat
  if n < 2 ∨ 11 < n then .fault .noSuchUnit
  else if k.phase == .strap && n == 2 + k.tested.length && after k.tick 0 (5 * tickMs + (n - 2) * 200 * tickUs) then
    .next (s.setPkg p { k with tested := k.tested ++ [n], strapFault := k.strapFault || decide (shiftMv < 50) || crosses })
  else .next s

/-- R573: samples that disagree. -/
def unstable (l : List (List PinLevel)) : Bool := l.any (fun x => x != l.headD [])

/-- R572: a strapped field, bit 0 on pin STN(lo). -/
def strapField (levels : List PinLevel) (lo n : Nat) : Nat :=
  (List.range n).foldl (fun v i => if levels.getD (lo - 2 + i) .low == .high then v + 2 ^ i else v) 0

/-- R571 to R573, R535: the straps latched, or the safe defaults. -/
def latchStraps (k : Pkg) : Pkg :=
  let l := k.samples.headD []
  if k.strapFault || unstable k.samples then
    { k with strapFault := true, clean := false, lead := false, boot := false, rack := 0, tray := 0, slot := 0 }
  else
    { k with clean := true, lead := strapField l 2 1 == 1, boot := strapField l 3 1 == 1, slot := strapField l 4 2, tray := strapField l 6 4,
             rack := strapField l 10 2 }

/-- R536, R571, R577: run phase begins, with or without an image: two pulses, the heartbeat 1 ms after they end. -/
def State.beginRun (s : State) (p : Nat) (img : Option ImageInfo) : State :=
  let s := s.modPkg p (fun k => { k with phase := .run, since := k.tick, pulses := 2, stn3 := false, heartbeat := false, checkin := k.tick,
                                         beatAt := k.tick + tickMs + 4 * 10000 })
  let s := (List.range 8).foldl (fun s i => s.modDie (p * 8 + i) (fun x =>
    match x.subst.st with
    | .on => { x with rev := imageRev img }
    | .latchedOff => x
    | _ => { x with st := .resetting, cause := 2, resetAt := (s.pkg p).tick, rev := imageRev img })) s
  -- R368: junctions to dies that are not in service are fenced
  let s := (List.range 8).foldl (fun s i => if (s.die (p * 8 + i)).st == .inService then s else s.fenceNeighbours (p * 8 + i)) s
  match img with
  | some i => s.openPkg p i
  | none => s

/-- STRAP_LATCH (R573, R574, R582): at 10 ms; load phase, or with BOOT 1 run phase; the PCIe port of die 0 trains once the die has its rail,
unless PERST0# is low. -/
def execStrapLatch (pkg : BitVec 8) (s : State) : Out :=
  let p := pkg.toNat
  let k := s.pkg p
  if k.phase == .strap && k.samples.length == 5 && k.tested.length == 10 && after k.tick 0 (10 * tickMs) then
    let k := latchStraps k
    let s := s.setPkg p { k with link0 := k.perst0 && (s.die (headDie p)).subst.st == .on, since := k.tick }
    if k.boot && (s.die (headDie p)).subst.st == .on then .next (s.beginRun p none)
    else .next (s.modPkg p (fun k => { k with phase := .load, pulses := 1 }))
  else .next s

/-- IMAGE_LOADED (R534, R536): the image runs, or where it fails its check, or BOOT is 1, the ROM firmware waits for one; not before die 0's
Substation is on. -/
def execImageLoaded (pkg : BitVec 8) (img : ImageInfo) (s : State) : Out :=
  let p := pkg.toNat
  let k := s.pkg p
  if k.phase == .load && (s.die (headDie p)).subst.st == .on then .next (s.beginRun p (if img.ok && !k.boot then some img else none)) else .next s

/-! ### STN3 and the beacon (R577, R578) -/

/-- HEARTBEAT_TOGGLE (R577): every 500 ms, while the head Turja has checked in within the last 2 s. -/
def execHeartbeatToggle (pkg : BitVec 8) (s : State) : Out :=
  let p := pkg.toNat
  let k := s.pkg p
  if k.phase == .run && after k.tick k.beatAt 0 && decide (k.tick ≤ k.checkin + 2000 * tickMs) then
    .next (s.setPkg p { k with stn3 := !k.heartbeat || !k.stn3, heartbeat := true, beatAt := k.tick + 500 * tickMs })
  else .next s

/-- BEACON_QUARTER (R578): the next quarter of the cycle, every 250 ms. -/
def execBeaconQuarter (pkg : BitVec 8) (s : State) : Out :=
  let p := pkg.toNat
  let k := s.pkg p
  if k.phase == .beacon && after k.tick k.quarterAt 0 then
    .next (s.setPkg p { k with quarter := if k.quarter = 4 then 0 else (k.quarter + 1) % 4, quarterAt := k.tick + 250 * tickMs })
  else .next s

/-! ### PERST# (R582) -/

/-- PERST0_ASSERT (R582): after it has been high, a low of 100 µs or more resets the package without PRESERVE. -/
def execPerst0Assert (pkg : BitVec 8) (us : Nat) (s : State) : Out :=
  let p := pkg.toNat
  let was := (s.pkg p).perst0
  let s := s.modPkg p (fun k => { k with perst0 := false })
  if was && decide (100 ≤ us) then .next ((s.resetPkg p false false).modPkg p (fun k => { k with link0 := false })) else .next s

/-- The die 0 port may train: straps are latched, and die 0 has its rail; it stays down where the package does not start (R533, R534). -/
def State.port0 (s : State) (p : Nat) : Bool :=
  let k := s.pkg p
  k.phase != .off && k.phase != .strap && !(k.phase == .load && (s.die (headDie p)).subst.st != .on) && !(k.phase == .beacon && k.beacon == 0x21)

/-- PERST0_DEASSERT (R582): the die 0 port retrains. -/
def execPerst0Deassert (pkg : BitVec 8) (s : State) : Out :=
  .next (s.modPkg pkg.toNat (fun k => { k with perst0 := true, link0 := k.link0 || s.port0 pkg.toNat }))

/-- PERST1_ASSERT (R582, R466): a low of 100 µs or more resets the function of VI 16. -/
def execPerst1Assert (pkg : BitVec 8) (us : Nat) (s : State) : Out :=
  let p := pkg.toNat
  let was := (s.pkg p).perst1
  let s := s.modPkg p (fun k => { k with perst1 := false })
  if was && decide (100 ≤ us) && s.x8x8 p then
    let s := if s.pkgUp p then s.resetFunction p 16 (s.vi p 16).scrub false else s
    .next (s.modPkg p (fun k => { k with link4 := false }))
  else .next s

/-- PERST1_DEASSERT (R582): the die 4 port retrains. -/
def execPerst1Deassert (pkg : BitVec 8) (s : State) : Out :=
  let p := pkg.toNat
  .next (s.modPkg p (fun k => { k with perst1 := true, link4 := k.link4 || s.x8x8 p }))

/-! ### The station pins as they stand (R571) -/

inductive Pin where
  /-- High impedance: an input, or a pin at rest. -/
  | z
  | driven (high : Bool)
  /-- A line of the management bus, or of the flash. -/
  | bus
  deriving DecidableEq, Repr

/-- R571: FAULT# is asserted: some die is out of service or resetting, or the package resets. -/
def State.faultPin (s : State) (p : Nat) : Bool :=
  (s.pkg p).phase == .resetting || (List.range 8).any (fun i => (s.die (p * 8 + i)).st != .inService)

/-- R571, R578: the level of station pin n of a package. -/
def State.stn (s : State) (p n : Nat) : Pin :=
  let k := s.pkg p
  match k.phase with
  | .off => .z
  | .strap => .z
  | .load =>
    if n < 2 then .z else if n = 2 then .driven (!s.thermPin p) else if n = 3 then .driven k.stn3 else if n < 10 then .bus else .driven false
  | .beacon =>
    if n < 2 then .z
    else if n = 2 then .driven (k.beacon != 0x11 && k.beacon != 0x12)
    else if n = 3 then .driven true
    else if n = 5 then .driven true
    else if n < 8 then .driven false
    else if n < 10 then .driven (bit (k.quarter % 4) (n - 8))
    else .driven (bit k.beacon.toNat (2 * (k.quarter % 4) + (n - 10)))
  | _ =>
    if n < 2 then .bus
    else if n = 2 then .driven (!s.thermPin p)
    else if n = 3 then .driven (k.stn3 && k.phase == .run)
    else if n = 4 then .driven (!s.faultPin p)
    else if n = 5 then .driven k.tcEvents.isEmpty
    else .driven (n == 9)

end Sys2Proof.Machine
end

