-- ==== Sys2Proof/Machine/Epilogue.lean ====
section
/-! DEFINITION. What matrix units and Consists share: elements of stored rows (R204, R235), consist chains (R263 to R266), reductions (R246)
and fresh scales (R244). -/
set_option Elab.async false
namespace Sys2Proof.Machine

/-! ### Elements of stored rows (R204) -/

/-- Element c of a row of w-bit elements. -/
def elemAt (b : List Byte) (w c : Nat) : Nat := bits (leNat ((b.drop (w * c / 8)).take 9)) (w * c % 8) w

/-- Codes as bytes; bits past the last element are 0. -/
def packCodes (w : Nat) (l : List Nat) : List Byte := leBytes ((l.length * w + 7) / 8) (l.foldr (fun c n => c % 2 ^ w + 2 ^ w * n) 0)

/-- Bytes of one stored row of n elements. -/
def rowBytes (n w : Nat) : Nat := (n * w + 7) / 8

/-- Elements lo to lo + n − 1 of the row at an address. -/
def State.readElems (s : State) (u : XUnit) (tenant v va w lo n : Nat) : (List Nat ⊕ AccErr) × State :=
  let b0 := w * lo / 8
  match s.readBytes u tenant v (va + b0) ((w * (lo + n) + 7) / 8 - b0) with
  | (.inl b, s) => (.inl ((List.range n).map (fun i => bits (leNat ((b.drop (w * (lo + i) / 8 - b0)).take 9)) (w * (lo + i) % 8) w)), s)
  | (.inr e, s) => (.inr e, s)

/-- One read for each of a list of addresses. -/
def State.readRows {α : Type} (s : State) (f : State → Nat → (α ⊕ AccErr) × State) : List Nat → (List α ⊕ AccErr) × State
  | [] => (.inl [], s)
  | a :: r =>
    match f s a with
    | (.inr e, s) => (.inr e, s)
    | (.inl x, s) =>
      match s.readRows f r with
      | (.inl xs, s) => (.inl (x :: xs), s)
      | (.inr e, s) => (.inr e, s)

def transpose {α : Type} (d : α) (n : Nat) (l : List (List α)) : List (List α) := (List.range n).map (fun i => l.map (fun r => r.getD i d))

/-- A decoded element as an F32 value; a signalling NaN stays signalling (R206, R260). -/
def decF32 (fmt code : Nat) : BitVec 32 :=
  if fmt = 0 then BitVec.ofNat 32 code
  else
    match decodeFmt fmt code with
    | .nan true => 0x7FA00000#32
    | v => (toF32 0 false (v, 0)).1

/-! ### Chains (R263 to R265) -/

structure Chain8 where
  nstages : Nat
  tfmt : Nat
  vec0 : Nat
  vec1 : Nat
  tensor : Nat
  tstride : Nat
  stages : List Nat

def chainOf (w : List Word) : Chain8 :=
  let g (i lo n : Nat) : Nat := bits (w.getD i 0).toNat lo n
  { nstages := g 0 60 4, tfmt := g 0 56 4, vec0 := g 0 0 48, vec1 := g 1 0 48, tensor := g 2 0 48, tstride := g 3 32 32,
    stages := (List.range (min (g 0 60 4) 8)).map (fun k => g (8 + k) 0 64) }

def stFn (w : Nat) : Nat := bits w 56 8
def stSrc (w : Nat) : Nat := bits w 52 4
def stKeep (w : Nat) : Bool := bit w 51
def stImm (w : Nat) : BitVec 32 := BitVec.ofNat 32 w

/-- R265; SRC 6 needs a TFMT only where TENSOR is read. -/
def Chain8.bad (k : Chain8) (usesTfmt : Bool) : Bool :=
  decide (k.nstages = 0) || decide (8 < k.nstages) ||
  k.stages.any (fun w =>
    !fnKnown (stFn w) || fnPred (stFn w) ||
    (fnBinary (stFn w) && (stSrc w == 0 || decide (8 < stSrc w) || (stSrc w == 6 && usesTfmt && ! ([0, 1, 2, 3, 4, 8]).contains k.tfmt))) ||
    (stFn w == 0x0D && !(decide (1 ≤ (stImm w).toNat % 16) && decide ((stImm w).toNat % 16 ≤ 9))))

/-- A source is used by some binary stage. -/
def Chain8.uses (k : Chain8) (src : Nat) : Bool := k.stages.any (fun w => fnBinary (stFn w) && stSrc w == src)

/-- R259: beats of a pass over one tile. -/
def Chain8.beats (k : Chain8) : Nat := 128 * max 1 ((k.stages.foldl (fun n w => n + fnCost (stFn w)) 0 + 3) / 4)

/-- R267: beats of a pass fed by the matrix unit, whose TENSOR operand comes by a port of 256 bytes a beat. -/
def Chain8.passBeats (k : Chain8) : Nat := if k.uses 6 then max k.beats (16384 * (fmtBits k.tfmt / 8) / 256) else k.beats

/-- How results are rounded: mode, FLUSH, SEED, placement and STAGEFMT (R242). -/
structure Rounding where
  mode : Nat
  flush : Bool
  seed : Word
  stage : Bool
  stageFmt : Nat

/-- R219: the draw of ordinal n at stage s. -/
def Rounding.draw (r : Rounding) (n s : Nat) : Nat := srDraw r.seed (8 * n + s)

/-- R242, R264: the stages from number k on: x, H, flags. -/
def chainGo (r : Rounding) (operand : Nat → BitVec 32) (x0 : BitVec 32) (n : Nat) : Nat → BitVec 32 → BitVec 32 → FpFlags → List Nat → BitVec 32 × FpFlags
  | _, x, _, f, [] => (x, f)
  | k, x, h, f, w :: rest =>
    let b := match stSrc w with
      | 1 => stImm w
      | 7 => x0
      | 8 => h
      | q => operand q
    let (y, g) := menuFn (stFn w) x b (stImm w)
    let (y, g) :=
      if r.stage && !rest.isEmpty then
        let (c, e) := encodeFmt r.stageFmt r.mode r.flush (r.draw n k) (f32Val y)
        (decF32 r.stageFmt c, g ||| e)
      else (y, g)
    chainGo r operand x0 n (k + 1) y (if stKeep w then y else h) (f ||| g) rest

/-- A chain's result for one element, and its flags. -/
def Chain8.run (k : Chain8) (r : Rounding) (operand : Nat → BitVec 32) (x0 : BitVec 32) (n : Nat) : BitVec 32 × FpFlags :=
  chainGo r operand x0 n 0 x0 0 0 k.stages

/-- An operand that was read, or the address at which its read failed. -/
abbrev Got := BitVec 32 ⊕ Nat

def Got.value : Got → BitVec 32
  | .inl x => x
  | .inr _ => 0

def Got.failed : Got → Option Nat
  | .inl _ => none
  | .inr a => some a

/-- What a chain reads from memory for a tile: VEC0 and VEC1 by column and by row, and TENSOR, from the tile's first column and row. -/
structure ChainData where
  v0c : List Got := []
  v0r : List Got := []
  v1c : List Got := []
  v1r : List Got := []
  tens : List (List Got) := []

def ChainData.operand (d : ChainData) (i j : Nat) (src : Nat) : Got :=
  match src with
  | 2 => d.v0c.getD j (.inl 0)
  | 3 => d.v0r.getD i (.inl 0)
  | 4 => d.v1c.getD j (.inl 0)
  | 5 => d.v1r.getD i (.inl 0)
  | 6 => (d.tens.getD i []).getD j (.inl 0)
  | _ => .inl 0

/-- Some operand of the tile could not be read. -/
def ChainData.bad (d : ChainData) : Bool :=
  let any (l : List Got) : Bool := l.any (fun g => g.failed.isSome)
  any d.v0c || any d.v0r || any d.v1c || any d.v1r || d.tens.any any

/-- The address of the first operand, in stage order, that an element could not read. -/
def Chain8.failed (k : Chain8) (operand : Nat → Got) : Option Nat :=
  k.stages.findSome? (fun w => if fnBinary (stFn w) then (operand (stSrc w)).failed else none)

/-- Elements of one row, read together, and one by one where that fails. -/
def State.gotElems (s : State) (u : XUnit) (tenant v va fmt lo n : Nat) : List Got × State :=
  match s.readElems u tenant v va (fmtBits fmt) lo n with
  | (.inl l, s) => (l.map (fun c => .inl (decF32 fmt c)), s)
  | (.inr _, s) => (List.range n).foldl (fun (l, s) i =>
      match s.readElems u tenant v va (fmtBits fmt) (lo + i) 1 with
      | (.inl c, s) => (l ++ [.inl (decF32 fmt (c.headD 0))], s)
      | (.inr _, s) => (l ++ [.inr (va + (lo + i) * (fmtBits fmt / 8))], s)) (([] : List Got), s)

/-- F32 words of a vector, read when used. -/
def State.readVec (s : State) (u : XUnit) (tenant v : Nat) (use : Bool) (va lo n : Nat) : List Got × State :=
  if use then s.gotElems u tenant v va 0 lo n else ([], s)

/-- R266: the operands of a tile of nr rows from r0 and nc columns from c0. -/
def State.chainData (s : State) (u : XUnit) (tenant v : Nat) (k : Chain8) (r0 nr c0 nc : Nat) (tensor : Bool) : ChainData × State :=
  let (v0c, s) := s.readVec u tenant v (k.uses 2) k.vec0 c0 nc
  let (v0r, s) := s.readVec u tenant v (k.uses 3) k.vec0 r0 nr
  let (v1c, s) := s.readVec u tenant v (k.uses 4) k.vec1 c0 nc
  let (v1r, s) := s.readVec u tenant v (k.uses 5) k.vec1 r0 nr
  let (tens, s) := if tensor && k.uses 6 then
      (List.range nr).foldl (fun (l, s) i =>
        let (r, s) := s.gotElems u tenant v (k.tensor + (r0 + i) * k.tstride) k.tfmt c0 nc
        (l ++ [r], s)) (([] : List (List Got)), s)
    else ([], s)
  ({ v0c := v0c, v0r := v0r, v1c := v1c, v1r := v1r, tens := tens }, s)

/-! ### Reductions (R246, R279) -/

/-- One term of a reduction: 0 SUM, 1 MAX, 2 SUMSQ, 3 MIN. -/
def redTerm (op : Nat) (acc : Option (BitVec 32)) (x : BitVec 32) : BitVec 32 × FpFlags :=
  match acc with
  | none => match op with
    | 2 => a32First (f32Val x) (f32Val x)
    | 0 => toF32 0 false (f32Val x, if (f32Val x).isSnan then fpNV else 0)
    | _ => (x, 0)
  | some a => match op with
    | 0 => a32Add a (f32Val x)
    | 2 => a32Fma a (f32Val x) (f32Val x)
    | 1 => fMaxMin true a x
    | _ => fMaxMin false a x

/-- A reduction over values in order. -/
def reduce (op : Nat) (l : List (BitVec 32)) : Option (BitVec 32) × FpFlags :=
  l.foldl (fun (a, f) x => let (y, g) := redTerm op a x; (some y, f ||| g)) (none, 0)

/-- Partials combined: sums add, maxima take the maximum. -/
def redJoin (op : Nat) (acc : Option (BitVec 32)) (x : BitVec 32) : BitVec 32 × FpFlags :=
  match acc with
  | none => (x, 0)
  | some a => if op = 1 then fMaxMin true a x else fAdd a x

/-! ### Final encoding (R209, R243, R244) -/

/-- Codes of a group's row, its scales by 32-column slot, and flags; element c of the row has ordinal n + c, and s is the draw's stage. -/
def encodeRow (r : Rounding) (ofmt quant n s : Nat) (l : List Val) : List Nat × List Nat × FpFlags :=
  match quant with
  | 0 =>
    let es := l.zipIdx.map (fun (v, c) => encodeFmt ofmt r.mode r.flush (r.draw (n + c) s) v)
    (es.map (·.1), [], es.foldl (fun a e => a ||| e.2) 0)
  | 1 =>
    let (sc, es, f) := mxEncode ofmt r.mode r.flush (fun c => r.draw (n + c) s) l
    (es, List.replicate ((l.length + 31) / 32) sc, f)
  | _ =>
    let bs := (chunks 32 ((l.length + 31) / 32) l).zipIdx.map (fun (b, i) => mxEncode ofmt r.mode r.flush (fun c => r.draw (n + 32 * i + c) s) b)
    ((bs.map (fun b => b.2.1)).flatten, bs.map (·.1), bs.foldl (fun a b => a ||| b.2.2) 0)

end Sys2Proof.Machine
end

