-- ==== Sys2Proof/Machine/Matrix.lean ====
section
/-! DEFINITION. Matrix units (R229 to R257): MU_RUN, the Timetable, tiles and their accumulators, the output path, chained pairs, scheduling
between tiles, and completion. -/
set_option Elab.async false
namespace Sys2Proof.Machine

/-! ### Layouts (R232, R234, R240) -/

structure MuDesc where
  count : Nat
  table : Nat
  rmode : Nat
  flush : Bool
  guard : Bool
  gmap : Nat
  seed : Word
  profiles : Nat
  status : Nat
  cscale : BitVec 32
  cfunc : Nat
  cdiag : Int

def muDescOf (l : List Word) : MuDesc :=
  let g (i lo n : Nat) : Nat := bits (l.getD i 0).toNat lo n
  { count := g 0 51 13, table := g 0 0 48, rmode := g 1 62 2, flush := bit (g 1 61 1) 0, guard := bit (g 1 60 1) 0, gmap := g 1 0 48,
    seed := l.getD 2 0, profiles := g 3 0 48, status := g 4 0 48, cscale := BitVec.ofNat 32 (g 5 32 32), cfunc := g 5 28 4,
    cdiag := signed (g 6 32 32) 32 }

structure MuEntry where
  m : Nat
  n : Nat
  k : Nat
  chain : Bool
  atrans : Bool
  btrans : Bool
  afmt : Nat
  bfmt : Nat
  ofmt : Nat
  a : Nat
  b : Nat
  c : Nat
  lda : Nat
  ldb : Nat
  ldc : Nat
  aux : Nat
  ascale : Nat
  bscale : Nat

def muEntryOf (l : List Word) : MuEntry :=
  let g (i lo n : Nat) : Nat := bits (l.getD i 0).toNat lo n
  { m := g 0 44 20, n := g 0 28 16, k := g 0 8 20, chain := bit (g 0 3 1) 0, atrans := bit (g 0 2 1) 0, btrans := bit (g 0 1 1) 0,
    afmt := g 1 60 4, bfmt := g 1 56 4, ofmt := g 1 52 4, a := g 1 0 48, b := g 2 0 48, c := g 3 0 48,
    lda := 16 * g 4 43 21, ldb := 16 * g 4 22 21, ldc := 16 * g 4 1 21, aux := g 5 0 48, ascale := g 6 0 48, bscale := g 7 0 48 }

structure Prof where
  quant : Nat
  stage : Bool
  sumsq : Bool
  max_ : Bool
  sum : Bool
  rowred : Bool
  colred : Bool
  ovmap : Bool
  stageFmt : Nat
  consist : Nat

def profWord (w : Word) : Prof :=
  let n := w.toNat
  { quant := bits n 62 2, stage := bit n 61, sumsq := bit n 60, max_ := bit n 59, sum := bit n 58, rowred := bit n 57, colred := bit n 56,
    ovmap := bit n 55, stageFmt := bits n 52 3, consist := bits n 0 48 }

/-- R240: a profile is malformed by its own fields. -/
def Prof.bad (p : Prof) : Bool := p.quant == 3 || (p.stage && p.consist != 0 && p.stageFmt != 1 && p.stageFmt != 2)

/-- The reductions that a profile selects: 0 SUM, 1 MAX, 2 SUMSQ (R245's order). -/
def Prof.ops (p : Prof) : List Nat := [0, 1, 2].filter (fun o => if o = 0 then p.sum else if o = 1 then p.max_ else p.sumsq)

def muProf (k : MuCmd) (p : Nat) : Prof := profWord (k.profiles.getD (2 * p) 0)
def muChain (k : MuCmd) (p : Nat) : Option Chain8 := if (muProf k p).consist = 0 then none else some (chainOf (k.chains.getD p []))
def muRounding (k : MuCmd) (p : Prof) : Rounding :=
  let d := muDescOf k.desc
  { mode := d.rmode, flush := d.flush, seed := d.seed, stage := p.stage, stageFmt := p.stageFmt }

/-! ### Operand pairs (R230) -/

/-- A pair's accumulator (true: A40I) and K steps per beat as a ratio. -/
def operandPair (a b : Nat) : Option (Bool × Nat × Nat) :=
  let isFloat (x : Nat) : Bool := decide (x ≤ 6)
  if a = 9 ∧ b = 9 then some (true, 2, 1)
  else if (a = 8 ∨ a = 9) ∧ (b = 8 ∨ b = 9) then some (true, 1, 1)
  else if !isFloat a || !isFloat b then none
  else if a = 0 ∨ b = 0 then some (false, 1, 8)
  else if a ≤ 2 ∨ b ≤ 2 then some (false, 1, 2)
  else if a = 6 ∧ b = 6 then some (false, 2, 1)
  else if a ≠ 6 ∧ b ≠ 6 then some (false, 1, 1)
  else none

def isMx (f : Nat) : Bool := f == 5 || f == 6

/-- R244: Quantisation and output formats. -/
def outputOk (ofmt quant : Nat) : Bool :=
  if quant = 0 then [0, 1, 2, 7, 10, 3, 4, 8, 9].contains ofmt
  else [3, 4, 8, 9].contains ofmt || (quant == 2 && isMx ofmt)

/-! ### Commands in progress -/

def State.modMuCmd (s : State) (d : Nat) (c : CmdRef) (f : MuCmd → MuCmd) : State :=
  s.modDie d (fun x => { x with muCmds := x.muCmds.map (fun k => if k.c == c then f k else k) })

def State.muCmd? (s : State) (d : Nat) (c : CmdRef) : Option MuCmd := (s.die d).muCmds.find? (fun k => k.c == c)

def State.muFailed (s : State) (d : Nat) (c : CmdRef) : Bool := match s.muCmd? d c with | some k => k.err | none => false

/-- R255: the lowest malformed or failed entry. -/
def lowestEntry (k : MuCmd) (e reason : Nat) : Option (Nat × Nat) :=
  match k.entry with
  | some (f, r) => if f ≤ e then some (f, r) else some (e, reason)
  | none => some (e, reason)

/-- R256: the command ends in error; its entries in progress stop. -/
def State.muError (s : State) (d : Nat) (c : CmdRef) (e : Nat) : State :=
  let s := s.modMuCmd d c (fun k => { k with err := true, entry := lowestEntry k e 0 })
  s.modDie d (fun x => { x with mus := tmap x.mus (fun _ m => { m with item := m.item.filter (fun i => i.2.c != c), hold := m.hold.filter (fun h => h.2 != c) }) })

def muUnit (m : Nat) : Nat := 0x20 + m

/-! ### Operand panels (R235) -/

/-- The values of a group of x's (rows of A, columns of B): for each, its K values.  `byX` says the stored rows are the x's. -/
def State.panel (s : State) (u : XUnit) (tenant v fmt base stride : Nat) (byX : Bool) (x0 nx k scale : Nat) : (List (List Val) ⊕ AccErr) × State :=
  let w := fmtBits fmt
  let r : (List (List Nat) ⊕ AccErr) × State :=
    if byX then s.readRows (fun s i => s.readElems u tenant v (base + i * stride) w 0 k) ((List.range nx).map (x0 + ·))
    else
      match s.readRows (fun s i => s.readElems u tenant v (base + i * stride) w x0 nx) (List.range k) with
      | (.inl l, s) => (.inl (transpose 0 nx l), s)
      | e => e
  match r with
  | (.inr e, s) => (.inr e, s)
  | (.inl codes, s) =>
    if isMx fmt then
      match s.readRows (fun s i => s.readElems u tenant v (scale + i * (k / 32)) 8 0 (k / 32)) ((List.range nx).map (x0 + ·)) with
      | (.inr e, s) => (.inr e, s)
      | (.inl sc, s) => (.inl ((codes.zip sc).map (fun p => p.1.zipIdx.map (fun (c, i) => mxDecode fmt c (p.2.getD (i / 32) 127)))), s)
    else (.inl (codes.map (fun l => l.map (decodeFmt fmt))), s)

/-! ### Accumulators (R221 to R225, R237) -/

/-- The array contributes NV and OF only (R255). -/
def arrayFlags (f : FpFlags) : FpFlags := f &&& (fpNV ||| fpOF)

/-- An A32F sum of products in ascending k. -/
def dotF (a b : List Val) : BitVec 32 × FpFlags :=
  let r := (a.zip b).foldl (fun (acc, f) (x, y) =>
    match acc with
    | none => let (z, g) := a32First x y; (some z, f ||| g)
    | some c => let (z, g) := a32Fma c x y; (some z, f ||| g)) ((none, 0) : Option (BitVec 32) × FpFlags)
  (r.1.getD 0, arrayFlags r.2)

def valInt : Val → Int
  | .fin n m _ => if n then -(m : Int) else m
  | _ => 0

/-- An A40I sum in ascending k, and the K step of its first saturation. -/
def dotI (a b : List Val) : Int × Option Nat :=
  let r := (a.zip b).foldl (fun (acc, ov, k) (x, y) =>
    let (z, o) := a40Add acc (valInt x * valInt y)
    (z, (if o && ov.isNone then some k else ov), k + 1)) ((0, none, 0) : Int × Option Nat × Nat)
  (r.1, r.2.1)

/-- R228: every multiply of K step k has a zero operand, and none meets an infinity or a NaN. -/
def gatedStep (a b : List (List Val)) (k : Nat) : Bool :=
  let ca := a.map (fun r => r.getD k .zero)
  let cb := b.map (fun r => r.getD k .zero)
  let finite : List Val → Bool := fun l => l.all (fun v => !v.isNan && !v.isInf)
  (ca.all (·.isZero) && finite cb) || (cb.all (·.isZero) && finite ca)

/-- R228, R460: the beats of a product, and how many of them are gated. -/
def beatsOf (num den k : Nat) (a b : List (List Val)) : Nat × Nat :=
  let groups := (List.range ((k + num - 1) / num)).map (fun g =>
    ((List.range num).map (fun i => num * g + i)).all (fun i => decide (k ≤ i) || gatedStep a b i))
  (den * groups.length, den * (groups.filter id).length)

/-- Array beats of matrix unit m: their tokens (R49) and their activity (R460). -/
def State.chargeBeats (s : State) (d m tenant : Nat) (b : Nat × Nat) : State :=
  (((s.modDie d (fun x => spendTokens x (128 + m) b.1)).charge d tenant actMuBeat (b.1 - b.2)).charge d tenant actMuGated b.2)

/-- Consist beats of a pass that no array beat feeds: their tokens and their activity (log 33). -/
def State.chargeConsist (s : State) (d m tenant n : Nat) : State := (s.modDie d (fun x => spendTokens x (128 + m) n)).charge d tenant actConsist n

/-! ### Taking an entry (R231, R236, R248) -/

/-- The profile of group g of entry e (R241). -/
def State.groupProfs (s : State) (u : XUnit) (k : MuCmd) (e groups : Nat) : (List Nat ⊕ AccErr) × State :=
  let d := muDescOf k.desc
  if d.gmap = 0 then (.inl (List.replicate groups 0), s)
  else
    match s.readBytes u k.tenant k.vi (d.gmap + 512 * e) groups with
    | (.inl b, s) => (.inl (b.map (fun x => x.toNat % 4)), s)
    | (.inr e, s) => (.inr e, s)

/-- R236: why a single entry is malformed: 1 FORMAT, 2 SHAPE, 3 STRIDE, 4 SCALE; 0 for none. -/
def entryBad (e : MuEntry) (profs : List Prof) : Nat :=
  if (operandPair e.afmt e.bfmt).isNone || profs.any (fun p => !outputOk e.ofmt p.quant) then 1
  else if (isMx e.afmt || isMx e.bfmt) && e.k % 32 != 0 then 2
  else if e.lda < rowBytes (if e.atrans then e.m else e.k) (fmtBits e.afmt) || e.ldb < rowBytes (if e.btrans then e.k else e.n) (fmtBits e.bfmt) ||
      e.ldc < rowBytes e.n (fmtBits e.ofmt) then 3
  else if (isMx e.afmt && e.ascale == 0) || (isMx e.bfmt && e.bscale == 0) then 4
  else 0

/-- The format of P in a chained pair (R249). -/
def pFmt (p : Prof) (v : Nat) : Nat := if p.stage then v else 0

/-- R236, R248: why a chained pair is malformed (log 32). -/
def pairBad (e f : MuEntry) (p : Prof) : Nat :=
  if (operandPair e.afmt e.bfmt).isNone || (operandPair (pFmt p f.bfmt) f.bfmt).isNone || !outputOk f.ofmt p.quant then 1
  else if f.chain || f.m != e.m || f.k != e.n || decide (128 < f.n) || ((isMx e.afmt || isMx e.bfmt) && e.k % 32 != 0) ||
      (isMx f.bfmt && f.k % 32 != 0) then 2
  else if e.lda < rowBytes (if e.atrans then e.m else e.k) (fmtBits e.afmt) || e.ldb < rowBytes (if e.btrans then e.k else e.n) (fmtBits e.bfmt) ||
      f.ldb < rowBytes (if f.btrans then f.k else f.n) (fmtBits f.bfmt) || f.ldc < rowBytes f.n (fmtBits f.ofmt) then 3
  else if (isMx e.afmt && e.ascale == 0) || (isMx e.bfmt && e.bscale == 0) || (isMx f.bfmt && f.bscale == 0) then 4
  else 0

/-- The class of unit m is free for a command: nothing of the class in progress but entries of the command itself. -/
def State.muFree (s : State) (d m : Nat) (k : MuCmd) : Bool :=
  let x := s.mu d m
  s.unitOpen d (muUnit m) && !thas x.item k.cls && !thas x.cs k.cls &&
  (match tget? x.hold k.cls with
   | none => true
   | some h => h == k.c || !((s.die d).muCmds.any (fun e => e.c == h && !e.err && decide (e.next < (muDescOf e.desc).count))))

def entriesLeft (k : MuCmd) : Bool := !k.err && decide (k.next < (muDescOf k.desc).count)

/-- The commands of which unit m may take the next entry (R231: a lower-numbered free unit takes first). -/
def State.takers (s : State) (d m : Nat) : List MuCmd :=
  (s.die d).muCmds.filter (fun k => entriesLeft k && bit k.mask m && s.muFree d m k &&
    (tget? (s.mu d m).hold k.cls == some k.c ||
      !(s.mu d m).csWait.any (fun c => c.cls == k.cls && workLt (c.cls, c.deadline, c.order) (k.cls, k.deadline, k.order))) &&
    !(List.range m).any (fun j => bit k.mask j && s.muFree d j k))

def muBadEntry (k : MuCmd) (e reason : Nat) : MuCmd := { k with bad := true, entry := lowestEntry k e reason }

/-- An entry taken by unit m: malformed, empty, or in progress. -/
def State.takeEntry (s : State) (d m : Nat) (k : MuCmd) : State :=
  let u : XUnit := .mu d m
  let e := k.next
  let q := muDescOf k.desc
  let s := s.modMu d m (fun x => { x with hold := tset x.hold k.cls k.c })
  match s.readWords u k.tenant k.vi (q.table + 64 * e) 8 with
  | (.inr _, s) => s.muError d k.c e
  | (.inl w, s) =>
    let en := muEntryOf w
    if !en.chain then
      let s := s.modMuCmd d k.c (fun k => { k with next := e + 1 })
      if en.m = 0 ∨ en.n = 0 then s
      else
        match s.groupProfs u k e ((en.n + 127) / 128) with
        | (.inr _, s) => s.muError d k.c e
        | (.inl ps, s) =>
          let r := entryBad en (ps.map (muProf k))
          if r ≠ 0 then s.modMuCmd d k.c (fun k => muBadEntry k e r)
          else s.modMu d m (fun x => { x with item := tset x.item k.cls { c := k.c, entry := e, w := w, w2 := none, ps := ps } })
    else if q.count ≤ e + 1 then
      s.modMuCmd d k.c (fun k => let k := { k with next := e + 1 }; if en.m = 0 ∨ en.n = 0 then k else muBadEntry k e 2)
    else
      match s.readWords u k.tenant k.vi (q.table + 64 * (e + 1)) 8 with
      | (.inr _, s) => s.muError d k.c e
      | (.inl w2, s) =>
        let f := muEntryOf w2
        let s := s.modMuCmd d k.c (fun k => { k with next := e + 2 })
        if en.m = 0 ∨ en.n = 0 ∨ f.n = 0 then s
        else
          match s.groupProfs u k (e + 1) 1 with
          | (.inr _, s) => s.muError d k.c e
          | (.inl ps, s) =>
            let r := pairBad en f (muProf k (ps.headD 0))
            if r ≠ 0 then s.modMuCmd d k.c (fun k => muBadEntry k e r)
            else s.modMu d m (fun x => { x with item := tset x.item k.cls { c := k.c, entry := e, w := w, w2 := some w2, ps := ps } })

/-- MU_TAKE_ENTRY (R231, R236). -/
def execMuTakeEntry (die : BitVec 11) (mu : BitVec 2) (s : State) : Out :=
  let d := die.toNat
  let m := mu.toNat
  if !s.dieUp d then .next s
  else
    match minBy (fun a b => workLt (a.cls, a.deadline, a.order) (b.cls, b.deadline, b.order)) (s.takers d m) with
    | none => .next s
    | some k => .next (s.takeEntry d m k)

/-! ### The AUX region (R245) -/

/-- Where the parts of an entry's AUX region lie; the selected reductions in order. -/
structure AuxLay where
  row : Nat
  rops : List Nat
  col : Nat
  cops : List Nat
  ov : Nat

def align64 (n : Nat) : Nat := (n + 63) / 64 * 64

def auxLay (m n : Nat) (profs : List Prof) : AuxLay :=
  let rops := [0, 1, 2].filter (fun o => profs.any (fun p => p.rowred && p.ops.contains o))
  let cops := [0, 1, 2].filter (fun o => profs.any (fun p => p.colred && p.ops.contains o))
  let sc := if profs.any (fun p => p.quant != 0) then m * ((n + 31) / 32) else 0
  let row := align64 sc
  let col := align64 (row + 4 * m * rops.length)
  { row := row, rops := rops, col := col, cops := cops, ov := align64 (col + 4 * n * cops.length) }

/-! ### The output path (R239 to R246) -/

/-- What steps 1 to 3 hold of an element: its F32 value, and its exact integer where step 1 converts by saturation. -/
structure OutEl where
  f : BitVec 32
  direct : Option Int := none

def OutEl.val (x : OutEl) : Val := match x.direct with | some i => Val.ofInt i | none => f32Val x.f

/-- Where a tile stands: entry number and words, profile numbers of all groups, its first row and column and their numbers. -/
structure TileAt where
  e : Nat
  en : MuEntry
  ps : List Nat
  g : Nat
  r0 : Nat
  nr : Nat
  c0 : Nat
  nc : Nat

/-- Writes of a tile, in order: address, and for each byte the bits written and the byte. -/
abbrev TileWrites := List (Nat × List (Byte × Byte))

def selAll (b : List Byte) : List (Byte × Byte) := b.map (fun x => (0xFF, x))

def f32Bytes (l : List (BitVec 32)) : List Byte := (l.map (fun x => leBytes 4 x.toNat)).flatten

/-- Steps 2 to 4 of a tile's elements: final values, F32 values of step 3, codes and scales, and flags. -/
structure TileOut where
  codes : List (List Nat)
  scales : List (List Nat)
  f32s : List (List (BitVec 32))
  flags : FpFlags

def tileOut (k : MuCmd) (t : TileAt) (cd : ChainData) (acc : List (List OutEl)) : TileOut :=
  let pn := t.ps.getD t.g 0
  let p := muProf k pn
  let r := muRounding k p
  let ord (i : Nat) : Nat := t.e * 2 ^ 36 + (t.r0 + i) * t.en.n + t.c0
  let s := match muChain k pn with | some c => c.nstages - 1 | none => 0
  let rows : List (List OutEl × FpFlags) := acc.zipIdx.map (fun (l, i) =>
    match muChain k pn with
    | none => (l, 0)
    | some c =>
      let xs : List (BitVec 32 × FpFlags) := l.zipIdx.map (fun (x, j) => c.run r (fun q => (cd.operand i j q).value) x.f (ord i + j))
      (xs.map (fun y => ({ f := y.1 } : OutEl)), xs.foldl (fun a y => a ||| y.2) 0))
  let enc := rows.zipIdx.map (fun (l, i) => encodeRow r t.en.ofmt p.quant (ord i) s (l.1.map OutEl.val))
  { codes := enc.map (·.1), scales := enc.map (·.2.1), f32s := rows.map (fun l => l.1.map (·.f)),
    flags := rows.foldl (fun a l => a ||| l.2) (enc.foldl (fun a e => a ||| e.2.2) 0) }

/-- R246: the reductions of a tile joined to those of the item: row partials (by reduction × 2^20 + row of the block) and running
column values (by reduction × 65536 + column), with flags. -/
def tileReds (t : TileAt) (p : Prof) (o : TileOut) (it : MuItem) : MuItem × FpFlags :=
  let add (tab : Tab (BitVec 32)) (key op : Nat) (l : List (BitVec 32)) : Tab (BitVec 32) × FpFlags :=
    match reduce op l with
    | (none, f) => (tab, f)
    | (some x, f) => let (y, g) := redJoin op (tget? tab key) x; (tset tab key y, f ||| g)
  let rr := if !p.rowred then (it.rowRed, (0 : FpFlags)) else
    p.ops.foldl (fun a op => o.f32s.zipIdx.foldl (fun a (l, i) => let (tb, f) := add a.1 (op * 2 ^ 20 + i) op l; (tb, a.2 ||| f)) a) (it.rowRed, 0)
  let cols := transpose (0 : BitVec 32) t.nc o.f32s
  let cr := if !p.colred then (it.colRed, (0 : FpFlags)) else
    p.ops.foldl (fun a op => cols.zipIdx.foldl (fun a (l, j) => let (tb, f) := add a.1 (op * 65536 + t.c0 + j) op l; (tb, a.2 ||| f)) a) (it.colRed, 0)
  ({ it with rowRed := rr.1, colRed := cr.1 }, rr.2 ||| cr.2)

/-- The writes of a tile: rows of C, scales, running column reductions, and at the end of a tile row its row reductions. -/
def tileWrites (k : MuCmd) (t : TileAt) (o : TileOut) (it : MuItem) : TileWrites :=
  let p := muProf k (t.ps.getD t.g 0)
  let w := fmtBits t.en.ofmt
  let lay := auxLay t.en.m t.en.n (t.ps.map (muProf k))
  let outs := o.codes.zipIdx.map (fun (l, i) => (t.en.c + (t.r0 + i) * t.en.ldc + t.c0 * w / 8, selAll (packCodes w l)))
  if t.en.aux = 0 then outs
  else
    let scs := if p.quant = 0 then [] else
      o.scales.zipIdx.map (fun (l, i) => (t.en.aux + (t.r0 + i) * ((t.en.n + 31) / 32) + t.c0 / 32, selAll (l.map (BitVec.ofNat 8))))
    let cols := if !p.colred then [] else
      lay.cops.zipIdx.filterMap (fun (op, q) => if !p.ops.contains op then none else
        some (t.en.aux + lay.col + 4 * (q * t.en.n + t.c0), selAll (f32Bytes ((List.range t.nc).map (fun j => tget it.colRed (op * 65536 + t.c0 + j) 0)))))
    let rows := if t.c0 + t.nc < t.en.n then [] else
      lay.rops.zipIdx.map (fun (op, q) =>
        (t.en.aux + lay.row + 4 * (q * t.en.m + t.r0), selAll (f32Bytes ((List.range t.nr).map (fun i => tget it.rowRed (op * 2 ^ 20 + i) 0)))))
    outs ++ scs ++ cols ++ rows

/-- R245: the overflow map at the end of a tile row: the bits of groups with OVMAP; other bits keep what memory holds. -/
def ovWrites (k : MuCmd) (t : TileAt) (it : MuItem) : TileWrites :=
  let profs := t.ps.map (muProf k)
  if t.en.aux = 0 ∨ !profs.any (·.ovmap) ∨ t.c0 + t.nc < t.en.n then []
  else
    let lo := t.r0 * t.en.n
    let n := (t.nr * t.en.n + 7) / 8
    let el (q : Nat) : Nat × Nat := ((lo + q) / t.en.n, (lo + q) % t.en.n)
    let mine (q : Nat) : Bool := decide (q < t.nr * t.en.n) && (profs.getD ((el q).2 / 128) (profWord 0)).ovmap
    let byte (f : Nat → Bool) (y : Nat) : Byte := BitVec.ofNat 8 ((List.range 8).foldl (fun a b => a + b2n (f (8 * y + b)) * 2 ^ b) 0)
    [(t.en.aux + (auxLay t.en.m t.en.n profs).ov + lo / 8, (List.range n).map (fun y => (byte mine y, byte (fun q => mine q && it.ov.contains (el q)) y)))]

/-- A tile's writes are issued; an address that does not take them ends the command (R256). -/
def State.issueTile (s : State) (u : XUnit) (k : MuCmd) (e : Nat) : TileWrites → State
  | [] => s
  | (va, b) :: r =>
    match s.writeVaBits u (.unitWrite k.c e 0) k.tenant k.vi k.cls k.deadline va b with
    | (none, s) => s.issueTile u k e r
    | (some _, s) => s.muError u.die k.c e

/-- The chain's operands for a tile. -/
def State.tileChain (s : State) (u : XUnit) (k : MuCmd) (t : TileAt) : ChainData × State :=
  match muChain k (t.ps.getD t.g 0) with
  | none => ({}, s)
  | some c => s.chainData u k.tenant k.vi c t.r0 t.nr t.c0 t.nc true

/-- A tile leaves the accumulators: its writes, and the item with its reductions; the drain's beats are charged. -/
def State.drainTile (s : State) (d m : Nat) (k : MuCmd) (t : TileAt) (it : MuItem) (acc : List (List OutEl)) (extra : TileWrites) : Option MuItem × State :=
  let u : XUnit := .mu d m
  let (cd, s) := s.tileChain u k t
  if cd.bad then (none, s.muError d k.c it.entry)
  else
    let p := muProf k (t.ps.getD t.g 0)
    let o := tileOut k t cd acc
    let (it, rf) := tileReds t p o it
    let s := s.modMuCmd d k.c (fun k => { k with flags := k.flags ||| o.flags ||| rf })
    let s := s.charge d k.tenant actConsist (match muChain k (t.ps.getD t.g 0) with | some c => c.passBeats | none => 128)
    (some it, s.issueTile u k it.entry (tileWrites k t o it ++ ovWrites k t it ++ extra))

/-! ### A tile of a product (R229, R237, R247) -/

/-- An array result: A32F bits, or an A40I value with the K step of its first saturation. -/
structure AccOut where
  v : Int
  ov : Option Nat := none
  flags : FpFlags := 0

/-- R239 step 1, R227: an accumulator as the output path takes it. -/
def step1 (isInt direct : Bool) (r : Rounding) (n : Nat) (a : AccOut) : OutEl × FpFlags :=
  if !isInt then ({ f := BitVec.ofInt 32 a.v }, 0)
  else
    let (c, f) := encodeF fmtF32 r.mode false (r.draw n 0) (Val.ofInt a.v)
    if direct then ({ f := BitVec.ofNat 32 c, direct := some a.v }, 0) else ({ f := BitVec.ofNat 32 c }, f)

/-- The bank that the array fills (R229). -/
def fillBank (x : Mu) (acc : List Int) : Mu := if x.fill1 then { x with bank1 := acc, fill1 := false } else { x with bank0 := acc, fill1 := true }

/-- R247: the first overflow in order of entry, row and column. -/
def firstOv (k : MuCmd) (l : List (Nat × Nat × Nat × Nat)) : Option (Nat × Nat × Nat × Nat) :=
  let lt (a b : Nat × Nat × Nat × Nat) : Bool := workLt (a.1, a.2.1, a.2.2.1) (b.1, b.2.1, b.2.2.1)
  minBy lt (k.ovfFirst.toList ++ l)

/-- R247: overflows of a tile recorded. -/
def addOv (k : MuCmd) (l : List (Nat × Nat × Nat × Nat)) : MuCmd :=
  if l.isEmpty then k else { k with flagged := true, ovfCount := satAdd 24 k.ovfCount l.length, ovfFirst := firstOv k l }

/-- R226, R247: under FAULT a guard overflow raises FLT_ACC_GUARD and ends the command. -/
def State.guardFault (s : State) (d m : Nat) (k : MuCmd) (e : Nat) : State := (s.event d k.vi fltAccGuard (muUnit m) 0).muError d k.c e

/-- The item moves to its next tile, or its entry is done. -/
def State.nextTile (s : State) (d m cls : Nat) (it : MuItem) (en : MuEntry) (step : Nat) : State :=
  let wrap := decide (en.n ≤ 128 * (it.tc + step))
  let it := if wrap then { it with tr := it.tr + 1, tc := 0, rowRed := [], ov := [] } else { it with tc := it.tc + step }
  s.modMu d m (fun x => { x with item := if decide (en.m ≤ 128 * it.tr) then terase x.item cls else tset x.item cls it })

/-- One tile of a single product. -/
def State.runTile (s : State) (d m : Nat) (k : MuCmd) (it : MuItem) : State :=
  let u : XUnit := .mu d m
  let en := muEntryOf it.w
  let ps := it.ps
  match operandPair en.afmt en.bfmt with
  | none => s.muError d k.c it.entry
  | some (isInt, num, den) =>
    let r0 := 128 * it.tr
    let c0 := 128 * it.tc
    let t : TileAt := { e := it.entry, en := en, ps := ps, g := it.tc, r0 := r0, nr := min 128 (en.m - r0), c0 := c0, nc := min 128 (en.n - c0) }
    match s.panel u k.tenant k.vi en.afmt en.a en.lda (!en.atrans) r0 t.nr en.k en.ascale with
    | (.inr _, s) => s.muError d k.c it.entry
    | (.inl a, s) =>
      match s.panel u k.tenant k.vi en.bfmt en.b en.ldb en.btrans c0 t.nc en.k en.bscale with
      | (.inr _, s) => s.muError d k.c it.entry
      | (.inl b, s) =>
        let acc : List (List AccOut) := a.map (fun x => b.map (fun y =>
          if isInt then (let (v, o) := dotI x y; { v := v, ov := o }) else (let (v, f) := dotF x y; { v := (v.toNat : Int), flags := f })))
        let s := s.chargeBeats d m k.tenant (beatsOf num den en.k a b)
        let s := s.modMu d m (fun x => fillBank x (acc.flatten.map (·.v)))
        let ovs := (acc.zipIdx.map (fun (l, i) => l.zipIdx.filterMap (fun (x, j) => x.ov.map (fun q => (it.entry, r0 + i, c0 + j, q))))).flatten
        let s := s.modMuCmd d k.c (fun k => addOv { k with flags := acc.flatten.foldl (fun f x => f ||| x.flags) k.flags } ovs)
        if !ovs.isEmpty && (muDescOf k.desc).guard then s.guardFault d m k it.entry
        else
          let p := muProf k (ps.getD it.tc 0)
          let r := muRounding k p
          let direct := isInt && p.consist == 0 && p.quant == 0 && (en.ofmt == 8 || en.ofmt == 10)
          let els := acc.zipIdx.map (fun (l, i) => l.zipIdx.map (fun (x, j) => step1 isInt direct r (it.entry * 2 ^ 36 + (r0 + i) * en.n + c0 + j) x))
          let s := s.modMuCmd d k.c (fun k => { k with flags := els.flatten.foldl (fun f x => f ||| x.2) k.flags })
          let it := { it with ov := it.ov ++ ovs.map (fun o => (o.2.1, o.2.2.1)) }
          match s.drainTile d m k t it (els.map (fun l => l.map (·.1))) [] with
          | (none, s) => s
          | (some it, s) => if s.muFailed d k.c then s else s.nextTile d m k.cls it en 1

/-! ### A row block of a chained pair (R249, R250) -/

def f32NegInf : BitVec 32 := 0xFF800000#32

/-- A row's running state: m, l, o, whether a score was NaN, whether any element was unmasked, flags, and its p values. -/
structure AttnRow where
  m : BitVec 32 := f32NegInf
  l : BitVec 32 := 0
  o : List (BitVec 32)
  nan : Bool := false
  live : Bool := false
  flags : FpFlags := 0
  ps : List Val := []

/-- p of a score (R249): its value and flags. -/
def attnP (r : Rounding) (vfmt : Nat) (mnew s : BitVec 32) (n : Nat) : Val × FpFlags :=
  let (p, f) := if s = f32NegInf then (0, 0) else let (x, f) := fSub s mnew; let (y, g) := spExp x; (y, f ||| g)
  if r.stage then
    let (c, g) := encodeFmt vfmt r.mode r.flush (r.draw n 0) (f32Val p)
    (decodeFmt vfmt c, f ||| g)
  else (f32Val p, f)

/-- One tile column of a row: scores s, and V's values for each output column over the tile's rows. -/
def attnStep (r : Rounding) (vfmt n0 : Nat) (a : AttnRow) (ss : List (BitVec 32)) (vt : List (List Val)) : AttnRow :=
  let mx (x y : BitVec 32) : BitVec 32 := if (f32Val x).isNan || (f32Val y).isNan then f32Nan else (fMaxMin true x y).1
  let mnew := ss.foldl mx a.m
  let (c, cf) := if vEq (f32Val mnew) (f32Val a.m) then (0x3F800000#32, (0 : FpFlags))
    else let (x, f) := fSub a.m mnew; let (y, g) := spExp x; (y, f ||| g)
  let ps := ss.zipIdx.map (fun (s, j) => attnP r vfmt mnew s (n0 + j))
  let pv := ps.map (·.1)
  let (sum, sf) := pv.foldl (fun (acc, f) x =>
    match acc with
    | none => let (y, g) := toF32 0 false (x, 0); (some y, f ||| g)
    | some z => let (y, g) := a32Add z x; (some y, f ||| g)) ((none, 0) : Option (BitVec 32) × FpFlags)
  let (lc, f1) := fMul a.l c
  let (l, f2) := fAdd lc (sum.getD 0)
  let os := (a.o.zip vt).map (fun (o, v) =>
    let (d, g) := dotF pv v
    let (oc, g1) := fMul o c
    let (x, g2) := fAdd oc d
    (x, g ||| g1 ||| g2))
  { m := mnew, l := l, o := os.map (·.1), nan := a.nan || ss.any (fun s => (f32Val s).isNan), live := a.live,
    flags := os.foldl (fun f x => f ||| x.2) (ps.foldl (fun f x => f ||| x.2) (a.flags ||| cf ||| sf ||| f1 ||| f2)), ps := a.ps ++ pv }

/-- R250: element j of row i is masked. -/
def masked (q : MuDesc) (row : List Byte) (i j : Nat) : Bool :=
  (bit q.cfunc 0 && decide ((i : Int) + q.cdiag < (j : Int))) || (bit q.cfunc 1 && !bit (row.getD (j / 8) 0).toNat (j % 8))

/-- The scores of a tile column of one row: values, unmasked or not, and flags. -/
def attnScores (q : MuDesc) (mask : List Byte) (i j0 : Nat) (a : List Val) (b : List (List Val)) : List (BitVec 32 × Bool) × FpFlags :=
  let l := b.zipIdx.map (fun (y, j) =>
    let (s, f) := dotF a y
    let (s, g) := fMul s q.cscale
    if masked q mask i (j0 + j) then ((f32NegInf, false), f ||| g) else ((s, true), f ||| g))
  (l.map (·.1), l.foldl (fun f x => f ||| x.2) 0)

/-- A row through every tile column, then o / l; e is the pair's second entry (R243), and p's draws are those of a row of N1 elements, s = 0
(log 84). -/
def attnRow (q : MuDesc) (r : Rounding) (vfmt e i n1 n2 : Nat) (mask : List Byte) (a : List Val) (kt : List (List Val)) (v : List (List Val)) : AttnRow :=
  let tiles := List.range ((n1 + 127) / 128)
  let st := tiles.foldl (fun st jt =>
    let (ss, f) := attnScores q mask i (128 * jt) a ((kt.drop (128 * jt)).take 128)
    let st' := attnStep r vfmt (e * 2 ^ 36 + i * n1 + 128 * jt) { st with live := st.live || ss.any (·.2), flags := st.flags ||| f } (ss.map (·.1))
      (v.map (fun c => (c.drop (128 * jt)).take 128))
    st') ({ o := List.replicate n2 0 } : AttnRow)
  if st.nan then { st with o := List.replicate n2 f32Nan, flags := st.flags ||| fpNV }
  else if (f32Val st.l).isZero then { st with o := List.replicate n2 0 }
  else
    let os := st.o.map (fun x => fDiv x st.l)
    { st with o := os.map (·.1), flags := os.foldl (fun f x => f ||| x.2) st.flags }

/-- A row block leaves the accumulators under the second entry's profiles. -/
def State.endBlock (s : State) (d m : Nat) (k : MuCmd) (it : MuItem) (en fn : MuEntry) (ps : List Nat) (rows : List AttnRow) (v : List (List Val)) : State :=
  let r0 := 128 * it.tr
  let p := muProf k (ps.headD 0)
  let s := match operandPair (pFmt p fn.bfmt) fn.bfmt with
    | some (_, num, den) => s.chargeBeats d m k.tenant (beatsOf num den en.n (rows.map AttnRow.ps) v)
    | none => s
  let s := s.modMuCmd d k.c (fun k => { k with
    flags := rows.foldl (fun f x => f ||| x.flags) k.flags, emptyRows := satAdd 24 k.emptyRows (rows.filter (fun x => !x.live)).length })
  let s := s.modMu d m (fun x => fillBank x ((rows.map (fun x => x.o.map (fun b => (b.toNat : Int)))).flatten))
  let t : TileAt := { e := it.entry + 1, en := fn, ps := ps, g := 0, r0 := r0, nr := min 128 (en.m - r0), c0 := 0, nc := fn.n }
  let extra : TileWrites := if en.aux = 0 then [] else
    [(en.aux + 8 * r0, selAll (f32Bytes ((rows.map (fun x => [x.m, x.l])).flatten)))]
  match s.drainTile d m k t it (rows.map (fun x => x.o.map (fun b => ({ f := b } : OutEl)))) extra with
  | (none, s) => s
  | (some it, s) => if s.muFailed d k.c then s else s.nextTile d m k.cls it fn 1

/-- One row block of a chained pair. -/
def State.runBlock (s : State) (d m : Nat) (k : MuCmd) (it : MuItem) (w2 : List Word) : State :=
  let u : XUnit := .mu d m
  let q := muDescOf k.desc
  let en := muEntryOf it.w
  let fn := muEntryOf w2
  let r0 := 128 * it.tr
  let nr := min 128 (en.m - r0)
  let bad (s : State) : State := s.muError d k.c it.entry
  let ps := it.ps
  match s.panel u k.tenant k.vi en.afmt en.a en.lda (!en.atrans) r0 nr en.k en.ascale with
  | (.inr _, s) => bad s
  | (.inl a, s) =>
  match s.panel u k.tenant k.vi en.bfmt en.b en.ldb en.btrans 0 en.n en.k en.bscale with
  | (.inr _, s) => bad s
  | (.inl kt, s) =>
  match s.panel u k.tenant k.vi fn.bfmt fn.b fn.ldb fn.btrans 0 fn.n fn.k fn.bscale with
  | (.inr _, s) => bad s
  | (.inl v, s) =>
  match s.readRows (fun s i => if bit q.cfunc 1 then s.readBytes u k.tenant k.vi (en.c + i * 8 * ((en.n + 63) / 64)) (8 * ((en.n + 63) / 64)) else (.inl [], s))
      ((List.range nr).map (r0 + ·)) with
  | (.inr _, s) => bad s
  | (.inl masks, s) =>
    let p := muProf k (ps.headD 0)
    let r := muRounding k p
    let rows : List AttnRow := (a.zip masks).zipIdx.map (fun (x, i) => attnRow q r fn.bfmt (it.entry + 1) (r0 + i) en.n fn.n x.2 x.1 kt v)
    let s := match operandPair en.afmt en.bfmt with
      -- each tile column of scores is a tile of its own (R237)
      | some (_, num, den) => (List.range ((en.n + 127) / 128)).foldl (fun (s : State) jt =>
          s.chargeBeats d m k.tenant (beatsOf num den en.k a ((kt.drop (128 * jt)).take 128))) s
      | none => s
    s.endBlock d m k it en fn ps rows v

/-! ### Scheduling (R253, R254) -/

/-- The work that a matrix unit may begin between tiles. -/
structure MuCand where
  c : CmdRef
  cls : Nat
  deadline : Nat
  order : Nat
  consist : Bool

/-- Slot 0 of a CONSIST_RUN in tiles or iterations (R273). -/
def consistIters (k : CsCmd) : Nat :=
  let e (i : Nat) : Nat := bits ((k.slots.headD []).getD (2 + i) 0).toNat 40 24
  e 3 * e 2 * ((e 1 + 127) / 128) * ((e 0 + 127) / 128)

def State.muCands (s : State) (d m : Nat) : List MuCand :=
  let x := s.mu d m
  let items := x.item.filterMap (fun e =>
    match s.muCmd? d e.2.c with
    | some k => if k.err || s.gated d k.cls then none else some { c := k.c, cls := k.cls, deadline := k.deadline, order := k.order, consist := false }
    | none => none)
  let runs := x.cs.filterMap (fun e =>
    let k := e.2
    if k.reason != 0 || s.gated d k.cls || decide (consistIters k ≤ k.iter) then none
    else some { c := k.c, cls := k.cls, deadline := k.deadline, order := k.order, consist := true })
  items ++ runs

/-- The next tile of a matrix unit, and the new count of R254; none while a SINGLE iteration runs, while its unit is closed, or
without a token (R49, log 33). -/
def State.muNext (s : State) (d m : Nat) : Option (MuCand × Nat) :=
  let x := s.mu d m
  if !s.dieUp d || !s.unitRuns d (muUnit m) || x.cs.any (fun e => e.2.running) || !hasToken (s.die d) (128 + m) then none
  else
    let key (a : MuCand) : Nat × Nat × Nat := (a.cls, a.deadline, a.order)
    arbitrate (·.cls) (fun a b => workLt (key a) (key b)) (fun a b => decide (a.order < b.order)) x.streak (s.muCands d m)

/-- A tile is granted: the count, and a yield of the command before it (R255 PREEMPTS). -/
def State.grantTile (s : State) (d m : Nat) (k : MuCand) (streak : Nat) : State :=
  let x := s.mu d m
  let s := match x.last with
    | some l => if l ≠ k.c ∧ x.item.any (fun e => e.2.c == l) then s.modMuCmd d l (fun q => { q with preempts := satAdd 16 q.preempts 1 }) else s
    | none => s
  s.modMu d m (fun x => { x with streak := streak, last := some k.c })

/-- MU_TILE_START (R237, R253): the chosen tile, or row block, is performed. -/
def execMuTileStart (die : BitVec 11) (mu : BitVec 2) (s : State) : Out :=
  let d := die.toNat
  let m := mu.toNat
  match s.muNext d m with
  | none => .next s
  | some (k, streak) =>
    if k.consist then .next s
    else
      let s := s.grantTile d m k streak
      match s.muCmd? d k.c, (s.mu d m).item.find? (fun e => e.2.c == k.c) with
      | some q, some (_, it) =>
        (match it.w2 with
         | none => .next (s.runTile d m q it)
         | some w2 => .next (s.runBlock d m q it w2))
      | _, _ => .next s

/-! ### The command (R232, R233, R252, R255) -/

/-- The chain descriptors that profiles name: for each of the four, its words. -/
def State.readChains (s : State) (u : XUnit) (tenant v : Nat) (profs : List Word) : List Nat → (List (List Word) ⊕ AccErr) × State :=
  s.readRows (fun s p =>
    let c := (profWord (profs.getD (2 * p) 0)).consist
    if c = 0 then (.inl [], s) else s.readWords u tenant v c 16)

/-- R233, R240, R265. -/
def muRefused (q : MuDesc) : Bool := decide (q.count = 0) || decide (4096 < q.count) || decide (q.rmode = 3) || decide (3 < q.cfunc) || q.table % 64 != 0 || q.profiles % 64 != 0

def profsBad (profs : List Word) (chains : List (List Word)) : Bool :=
  (List.range 4).any (fun p =>
    let x := profWord (profs.getD (2 * p) 0)
    x.bad || (x.consist != 0 && (x.consist % 64 != 0 || (chainOf (chains.getD p [])).bad true)))

/-- MU_RUN (R231 to R233). -/
def execMuRun (cmd : CmdRef) (s : State) : Out :=
  startCmd s cmd 3 (fun k s =>
    let d := s.cmdDie cmd k
    let mask := bits (k.word 3) 56 4
    let m := ((List.range 4).find? (bit mask)).getD 0
    let u : XUnit := .mu d m
    let t := (s.vi cmd.p cmd.v).tenant
    let refuse (s : State) : State := s.finishCmd cmd 3 (refusedResult 3)
    let fail (s : State) : State := s.finishCmd cmd 2 (errResult 3)
    if mask = 0 then refuse s
    else
      match s.readWords u t cmd.v k.desc 8 with
      | (.inr _, s) => fail s
      | (.inl desc, s) =>
        let q := muDescOf desc
        if muRefused q then refuse s
        else
          match s.readWords u t cmd.v q.profiles 8 with
          | (.inr _, s) => fail s
          | (.inl profs, s) =>
            match s.readChains u t cmd.v profs [0, 1, 2, 3] with
            | (.inr _, s) => fail s
            | (.inl chains, s) =>
              if profsBad profs chains then refuse s
              else
                let rec_ : MuCmd := { c := cmd, tenant := t, vi := cmd.v, cls := k.cls, deadline := k.deadline, mask := mask, desc := desc, profiles := profs, chains := chains, order := (s.pkg cmd.p).nextCmd }
                let s := s.modPkg cmd.p (fun x => { x with nextCmd := x.nextCmd + 1 })
                let s := s.modDie d (fun x => { x with muCmds := x.muCmds ++ [rec_] })
                s.setWork cmd .mu)

/-- R255: the outcome, and the result word. -/
def muOutcome (k : MuCmd) : Nat := if k.err then 3 else if k.bad then 2 else if k.flagged then 1 else 0

def muResult (k : MuCmd) : Word :=
  let e := k.entry.getD (0, 0)
  BitVec.ofNat 64 (muOutcome k * 2 ^ 60 + e.2 % 16 * 2 ^ 56 + e.1 % 4096 * 2 ^ 44 + k.ovfCount * 2 ^ 20 + k.flags.toNat * 2 ^ 16)

/-- R255: the matrix status record. -/
def muStatus (k : MuCmd) : List Byte :=
  let (e, r, c, q) := k.ovfFirst.getD (0, 0, 0, 0)
  wordBytes [e % 4096 * 2 ^ 52 + r * 2 ^ 32 + c * 2 ^ 16, q * 2 ^ 44 + k.ovfCount * 2 ^ 20, k.emptyRows * 2 ^ 40 + k.preempts * 2 ^ 24, 0]

/-- A command has no entry in progress on any unit, and none left to take. -/
def State.muDone (s : State) (d : Nat) (k : MuCmd) : Bool :=
  k.err || (!entriesLeft k && (s.die d).mus.all (fun e => e.2.item.all (fun i => i.2.c != k.c)))

/-- MU_RUN_COMPLETE (R252, R255): with every write acknowledged the status record is written; with that acknowledged the command
completes. -/
def execMuRunComplete (cmd : CmdRef) (s : State) : Out :=
  match (List.range 8).findSome? (fun i => (s.muCmd? (cmd.p * 8 + i) cmd).map (fun k => (cmd.p * 8 + i, k))) with
  | none => .next s
  | some (d, k) =>
    if !s.dieUp d || !s.muDone d k || s.cmdOut d cmd != 0 then .next s
    else
      let st := (muDescOf k.desc).status
      if st ≠ 0 ∧ !k.statusSent then
        let m := ((List.range 4).find? (bit k.mask)).getD 0
        let s := s.modMuCmd d cmd (fun k => { k with statusSent := true })
        match s.writeVa (.mu d m) (.unitWrite cmd 4096 0) k.tenant k.vi k.cls k.deadline st (muStatus k) with
        | (none, s) => .next s
        | (some _, s) => .next (s.modMuCmd d cmd (fun k => { k with err := true }))
      else
        let s := s.setDie d (dropWork (fun c => c == cmd) (s.die d))
        .next (s.finishCmd cmd (match muOutcome k with | 0 => 0 | 1 => 1 | 2 => 1 | _ => 2) (muResult k))

end Sys2Proof.Machine
end

