-- ==== Sys2Proof/Machine/Consist.lean ====
section
/-! DEFINITION. CONSIST_RUN (R270 to R285): run and tensor descriptors, CHAIN passes, SINGLE iterations and their instructions, saves, and
completion. -/
set_option Elab.async false
namespace Sys2Proof.Machine

/-! ### Descriptors (R271, R272, R277) -/

structure RunDesc where
  single : Bool
  rmode : Nat
  flush : Bool
  stage : Bool
  stageFmt : Nat
  len : Nat
  prog : Nat
  seed : Word
  slots : List Nat
  save : Nat
  counts : Nat

def runOf (l : List Word) : RunDesc :=
  let g (i lo n : Nat) : Nat := bits (l.getD i 0).toNat lo n
  { single := bit (g 0 63 1) 0, rmode := g 0 61 2, flush := bit (g 0 60 1) 0, stage := bit (g 0 59 1) 0, stageFmt := g 0 56 3,
    len := g 0 48 8, prog := g 0 0 48, seed := l.getD 1 0, slots := [2, 3, 4, 5].map (fun i => g i 0 48), save := g 6 0 48, counts := g 7 0 48 }

def RunDesc.rounding (r : RunDesc) : Rounding := { mode := r.rmode, flush := r.flush, seed := r.seed, stage := r.stage, stageFmt := r.stageFmt }

structure Tensor where
  fmt : Nat
  base : Nat
  scale : Nat
  ext : List Nat
  stride : List Int

def tensorOf (l : List Word) : Tensor :=
  let g (i lo n : Nat) : Nat := bits (l.getD i 0).toNat lo n
  { fmt := g 0 60 4, base := g 0 0 48, scale := g 1 0 48, ext := [2, 3, 4, 5].map (fun i => g i 40 24),
    stride := [2, 3, 4, 5].map (fun i => signed (g i 0 40) 40) }

def Tensor.e (t : Tensor) (i : Nat) : Nat := t.ext.getD i 1
def Tensor.st (t : Tensor) (i : Nat) : Int := t.stride.getD i 0
def Tensor.sub (t : Tensor) : Bool := t.fmt == 5 || t.fmt == 6 || t.fmt == 9

/-- R274: a descriptor that refuses the command. -/
def Tensor.bad (t : Tensor) : Bool :=
  decide (9 < t.fmt) || (isMx t.fmt && t.scale == 0) || (t.sub && decide (t.st 0 ≠ (Config.packStride t.fmt).toInt))

/-- Coordinates c0 to c3. -/
abbrev Coord := Nat × Nat × Nat × Nat

def Tensor.inside (t : Tensor) (c : Coord) : Bool :=
  decide (c.1 < t.e 0) && decide (c.2.1 < t.e 1) && decide (c.2.2.1 < t.e 2) && decide (c.2.2.2 < t.e 3)

/-- R273: the ordinal of an element, which is its place in the flat sequence (R280). -/
def Tensor.ordinal (t : Tensor) (c : Coord) : Nat := c.1 + t.e 0 * (c.2.1 + t.e 1 * (c.2.2.1 + t.e 2 * c.2.2.2))

def Tensor.coordOf (t : Tensor) (n : Nat) : Coord :=
  (n % t.e 0, n / t.e 0 % t.e 1, n / t.e 0 / t.e 1 % t.e 2, n / t.e 0 / t.e 1 / t.e 2)

def Tensor.capacity (t : Tensor) : Nat := t.e 0 * t.e 1 * t.e 2 * t.e 3

/-- An address as a virtual address; one outside the 48 bits translates nowhere. -/
def vaInt (i : Int) : Nat := if i < 0 then 2 ^ 48 else i.toNat

/-- The byte address of an element and its bit offset there (R204, R272). -/
def Tensor.addr (t : Tensor) (c : Coord) : Nat × Nat :=
  let row : Int := t.base + c.2.1 * t.st 1 + c.2.2.1 * t.st 2 + c.2.2.2 * t.st 3
  if t.sub then (let b := fmtBits t.fmt * c.1; (vaInt (row + (b / 8 : Nat)), b % 8)) else (vaInt (row + c.1 * t.st 0), 0)

/-- The address of an element's scale (R205, log 34). -/
def Tensor.scaleAddr (t : Tensor) (c : Coord) : Nat :=
  t.scale + ((t.e 0 + 31) / 32) * (c.2.1 + t.e 1 * (c.2.2.1 + t.e 2 * c.2.2.2)) + c.1 / 32

structure CsInstr where
  op : Nat
  d : Nat
  a : Nat
  b : Nat
  src : Nat
  fn : Nat
  imm : BitVec 32

def csInstrOf (w : Word) : CsInstr :=
  let n := w.toNat
  { op := bits n 56 8, d := bits n 52 4, a := bits n 48 4, b := bits n 44 4, src := bits n 40 4, fn := bits n 32 8, imm := BitVec.ofNat 32 n }

/-- R277: a malformed instruction. -/
def CsInstr.bad (i : CsInstr) : Bool :=
  let reg (n : Nat) : Bool := decide (n ≤ 3)
  match i.op with
  | 3 => !reg i.d || !reg i.a || !fnKnown i.fn || ! ([0, 1, 9, 10, 11]).contains i.src || (decide (9 ≤ i.src) && !reg i.b) ||
      (fnBinary i.fn && i.src == 0) || (i.fn == 0x0D && !(decide (1 ≤ i.imm.toNat % 16) && decide (i.imm.toNat % 16 ≤ 9)))
  | 4 => !reg i.d || !reg i.a || decide (3 < i.fn)
  | 6 => !reg i.d || !reg i.a || !reg i.b
  | 7 => !reg i.a
  | 8 => !reg i.d
  | op => !(op == 1 || op == 2 || op == 5) || !reg i.d || !reg i.a

/-- The slots that an instruction names. -/
def CsInstr.slots (i : CsInstr) : List Nat :=
  match i.op with
  | 1 => [i.a] | 2 => [i.d] | 5 => [i.d] | 6 => [i.a, i.b] | 7 => [i.a] | 8 => [i.d] | _ => []

/-- The slots that a command uses (R275, R273). -/
def usedSlots (r : RunDesc) (prog : List Word) : List Nat :=
  if r.single then 0 :: ((prog.map (fun w => (csInstrOf w).slots)).flatten.eraseDups)
  else if (chainOf prog).uses 6 then [0, 1, 2] else [0, 2]

/-! ### The command in its matrix unit -/

def State.modCs (s : State) (d m cls : Nat) (f : CsCmd → CsCmd) : State :=
  s.modMu d m (fun x => { x with cs := tmap x.cs (fun n k => if n = cls then f k else k) })

/-- R253: a waiting CONSIST_RUN takes its class when that is free, the earliest deadline first. -/
def admitCs (cmds : List MuCmd) (x : Mu) : Mu :=
  [0, 1, 2].foldl (fun x cls =>
    let held := match tget? x.hold cls with
      | some h => cmds.any (fun e => e.c == h && entriesLeft e)
      | none => false
    if thas x.item cls || thas x.cs cls || held then x
    else
      match minBy (fun a b => workLt (0, a.deadline, a.order) (0, b.deadline, b.order)) (x.csWait.filter (fun k => k.cls == cls)) with
      | none => x
      | some k => { x with cs := tset x.cs cls k, csWait := x.csWait.filter (fun e => e.c != k.c) }) x

def State.admitMu (s : State) (d m : Nat) : State := s.modMu d m (admitCs (s.die d).muCmds)

/-- Element i of the present iteration, in the order of R273. -/
def CsCmd.key (k : CsCmd) (i : Nat) : Nat := k.iter * 16384 + i

def State.csError (s : State) (d m cls key reason addr : Nat) : State := s.modCs d m cls (fun k => csFail k key reason addr)

/-! ### The iteration space (R273) -/

def csTensor (k : CsCmd) (slot : Nat) : Tensor := tensorOf (k.slots.getD slot [])

/-- The first coordinates of an iteration's tile. -/
def tileStart (t : Tensor) (iter : Nat) : Coord :=
  let n0 := (t.e 0 + 127) / 128
  let n1 := (t.e 1 + 127) / 128
  (128 * (iter % n0), 128 * (iter / n0 % n1), iter / n0 / n1 % t.e 2, iter / n0 / n1 / t.e 2)

/-- The coordinates of element i (row × 128 + column) of the present tile. -/
def CsCmd.coord (k : CsCmd) (i : Nat) : Coord :=
  let c := tileStart (csTensor k 0) k.iter
  (c.1 + i % 128, c.2.1 + i / 128, c.2.2.1, c.2.2.2)

/-- Elements of the present tile that lie in bounds of a slot, row-major. -/
def CsCmd.inTile (k : CsCmd) (slot : Nat) : List Nat := (List.range 16384).filter (fun i => (csTensor k slot).inside (k.coord i))

/-! ### Slot elements -/

/-- R206, R216: an element's code as an F32 value, with the flags of a scaled one. -/
def slotDecode (t : Tensor) (code scale : Nat) : BitVec 32 × FpFlags :=
  if isMx t.fmt then
    (if scale = 255 then (f32Nan, 0) else toF32 0 false (mxDecode t.fmt code scale, 0))
  else (decF32 t.fmt code, 0)

/-- One element of a slot, decoded; or the address of the access that failed. -/
def State.readSlot (s : State) (u : XUnit) (k : CsCmd) (t : Tensor) (c : Coord) : ((BitVec 32 × FpFlags) ⊕ Nat) × State :=
  let (va, off) := t.addr c
  match s.readBytes u k.tenant k.vi va ((off + fmtBits t.fmt + 7) / 8) with
  | (.inr _, s) => (.inr va, s)
  | (.inl b, s) =>
    let code := bits (leNat b) off (fmtBits t.fmt)
    if isMx t.fmt then
      match s.readBytes u k.tenant k.vi (t.scaleAddr c) 1 with
      | (.inr _, s) => (.inr (t.scaleAddr c), s)
      | (.inl sc, s) => (.inl (slotDecode t code (leNat sc)), s)
    else (.inl (slotDecode t code 0), s)

/-- Elements of a slot at the coordinates of given elements, in order: values, flags, and the first that could not be read with its address. -/
def State.readSlots (s : State) (u : XUnit) (k : CsCmd) (t : Tensor) : List (Nat × Coord) → (Tab (BitVec 32) × FpFlags × Option (Nat × Nat)) × State
  | [] => (([], 0, none), s)
  | (i, c) :: r =>
    match s.readSlot u k t c with
    | (.inr a, s) => (([], 0, some (i, a)), s)
    | (.inl (x, f), s) =>
      let ((xs, g, bad), s) := s.readSlots u k t r
      (((i, x) :: xs, f ||| g, bad), s)

/-- What is written to a slot: the element of the tile, its coordinates there, its value and the stage number of its draw. -/
structure SlotWrite where
  i : Nat
  c : Coord
  x : Val
  st : Nat

/-- The block of 32 along dimension 0 in which an element lies. -/
def blockOf (c : Coord) : Coord := (c.1 / 32, c.2.1, c.2.2.1, c.2.2.2)

/-- A written element or scale: the element of the tile that it belongs to, its coordinates and its code. -/
abbrev SlotCode := Nat × Coord × Nat

/-- R209 to R217: codes of written elements and, for a scaled format, the scale of each block, with flags.  A block written in part takes
the scale of the elements written (log 86). -/
def slotEncode (r : Rounding) (t : Tensor) (l : List SlotWrite) : List SlotCode × List SlotCode × FpFlags :=
  let draw (w : SlotWrite) : Nat := r.draw (t.ordinal w.c) w.st
  if isMx t.fmt then
    let blocks := (l.map (fun w => blockOf w.c)).eraseDups
    let es : List (List SlotCode × SlotCode × FpFlags) := blocks.map (fun b =>
      let mine := l.filter (fun w => blockOf w.c == b)
      let (sc, codes, f) := mxEncode t.fmt r.mode r.flush (fun i => (mine[i]?.map draw).getD 0) (mine.map (·.x))
      ((mine.zip codes).map (fun e => (e.1.i, e.1.c, e.2)), (((mine.head?.map (·.i)).getD 0, (32 * b.1, b.2), sc) : SlotCode), f))
    ((es.map (·.1)).flatten, es.map (·.2.1), es.foldl (fun a e => a ||| e.2.2) 0)
  else
    let es := l.map (fun w => (w, encodeFmt t.fmt r.mode r.flush (draw w) w.x))
    (es.map (fun e => (e.1.i, e.1.c, e.2.1)), [], es.foldl (fun a e => a ||| e.2.2) 0)

/-- A write: its lowest element, the address, and for each byte the bits written and the byte. -/
abbrev CsWrite := Nat × Nat × List (Byte × Byte)

/-- The bytes of a run from an address, by line; each with the elements that it holds. -/
def byLine (va : Nat) (l : List (List Nat × Byte × Byte)) : List CsWrite :=
  (List.range (l.length / 128 + 2)).filterMap (fun q =>
    let lo := 128 * q - va % 128
    let part := (l.drop lo).take (128 * (q + 1) - va % 128 - lo)
    match (part.map (·.1)).flatten with
    | [] => none
    | i :: is => some (is.foldl min i, va + lo, part.map (·.2)))

/-- Writes of one tensor row of a sub-byte format: the bits of the written elements; bits past the row's end are 0, and other elements'
bits keep their value at home (R204). -/
def subWrites (t : Tensor) (l : List SlotCode) : List CsWrite :=
  match l with
  | [] => []
  | (_, c, _) :: _ =>
    let w := fmtBits t.fmt
    let lo := l.foldl (fun a e => min a e.2.1.1) c.1
    let hi := l.foldl (fun a e => max a e.2.1.1) c.1
    let b0 := w * lo / 8
    let n := (w * (hi + 1) + 7) / 8 - b0
    let written (q : Nat) : Option SlotCode := l.find? (fun p => p.2.1.1 == q / w)
    byLine ((t.addr (0, c.2)).1 + b0) ((List.range n).map (fun y =>
      let at_ := (List.range 8).map (fun b => written (8 * (b0 + y) + b))
      let holds := (at_.filterMap id).map (·.1)
      let m := at_.zipIdx.foldl (fun a (e, b) => a + b2n (!holds.isEmpty && (e.isSome || decide (t.e 0 ≤ (8 * (b0 + y) + b) / w))) * 2 ^ b) 0
      let v := at_.zipIdx.foldl (fun a (e, b) => a + (match e with | some e => b2n (bit e.2.2 ((8 * (b0 + y) + b) % w)) | none => 0) * 2 ^ b) 0
      (holds, BitVec.ofNat 8 m, BitVec.ofNat 8 v)))

/-- Whole bytes of one element. -/
def codeWrite (va n : Nat) (e : SlotCode) : CsWrite := (e.1, va, (leBytes n e.2.2).map (fun b => (0xFF, b)))

/-- Writes of contiguous bytes of one line joined. -/
def joinRuns : List CsWrite → List CsWrite
  | [] => []
  | (i, va, b) :: r =>
    match joinRuns r with
    | (i', va', b') :: r' => if va + b.length = va' ∧ va' % 128 ≠ 0 then (min i i', va, b ++ b') :: r' else (i, va, b) :: (i', va', b') :: r'
    | [] => [(i, va, b)]

def insertWrite (w : CsWrite) : List CsWrite → List CsWrite
  | [] => [w]
  | x :: r => if w.1 < x.1 then w :: x :: r else x :: insertWrite w r

/-- Writes issued in order; the first that could not be, with its element. -/
def State.csWrites (s : State) (u : XUnit) (k : CsCmd) : List CsWrite → Option (Nat × Nat) × State
  | [] => (none, s)
  | (i, va, bs) :: r =>
    match s.writeVaBits u (.unitWrite k.c (k.key i * 2 ^ 48 + va % 2 ^ 48) 0) k.tenant k.vi k.cls k.deadline va bs with
    | (some _, s) => (some (i, va), s)
    | (none, s) => s.csWrites u k r

/-- Elements written to a slot, lowest first: the flags of their encoding, and the first that could not be written. -/
def State.writeSlot (s : State) (u : XUnit) (k : CsCmd) (r : Rounding) (t : Tensor) (l : List SlotWrite) : (FpFlags × Option (Nat × Nat)) × State :=
  let (codes, scales, f) := slotEncode r t l
  let elems := if t.sub then
      (let rows := (codes.map (fun e => e.2.1.2)).eraseDups
       (rows.map (fun q => subWrites t (codes.filter (fun e => e.2.1.2 == q)))).flatten)
    else joinRuns (codes.map (fun e => codeWrite (t.addr e.2.1).1 (fmtBits t.fmt / 8) e))
  let ws := scales.foldl (fun ws e => insertWrite (codeWrite (t.scaleAddr e.2.1) 1 e) ws) elems
  let (bad, s) := s.csWrites u k ws
  ((f, bad), s)

/-- One write of a command's own area. -/
def State.writeOwn (s : State) (u : XUnit) (k : CsCmd) (key va : Nat) (b : List Byte) : Option Nat × State :=
  match s.writeVa u (.unitWrite k.c (key * 2 ^ 48 + va % 2 ^ 48) 0) k.tenant k.vi k.cls k.deadline va b with
  | (some _, s) => (some va, s)
  | (none, s) => (none, s)

/-- A range read line by line, or the address of the access that failed. -/
def State.readSpan (s : State) (u : XUnit) (tenant v va n : Nat) : Nat → (List Byte ⊕ Nat) × State
  | 0 => (.inl [], s)
  | fuel + 1 =>
    if n = 0 then (.inl [], s)
    else
      let k := lineSpan va n
      match s.readBytes u tenant v va k with
      | (.inr _, s) => (.inr va, s)
      | (.inl b, s) =>
        match s.readSpan u tenant v (va + k) (n - k) fuel with
        | (.inl r, s) => (.inl (b ++ r), s)
        | e => e

def State.spanWords (s : State) (u : XUnit) (tenant v va n : Nat) : (List Word ⊕ Nat) × State :=
  match s.readSpan u tenant v va (8 * n) (n / 16 + 2) with
  | (.inl b, s) => (.inl ((List.range n).map (fun i => BitVec.ofNat 64 (wordAt b i))), s)
  | (.inr a, s) => (.inr a, s)

/-! ### CHAIN mode (R275) -/

/-- The operands of element i of a pass: SRC 6 reads slot 1, in its bounds. -/
def passOperand (k : CsCmd) (cd : ChainData) (ys : Tab (BitVec 32)) (bad : Option (Nat × Nat)) (i src : Nat) : Got :=
  if src = 6 then
    (if !(csTensor k 1).inside (k.coord i) then .inl 0
     else match tget? ys i, bad with
       | some y, _ => .inl y
       | none, some (_, a) => .inr a
       | none, none => .inl 0)
  else cd.operand (i / 128) (i % 128) src

/-- One pass: the in-bounds elements of slot 0 through the chain, and into slot 2 where they lie in its bounds; element by element up to
the lowest that fails. -/
def State.chainPass (s : State) (d m : Nat) (k : CsCmd) : State :=
  let u : XUnit := .mu d m
  let r := (runOf k.desc).rounding
  let ch := chainOf k.prog
  let t0 := csTensor k 0
  let t1 := csTensor k 1
  let t2 := csTensor k 2
  let c00 := tileStart t0 k.iter
  let at_ (l : List Nat) : List (Nat × Coord) := l.map (fun i => (i, k.coord i))
  let s := s.chargeConsist d m k.tenant ch.beats
  let ((xs, f0, bad0), s) := s.readSlots u k t0 (at_ (k.inTile 0))
  let (cd, s) := s.chainData u k.tenant k.vi ch c00.2.1 (min 128 (t0.e 1 - c00.2.1)) c00.1 (min 128 (t0.e 0 - c00.1)) false
  let ((ys, f1, bad1), s) := s.readSlots u k t1 (at_ (if ch.uses 6 then (xs.map (·.1)).filter (fun i => t1.inside (k.coord i)) else []))
  let got := passOperand k cd ys bad1
  let bad := (xs.findSome? (fun e => (ch.failed (got e.1)).map (fun a => (e.1, a)))).or bad0
  let done := xs.filter (fun e => match bad with | some (i, _) => decide (e.1 < i) | none => true)
  let outs := done.map (fun (i, x) => (i, ch.run r (fun q => (got i q).value) x (t2.ordinal (k.coord i))))
  let f := outs.foldl (fun a e => a ||| e.2.2) (f0 ||| f1)
  let ((g, badW), s) := s.writeSlot u k r t2
    ((outs.filter (fun e => t2.inside (k.coord e.1))).map (fun e => { i := e.1, c := k.coord e.1, x := f32Val e.2.1, st := ch.nstages - 1 }))
  let s := s.modCs d m k.cls (fun k => { k with flags := k.flags ||| f ||| g })
  match badW.or bad with
  | some (i, a) => s.csError d m k.cls (k.key i) 1 a
  | none => s.modCs d m k.cls (fun k => { k with iter := k.iter + 1 })

/-- CONSIST_TILE_PASS (R253, R275). -/
def execConsistTilePass (die : BitVec 11) (mu : BitVec 2) (s : State) : Out :=
  let d := die.toNat
  let m := mu.toNat
  let s' := s.admitMu d m
  match s'.muNext d m with
  | none => .next s
  | some (k, streak) =>
    match (s'.mu d m).cs.find? (fun e => e.2.c == k.c) with
    | none => .next s
    | some (_, q) => if (runOf q.desc).single then .next s else .next ((s'.grantTile d m k streak).chainPass d m q)

/-! ### SINGLE mode (R276 to R281) -/

/-- R281: free values are written to a SAVE area of 272 KiB, line by line. -/
def State.saveLines (s : State) (u : XUnit) (k : CsCmd) (va : Nat) : Nat → Option Nat × State
  | 0 => (none, s)
  | n + 1 =>
    let (ws, s) := (List.range 16).foldl (fun (ws, s) _ => let (w, s) := State.draw s; (ws ++ [w.toNat], s)) (([] : List Nat), s)
    match s.writeOwn u k (k.key 0) va (wordBytes ws) with
    | (none, s) => s.saveLines u k (va + 128) n
    | e => e

/-- The SINGLE command whose state the tile registers hold gives way to another: it is saved (R281). -/
def State.saveOther (s : State) (d m : Nat) (k : CsCmd) : State :=
  let x := s.mu d m
  match x.loaded with
  | none => s
  | some l =>
    if l = k.c then s
    else
      match x.cs.find? (fun e => e.2.c == l) with
      | none => s
      | some (_, q) =>
        if consistIters q ≤ q.iter ∨ q.reason ≠ 0 then s
        else
          let save := (runOf q.desc).save
          match s.saveLines (.mu d m) q save 2176 with
          | (none, s) => (s.chargeConsist d m q.tenant 544).modCs d m q.cls (fun q => { q with saved := true })
          | (some a, s) => s.csError d m q.cls (q.key 0) 1 a

/-- R281: a saved command's state is restored; a read that fails ends it. -/
def State.restoreSaved (s : State) (d m : Nat) (k : CsCmd) : State :=
  if !k.saved then s
  else
    match s.readSpan (.mu d m) k.tenant k.vi (runOf k.desc).save 278528 2180 with
    | (.inr a, s) => s.csError d m k.cls (k.key 0) 1 a
    | (.inl _, s) => (s.chargeConsist d m k.tenant 544).modCs d m k.cls (fun k => { k with saved := false })

/-- CONSIST_ITERATION_START (R253, R276): P is set to all ones. -/
def execConsistIterationStart (die : BitVec 11) (mu : BitVec 2) (s : State) : Out :=
  let d := die.toNat
  let m := mu.toNat
  let s' := s.admitMu d m
  match s'.muNext d m with
  | none => .next s
  | some (k, streak) =>
    match (s'.mu d m).cs.find? (fun e => e.2.c == k.c) with
    | none => .next s
    | some (_, q) =>
      if !(runOf q.desc).single then .next s
      else
        let s := ((s'.grantTile d m k streak).saveOther d m q).restoreSaved d m q
        let s := s.modMu d m (fun x => { x with loaded := some q.c })
        .next (s.modCs d m q.cls (fun q => if q.reason = 0 then { q with running := true, ip := 0, pred := List.replicate 16384 true } else q))

/-- A tile register: its valid elements by row × 128 + column. -/
def tbGet (k : CsCmd) (r : Nat) : Tab (BitVec 32) := (k.tb.filter (fun e => e.1 / 16384 == r)).map (fun e => (e.1 % 16384, e.2))

/-- A tile register replaced. -/
def tbSet (k : CsCmd) (r : Nat) (l : Tab (BitVec 32)) : CsCmd :=
  { k with tb := k.tb.filter (fun e => e.1 / 16384 < r) ++ l.map (fun e => (r * 16384 + e.1, e.2)) ++ k.tb.filter (fun e => r < e.1 / 16384) }

/-- Two tables of one range joined: the second's entries win. -/
def tbMerge (a b : Tab (BitVec 32)) : Tab (BitVec 32) :=
  (List.range 16384).filterMap (fun i => match tget? b i with | some x => some (i, x) | none => (tget? a i).map (fun x => (i, x)))

/-- R278: the active elements of a tile register, row-major. -/
def CsCmd.active (k : CsCmd) (r : Nat) : Tab (BitVec 32) := (tbGet k r).filter (fun e => k.pred.getD e.1 false)

/-- The SINGLE command whose iteration runs on a unit, and its next instruction. -/
def State.csRunning (s : State) (d m : Nat) : Option (CsCmd × CsInstr) :=
  if !s.dieUp d || !s.unitRuns d (muUnit m) then none
  else ((s.mu d m).cs.find? (fun e => e.2.running)).map (fun e => (e.2, csInstrOf (e.2.prog.getD e.2.ip 0)))

/-- An instruction is done: the next one, or the end of the iteration. -/
def csAdvance (k : CsCmd) : CsCmd :=
  if k.prog.length ≤ k.ip + 1 then { k with running := false, ip := 0, iter := k.iter + 1 } else { k with ip := k.ip + 1 }

/-- A SINGLE instruction of one opcode, if it is the next one. -/
def csStep (s : State) (d m op : Nat) (f : CsCmd → CsInstr → State → State) : Out :=
  match s.csRunning d m with
  | none => .next s
  | some (k, i) => if i.op ≠ op then .next s else .next (f k i s)

/-- The command after an instruction, with its beats charged. -/
def State.csDone (s : State) (d m : Nat) (k : CsCmd) (beats : Nat) : State :=
  (s.chargeConsist d m k.tenant beats).modCs d m k.cls (fun _ => csAdvance k)

/-- The end of an instruction that read or wrote slots: its flags, then the failure of its lowest element, or the command after it.  The
elements that CST or XLD took before the capacity ran out are counted (R280); an instruction that meets ACCESS advances no count (log 85). -/
def State.csEnd (s : State) (d m : Nat) (k k' : CsCmd) (f : FpFlags) (bad : Option (Nat × Nat × Nat)) : State :=
  match bad with
  | some (i, reason, a) =>
    (s.modCs d m k.cls (fun q => { q with flags := q.flags ||| f, cnt := if reason = 2 then k'.cnt else q.cnt })).csError d m k.cls (k.key i) reason a
  | none => s.csDone d m { k' with flags := k'.flags ||| f } 128

/-- A failed access, with reason ACCESS. -/
def accessBad (b : Option (Nat × Nat)) : Option (Nat × Nat × Nat) := b.map (fun e => (e.1, 1, e.2))

/-- CONSIST_LD (R277, R278, R282): the elements with P set; the others keep their value and V (log 85). -/
def execConsistLd (die : BitVec 11) (mu : BitVec 2) (s : State) : Out :=
  let d := die.toNat
  let m := mu.toNat
  csStep s d m 1 (fun k i s =>
    let on (e : Nat) : Bool := k.pred.getD e false
    let idx := (k.inTile i.a).filter on
    let ((xs, f, bad), s) := s.readSlots (.mu d m) k (csTensor k i.a) (idx.map (fun e => (e, k.coord e)))
    s.csEnd d m k (tbSet k i.d (tbMerge ((tbGet k i.d).filter (fun e => !on e.1)) xs)) f (accessBad bad))

/-- CONSIST_ST (R277): active elements in bounds of the slot. -/
def execConsistSt (die : BitVec 11) (mu : BitVec 2) (s : State) : Out :=
  let d := die.toNat
  let m := mu.toNat
  csStep s d m 2 (fun k i s =>
    let t := csTensor k i.d
    let l := (k.active i.a).filter (fun e => t.inside (k.coord e.1))
    let ((f, bad), s) := s.writeSlot (.mu d m) k (runOf k.desc).rounding t (l.map (fun e => { i := e.1, c := k.coord e.1, x := f32Val e.2, st := 0 }))
    s.csEnd d m k k f (accessBad bad))

/-- b of an element under SRC 1 or 9 to 11 (R263). -/
def csOperand (k : CsCmd) (i : CsInstr) (e : Nat) : BitVec 32 :=
  let tb := tbGet k i.b
  match i.src with
  | 1 => i.imm
  | 9 => tget tb e 0
  | 10 => tget tb (e % 128) 0
  | 11 => tget tb (e / 128 * 128) 0
  | _ => 0

/-- CONSIST_FN (R262, R277, R278). -/
def execConsistFn (die : BitVec 11) (mu : BitVec 2) (s : State) : Out :=
  let d := die.toNat
  let m := mu.toNat
  csStep s d m 3 (fun k i s =>
    let rs := (k.active i.a).map (fun e => (e.1, e.2, csOperand k i e.1))
    let ys := rs.map (fun e => (e.1, menuFn i.fn e.2.1 e.2.2 i.imm))
    let pred := if !fnPred i.fn then k.pred else
      rs.foldl (fun p e => if predTest i.fn e.2.1 e.2.2 then p else lset p e.1 false) k.pred
    let k := { tbSet k i.d (tbMerge (tbGet k i.d) (ys.map (fun e => (e.1, e.2.1)))) with
      pred := pred, flags := ys.foldl (fun a e => a ||| e.2.2) k.flags }
    s.csDone d m k (128 * ((fnCost i.fn + 3) / 4)))

/-- R279: what a line with no active element gives. -/
def redIdentity (fn : Nat) : BitVec 32 := match fn with | 1 => f32NegInf | 2 => 0x7F800000#32 | _ => 0

/-- RED's FN as a reduction: 0 SUM, 1 MAX, 2 MIN, 3 SUMSQ. -/
def redOp (fn : Nat) : Nat := match fn with | 1 => 1 | 2 => 3 | 3 => 2 | _ => 0

/-- CONSIST_RED (R279): along rows into column 0, or along columns into row 0. -/
def execConsistRed (die : BitVec 11) (mu : BitVec 2) (s : State) : Out :=
  let d := die.toNat
  let m := mu.toNat
  csStep s d m 4 (fun k i s =>
    let act := k.active i.a
    let cols := i.imm.getLsbD 0
    let lines := (List.range 128).map (fun n =>
      let l := (act.filter (fun e => (if cols then e.1 % 128 else e.1 / 128) == n)).map (·.2)
      let (x, f) := reduce (redOp i.fn) l
      ((if cols then n else 128 * n, x.getD (redIdentity i.fn)), if i.fn = 0 ∨ i.fn = 3 then arrayFlags f else f))
    let k := { tbSet k i.d (tbMerge (tbGet k i.d) (lines.map (·.1))) with flags := lines.foldl (fun a e => a ||| e.2) k.flags }
    s.csDone d m k 128)

/-- CONSIST_CST (R280): active elements appended at CNTd; past the capacity the command ends with OVERRUN. -/
def execConsistCst (die : BitVec 11) (mu : BitVec 2) (s : State) : Out :=
  let d := die.toNat
  let m := mu.toNat
  csStep s d m 5 (fun k i s =>
    let t := csTensor k i.d
    let cnt := k.cnt.getD i.d 0
    let xs := k.active i.a
    let fit := xs.take (t.capacity - cnt)
    let ((f, bad), s) := s.writeSlot (.mu d m) k (runOf k.desc).rounding t
      (fit.zipIdx.map (fun (e, n) => { i := e.1, c := t.coordOf (cnt + n), x := f32Val e.2, st := 0 }))
    let k' := { k with cnt := lset k.cnt i.d (cnt + fit.length) }
    let full := (xs[fit.length]?).map (fun e => (e.1, 2, (t.addr (t.coordOf (cnt + fit.length))).1))
    s.csEnd d m k k' f ((accessBad bad).or full))

/-- CONSIST_XLD (R277, R280): in-bounds elements take their values and become valid; elements of TB D outside slot B's bounds keep theirs
(R278, log 85). -/
def execConsistXld (die : BitVec 11) (mu : BitVec 2) (s : State) : Out :=
  let d := die.toNat
  let m := mu.toNat
  csStep s d m 6 (fun k i s =>
    let ta := csTensor k i.a
    let cnt := k.cnt.getD i.a 0
    let idx := k.inTile i.b
    let want := idx.filter (fun e => k.pred.getD e false)
    let fit := want.take (ta.capacity - cnt)
    let ((got, f, bad), s) := s.readSlots (.mu d m) k ta (fit.zipIdx.map (fun (e, n) => (e, ta.coordOf (cnt + n))))
    let k' := { tbSet k i.d (tbMerge (tbGet k i.d) (idx.map (fun e => (e, tget got e i.imm)))) with cnt := lset k.cnt i.a (cnt + fit.length) }
    let full := (want[fit.length]?).map (fun e => (e, 2, (ta.addr (ta.coordOf (cnt + fit.length))).1))
    s.csEnd d m k k' f ((accessBad bad).or full))

/-- CONSIST_LDP (R277). -/
def execConsistLdp (die : BitVec 11) (mu : BitVec 2) (s : State) : Out :=
  let d := die.toNat
  let m := mu.toNat
  csStep s d m 7 (fun k i s =>
    let idx := (k.inTile i.a).filter (fun e => k.pred.getD e false)
    let ((xs, f, bad), s) := s.readSlots (.mu d m) k (csTensor k i.a) (idx.map (fun e => (e, k.coord e)))
    let keep := (xs.filter (fun e => !(f32Val e.2).isZero)).map (·.1)
    s.csEnd d m k { k with pred := (List.range 16384).map (fun e => keep.contains e) } f (accessBad bad))

/-- CONSIST_STP (R277). -/
def execConsistStp (die : BitVec 11) (mu : BitVec 2) (s : State) : Out :=
  let d := die.toNat
  let m := mu.toNat
  csStep s d m 8 (fun k i s =>
    let l : List SlotWrite := (k.inTile i.d).map (fun e => { i := e, c := k.coord e, x := .fin false (b2n (k.pred.getD e false)) 0, st := 0 })
    let ((f, bad), s) := s.writeSlot (.mu d m) k (runOf k.desc).rounding (csTensor k i.d) l
    s.csEnd d m k k f (accessBad bad))

/-! ### The command (R274, R283, R284) -/

/-- R274: what refuses a command before its slots are read; and the malformed chain or instruction. -/
def runRefused (r : RunDesc) : Bool :=
  decide (r.rmode = 3) || (r.stage && r.stageFmt != 1 && r.stageFmt != 2) || r.prog == 0 || r.prog % 64 != 0 ||
  (r.single && (r.len == 0 || r.save == 0))

def progBad (r : RunDesc) (prog : List Word) : Bool := if r.single then prog.any (fun w => (csInstrOf w).bad) else (chainOf prog).bad false

/-- R284: the CONSIST_RUN result word. -/
def consistResult (outcome reason flags addr : Nat) : Word := BitVec.ofNat 64 (outcome * 2 ^ 60 + reason * 2 ^ 56 + flags * 2 ^ 52 + addr % 2 ^ 48)

/-- Slot descriptors of the slots used, or the address of the access that failed. -/
def State.readSlotDescs (s : State) (u : XUnit) (tenant v : Nat) (r : RunDesc) (used : List Nat) : List Nat → (List (List Word) ⊕ Nat) × State
  | [] => (.inl [], s)
  | i :: rest =>
    match (if used.contains i then s.spanWords u tenant v (r.slots.getD i 0) 8 else (.inl [], s)) with
    | (.inr a, s) => (.inr a, s)
    | (.inl w, s) =>
      match s.readSlotDescs u tenant v r used rest with
      | (.inl l, s) => (.inl (w :: l), s)
      | e => e

/-- CONSIST_RUN (R270, R274). -/
def execConsistRun (cmd : CmdRef) (s : State) : Out :=
  startCmd s cmd 4 (fun k s =>
    let d := s.cmdDie cmd k
    let m := bits (k.word 3) 56 2
    let u : XUnit := .mu d m
    let t := (s.vi cmd.p cmd.v).tenant
    let refuse (s : State) (reason : Nat) : State := s.finishCmd cmd 3 (consistResult 2 reason 0 0)
    let fail (s : State) (a : Nat) : State := s.finishCmd cmd 2 (consistResult 1 1 0 a)
    match s.spanWords u t cmd.v k.desc 8 with
    | (.inr a, s) => fail s a
    | (.inl desc, s) =>
      let r := runOf desc
      if runRefused r then refuse s 0
      else
        match s.spanWords u t cmd.v r.prog (if r.single then r.len else 16) with
        | (.inr a, s) => fail s a
        | (.inl prog, s) =>
          if progBad r prog then refuse s 3
          else
            let used := usedSlots r prog
            if used.any (fun i => r.slots.getD i 0 == 0) then refuse s 0
            else
              match s.readSlotDescs u t cmd.v r used [0, 1, 2, 3] with
              | (.inr a, s) => fail s a
              | (.inl slots, s) =>
                if used.any (fun i => (tensorOf (slots.getD i [])).bad) then refuse s 0
                else
                  let rec_ : CsCmd := { c := cmd, tenant := t, vi := cmd.v, cls := k.cls, deadline := k.deadline, desc := desc, prog := prog, slots := slots, order := (s.pkg cmd.p).nextCmd }
                  let s := s.modPkg cmd.p (fun x => { x with nextCmd := x.nextCmd + 1 })
                  let s := (s.modMu d m (fun x => { x with csWait := x.csWait ++ [rec_] })).admitMu d m
                  s.setWork cmd .consist)

/-- The unit on which a CONSIST_RUN is in progress. -/
def State.csFind (s : State) (c : CmdRef) : Option (Nat × Nat × CsCmd) :=
  (List.range 32).findSome? (fun i =>
    let d := c.p * 8 + i / 4
    ((s.mu d (i % 4)).cs.find? (fun e => e.2.c == c)).map (fun e => (d, i % 4, e.2)))

/-- CONSIST_RUN_COMPLETE (R283, R284): every write acknowledged, then the counts written and acknowledged. -/
def execConsistRunComplete (cmd : CmdRef) (s : State) : Out :=
  match s.csFind cmd with
  | none => .next s
  | some (d, m, k) =>
    if !s.dieUp d || k.running || (k.reason == 0 && decide (k.iter < consistIters k)) || s.cmdOut d cmd != 0 then .next s
    else
      let a := (runOf k.desc).counts
      if a ≠ 0 ∧ !k.countsSent then
        let s := s.modCs d m k.cls (fun k => { k with countsSent := true })
        match s.writeOwn (.mu d m) k (consistIters k * 16384) a (wordBytes k.cnt) with
        | (none, s) => .next s
        | (some a, s) => .next (s.csError d m k.cls (consistIters k * 16384) 1 a)
      else
        let s := s.modMu d m (fun x => { x with cs := x.cs.filter (fun e => e.2.c != cmd), loaded := if x.loaded == some cmd then none else x.loaded })
        let s := s.admitMu d m
        let outcome := if k.reason = 0 then 0 else 1
        .next (s.finishCmd cmd (2 * outcome) (consistResult outcome k.reason k.flags.toNat k.addr))

end Sys2Proof.Machine
end

