-- ==== Sys2Proof/Machine/Dma.lean ====
section
/-! DEFINITION. DMA engines (R383 to R400): chains, descriptors, the five modes in blocks of at most 4 KiB (log 36), signals and completion. -/
set_option Elab.async false
namespace Sys2Proof.Machine

/-! ### The descriptor (R388) -/

structure DmaDesc where
  mode : Nat
  skind : Nat
  dkind : Nat
  nextv : Bool
  sigen : Bool
  ordered : Bool
  efmt : Nat
  group : Nat
  keep : Nat
  bitmap : Bool
  descending : Bool
  rows : Nat
  src : Nat
  dst : Nat
  sstride : Nat
  dstride : Nat
  rowbytes : Nat
  pattern : Nat
  firstrow : Nat
  mapstart : Nat
  index : Nat
  values : Nat
  edgeBase : Nat
  signal : Word
  sigval : Nat
  sigop : Bool
  next : Nat

def dmaDescOf (l : List Word) : DmaDesc :=
  let g (i lo n : Nat) : Nat := bits (l.getD i 0).toNat lo n
  { mode := g 0 60 4, skind := g 0 58 2, dkind := g 0 56 2, nextv := bit (g 0 55 1) 0, sigen := bit (g 0 54 1) 0, ordered := bit (g 0 53 1) 0,
    efmt := g 0 44 4, group := g 0 41 3, keep := g 0 34 7, bitmap := bit (g 0 33 1) 0, descending := bit (g 0 32 1) 0, rows := g 0 0 32,
    src := g 1 0 64, dst := g 2 0 64, sstride := g 3 32 32, dstride := g 3 0 32, rowbytes := g 4 32 32, pattern := g 4 0 32,
    firstrow := g 5 32 32, mapstart := g 5 0 32, index := g 6 0 64, values := g 7 0 64, edgeBase := g 8 0 64, signal := l.getD 9 0,
    sigval := g 10 32 32, sigop := bit (g 10 31 1) 0, next := g 12 0 48 }

/-- Bytes of an element. -/
def DmaDesc.eb (q : DmaDesc) : Nat := fmtBits q.efmt / 8

/-- R394: elements in a group. -/
def DmaDesc.n (q : DmaDesc) : Nat := 4 * 2 ^ q.group

/-- R396: a malformed descriptor. -/
def DmaDesc.bad (q : DmaDesc) (va idx : Nat) : Bool :=
  let edges := q.mode == 2 || q.mode == 3
  let space (a : Nat) : Bool := bits a 48 4 == 2 || bits a 48 4 == 3
  decide (4 < q.mode) || q.skind == 3 || q.dkind == 3 || (q.sigen && !handleValid q.signal) ||
  (q.skind == 1 && q.mode != 1 && space q.src) ||
  (q.dkind == 1 && (space q.dst || (edges && (space q.index || space q.values)))) ||
  (edges && (! ([0, 1, 2, 3, 4, 7, 8]).contains q.efmt || decide (4 < q.group) || q.keep == 0 || decide (q.n < q.keep) ||
    decide (q.sstride < q.rowbytes * q.eb) || q.index % 16 != 0)) ||
  (q.nextv && q.next % 128 != 0) || va % 128 != 0 || decide (65535 ≤ idx)

/-- How much work a descriptor holds: bytes of COPY and FILL; rows of PRUNE and COMPRESS; one block of BIN. -/
def DmaDesc.total (q : DmaDesc) : Nat := if q.mode ≤ 1 then q.rows * q.rowbytes else if q.mode = 4 then 1 else q.rows

/-! ### Chains on a die -/

/-- DMA result REASON of an access (R399). -/
def accReason (e : AccErr) : Nat :=
  match e with
  | .unmapped => 2 | .rights => 3 | .foreign => 4 | _ => 1

def State.modChain (s : State) (d : Nat) (c : CmdRef) (f : Chain → Chain) : State :=
  s.modDie d (fun x => { x with engines := tmap x.engines (fun _ e => { e with chains := e.chains.map (fun k => if k.c == c then f k else k) }) })

/-- R383: the VI can hold a token. -/
def tokenFree (x : Share) : Bool := decide (x.held < x.share) && x.withdraw == 0

/-- R383: the chain is accepted: it holds a token and waits in the die's queue. -/
def State.acceptChain (s : State) (d : Nat) (cmd : CmdRef) (k : RCmd) : State :=
  let x := s.share 4 d cmd.v
  let s := s.setShare 4 d cmd.v { x with held := x.held + 1 }
  let ch : Chain := { c := cmd, tenant := (s.vi cmd.p cmd.v).tenant, vi := cmd.v, cls := k.cls, deadline := k.deadline, engine := bits (k.word 3) 56 4, va := k.desc, order := (s.pkg cmd.p).nextCmd }
  let s := s.modPkg cmd.p (fun x => { x with nextCmd := x.nextCmd + 1 })
  (s.modDie d (fun x => { x with dmaQueue := x.dmaQueue ++ [ch] })).setWork cmd .dmaChain

/-- DMA (R383): accepted, refused without a share, or waiting for a token. -/
def execDma (cmd : CmdRef) (s : State) : Out :=
  startCmd s cmd 7 (fun k s =>
    let d := s.cmdDie cmd k
    let x := s.share 4 d cmd.v
    if x.share = 0 then s.finishCmd cmd 3 (refusedResult 7)
    else if tokenFree x then s.acceptChain d cmd k
    else s.setWork cmd .dmaWait)

/-- DMA_CHAIN_ACCEPT (R383). -/
def execDmaChainAccept (cmd : CmdRef) (s : State) : Out :=
  match s.rcmd? cmd with
  | none => .next s
  | some k =>
    if k.work ≠ .dmaWait ∨ k.result.isSome then .next s
    else
      let d := s.cmdDie cmd k
      let x := s.share 4 d cmd.v
      if !s.dieUp d then .next s
      else if x.share = 0 then .next (s.finishCmd cmd 3 (refusedResult 7))
      else if tokenFree x then .next (s.acceptChain d cmd k)
      else .next s

/-- R386: an engine has a free slot of a class. -/
def State.slotFree (s : State) (d e cls : Nat) : Bool :=
  s.unitOpen d (dmaUnit e) && decide (((s.eng d e).chains.filter (fun k => k.cls == cls && !k.scrub)).length < 4)

/-- R384: the engine that takes a chain. -/
def State.engineFor (s : State) (d : Nat) (k : Chain) : Option Nat :=
  if k.engine < 8 then (if s.slotFree d k.engine k.cls then some k.engine else none)
  else minBy (fun a b => decide (((s.eng d a).chains.filter (!·.scrub)).length < ((s.eng d b).chains.filter (!·.scrub)).length)) ((List.range 8).filter (fun e => s.slotFree d e k.cls))

def chainLt (a b : Chain) : Bool := workLt (a.cls, a.deadline, a.order) (b.cls, b.deadline, b.order)

/-- DMA_CHAIN_START (R384). -/
def execDmaChainStart (die : BitVec 11) (s : State) : Out :=
  let d := die.toNat
  if !s.dieUp d then .next s
  else
    match minBy chainLt ((s.die d).dmaQueue.filter (fun k => (s.engineFor d k).isSome)) with
    | none => .next s
    | some k =>
      match s.engineFor d k with
      | none => .next s
      | some e =>
        let s := s.modDie d (fun x => { x with dmaQueue := x.dmaQueue.filter (fun q => q.c != k.c) })
        .next (s.modEng d e (fun x => { x with chains := x.chains ++ [{ k with engine := e, seq := x.nextSeq + 1 }], nextSeq := x.nextSeq + 1 }))

/-! ### Descriptors (R385, R396) -/

/-- Writes of descriptors up to n of a chain that are not acknowledged. -/
def State.chainOut (s : State) (d : Nat) (c : CmdRef) (n : Nat) : Nat :=
  s.unanswered d (fun o => match o.kind with | .unitWrite k i _ => k == c && decide (i ≤ n) | _ => false)

/-- The end of a descriptor: its signal waits for its writes; the next one (or the next piece of a scrub), or the end of the chain. -/
def endDesc (k : Chain) (q : DmaDesc) : Chain :=
  let k := if q.sigen then { k with sigs := k.sigs ++ [⟨k.idx, q.signal, q.sigop, BitVec.ofNat 32 q.sigval⟩] } else k
  let k := { k with desc := none, rowPos := 0, buf := [], emit := [] }
  match k.pieces with
  | (lo, n) :: r => { k with desc := some (scrubDesc lo n), pos := 0, pieces := r }
  | [] => if q.nextv then { k with idx := k.idx + 1, va := q.next, pos := 0 } else { k with finished := true }

/-- The start of a descriptor. -/
def beginDesc (k : Chain) (w : List Word) (q : DmaDesc) : Chain :=
  if q.total = 0 then endDesc k q else { k with desc := some w, pos := 0, ordinal := q.edgeBase, mapWord := q.mapstart }

/-- Chains that have a descriptor to read. -/
def wantsDesc (e : Engine) : List Chain := e.chains.filter (fun k => k.desc.isNone && !k.finished && k.reason == 0)

/-- R391: the zero-length read to the VI's function: the host writes issued before it are acknowledged; without the function's link it fails. -/
def State.hostSync (s : State) (d : Nat) (k : Chain) : State :=
  s.modChain d k.c (fun k =>
    let k' := { k with hostOut := [] }
    if s.linkUp (diePkg d) k.vi then k' else k.hostOut.foldl (fun k i => chainFail k i 7) k')

/-- DMA_DESCRIPTOR_START (R385): the most urgent chain whose next descriptor may start; an ORDERED one has its host writes acknowledged first. -/
def execDmaDescriptorStart (die : BitVec 11) (eng : BitVec 3) (s : State) : Out :=
  let d := die.toNat
  let e := eng.toNat
  let u : XUnit := .dma d e
  if !s.dieUp d || !(s.die d).gate.getLsbD (dmaUnit e) then .next s
  else
    let held (k : Chain) : Bool :=
      match (s.readWords u k.tenant k.vi k.va 16).1 with
      | .inl w => (dmaDescOf w).ordered && s.chainOut d k.c k.idx != 0
      | .inr _ => false
    match minBy chainLt ((wantsDesc (s.eng d e)).filter (fun k => !held k)) with
    | none => .next s
    | some k =>
      match s.readWords u k.tenant k.vi k.va 16 with
      | (.inr er, s) => .next (s.modChain d k.c (fun k => chainFail k k.idx (accReason er)))
      | (.inl w, s) =>
        let q := dmaDescOf w
        if q.ordered && !k.hostOut.isEmpty then .next (s.hostSync d k)
        else if q.bad k.va k.idx then .next (s.modChain d k.c (fun k => chainFail k k.idx 5))
        else .next (s.modChain d k.c (fun k => beginDesc k w q))

/-! ### Choosing a block (R386) -/

/-- The chains that may perform a block. -/
def State.dmaCands (s : State) (d e : Nat) : List Chain :=
  (s.eng d e).chains.filter (fun k => k.desc.isSome && k.reason == 0 && !s.gated d k.cls)

/-- Round robin: chains after the last one come first. -/
def rotate (l : List Chain) (last : Nat) : List Chain := l.filter (fun k => decide (last < k.seq)) ++ l.filter (fun k => decide (k.seq ≤ last))

/-- DMA_BLOCK_START (R386, R49): the chain that has the next block, while the engine holds a token and owes none. -/
def execDmaBlockStart (die : BitVec 11) (eng : BitVec 3) (s : State) : Out :=
  let d := die.toNat
  let e := eng.toNat
  let x := s.eng d e
  if !s.dieUp d || !(s.die d).gate.getLsbD (dmaUnit e) || x.cur.isSome || !hasToken (s.die d) (132 + e) then .next s
  else
    match arbitrate (·.cls) (fun a b => workLt (a.cls, a.deadline, 0) (b.cls, b.deadline, 0)) (fun a b => decide (a.order < b.order)) x.streak
        (rotate (s.dmaCands d e) x.last) with
    | none => .next s
    | some (k, streak) => .next (s.modEng d e (fun x => { x with cur := some k.c, last := k.seq, streak := streak }))

/-- The chain and descriptor of the engine's block. -/
def State.dmaCur (s : State) (d e : Nat) : Option (Chain × DmaDesc) :=
  match (s.eng d e).cur with
  | none => none
  | some c => match (s.eng d e).chains.find? (fun k => k.c == c) with
    | none => none
    | some k => k.desc.map (fun w => (k, dmaDescOf w))

/-! ### Reads and writes by kind (R389 to R391) -/

/-- n bytes at a physical address for a tenant, line by line. -/
def State.dmaReadPa (s : State) (d : Nat) (k : Chain) (pa n : Nat) : Nat → (List Byte ⊕ AccErr) × State
  | 0 => (.inl [], s)
  | fuel + 1 =>
    if n = 0 then (.inl [], s) else
    let m := lineSpan pa n
    match s.readHome d k.tenant pa m with
    | (.inr e, f, s) => (.inr e, s.accFault d k.tenant k.vi f)
    | (.inl b, _, s) =>
      match s.dmaReadPa d k (pa + m) (n - m) fuel with
      | (.inl r, s) => (.inl (b ++ r), s)
      | e => e

/-- Reads n bytes of a kind; an error is its REASON. -/
def State.dmaRead (s : State) (d e : Nat) (k : Chain) (kind a n : Nat) : (List Byte ⊕ Nat) × State :=
  match kind with
  | 0 => (match s.readBytes (.dma d e) k.tenant k.vi a n with
    | (.inl b, s) => (.inl b, s)
    | (.inr er, s) => (.inr (accReason er), s))
  | 1 => (match s.dmaReadPa d k a n (n / 128 + 2) with
    | (.inl b, s) => (.inl b, s)
    | (.inr er, s) => (.inr (accReason er), s))
  | _ => if s.linkUp (diePkg d) k.vi then (.inl (s.hostRead (diePkg d) a n), s) else (.inr 7, s)

/-- Writes selected bytes of a kind; the REASON of an error.  `n` is 1 where the bytes are counted as written. -/
def State.dmaWrite (s : State) (d e n : Nat) (k : Chain) (kind a : Nat) (bs : List (Bool × Byte)) : Option Nat × State :=
  match kind with
  | 0 => (match s.writeVaSel (.dma d e) (.unitWrite k.c k.idx n) k.tenant k.vi k.cls k.deadline a bs with
    | (none, s) => (none, s)
    | (some er, s) => (some (accReason er), s))
  | 1 =>
    if 2 ^ 52 < a + bs.length then (some 1, s.accFault d k.tenant k.vi (some (5, a, 0)))
    else (none, s.sendParts d (.unitWrite k.c k.idx n) k.tenant k.vi k.cls k.deadline (paParts a bs.length (bs.length / 128 + 2)) (selBits bs))
  | _ =>
    if s.linkUp (diePkg d) k.vi then
      (none, bs.zipIdx.foldl (fun s (b, i) => if b.1 then s.hostWrite (diePkg d) (a + i) [b.2] else s) s)
    else (some 7, s)

def State.dmaWrites (s : State) (d e : Nat) (k : Chain) (kind : Nat) : List (Nat × List (Bool × Byte)) → Option Nat × State
  | [] => (none, s)
  | (a, bs) :: r =>
    if bs.isEmpty then s.dmaWrites d e k kind r
    else
      match s.dmaWrite d e 0 k kind a bs with
      | (none, s) => s.dmaWrites d e k kind r
      | er => er

/-- The writes of a COPY or FILL block, each counted; the REASON of an error, and the chain with its count. -/
def State.dmaMoves (s : State) (d e : Nat) (k : Chain) (kind : Nat) : List (Nat × List (Bool × Byte)) → Option Nat × Chain × State
  | [] => (none, k, s)
  | (a, bs) :: r =>
    match s.dmaWrite d e 1 k kind a bs with
    | (none, s) => s.dmaMoves d e { k with count := k.count + bs.length } kind r
    | (some er, s) => (some er, k, s)

/-- The engine's block is over: the chain as it stands, its data beats of 256 bytes charged, each for a token (R49, R386). -/
def State.endBlockDma (s : State) (d e : Nat) (k : Chain) (bytes : Nat) : State :=
  let beats := (bytes + 255) / 256
  let s := (s.charge d k.tenant actDma beats).modDie d (fun x => spendTokens x (132 + e) beats)
  (s.modEng d e (fun x => { x with cur := none })).modChain d k.c (fun _ => k)

/-- The block failed (R399). -/
def State.failBlock (s : State) (d e : Nat) (k : Chain) (reason : Nat) : State :=
  (s.modEng d e (fun x => { x with cur := none })).modChain d k.c (fun _ => chainFail k k.idx reason)

/-- R391: a descriptor that writes to host memory leaves writes to be covered by a read. -/
def noteHost (k : Chain) (q : DmaDesc) : Chain := if q.dkind = 2 ∧ !k.hostOut.contains k.idx then { k with hostOut := k.hostOut ++ [k.idx] } else k

/-- A block of one mode, if the engine's block is of that mode. -/
def dmaBlock (s : State) (d e mode : Nat) (f : Chain → DmaDesc → State → State) : Out :=
  if !s.dieUp d then .next s
  else
    match s.dmaCur d e with
    | none => .next s
    | some (k, q) => if q.mode ≠ mode then .next s else .next (f (noteHost k q) q s)

/-! ### COPY and FILL (R392) -/

/-- The parts of bytes lo to hi − 1 of a transfer: row, offset in the row, length. -/
def rowParts (rowbytes lo hi : Nat) : Nat → List (Nat × Nat × Nat)
  | 0 => []
  | fuel + 1 =>
    if hi ≤ lo ∨ rowbytes = 0 then []
    else
      let off := lo % rowbytes
      let n := min (rowbytes - off) (hi - lo)
      (lo / rowbytes, off, n) :: rowParts rowbytes (lo + n) hi fuel

/-- A transfer's next block: at most 4 KiB. -/
def nextParts (k : Chain) (q : DmaDesc) : List (Nat × Nat × Nat) × Nat :=
  let hi := min (k.pos + 4096) q.total
  (rowParts q.rowbytes k.pos hi (hi - k.pos), hi)

/-- The chain after bytes up to `hi` of its transfer. -/
def afterBytes (k : Chain) (q : DmaDesc) (hi : Nat) : Chain :=
  let k := { k with pos := hi }
  if q.total ≤ hi then endDesc k q else k

/-- R392: an address lies in the rows of a COPY's source. -/
def inSource (q : DmaDesc) (a : Nat) : Bool :=
  if a < q.src then false
  else if q.sstride = 0 then decide (a - q.src < q.rowbytes)
  else if q.sstride < q.rowbytes then decide (a - q.src < (q.rows - 1) * q.sstride + q.rowbytes)
  else decide ((a - q.src) % q.sstride < q.rowbytes) && decide ((a - q.src) / q.sstride < q.rows)

/-- R392: bytes written where destination and source overlap: each keeps its value or takes the source byte, by a free bit. -/
def State.overlapSel (s : State) (q : DmaDesc) (a : Nat) (b : List Byte) : List (Bool × Byte) × State :=
  if q.skind ≠ q.dkind ∨ !(b.zipIdx.any (fun x => inSource q (a + x.2))) then (b.map (fun x => (true, x)), s)
  else
    b.zipIdx.foldl (fun (l, s) (x, i) =>
      if inSource q (a + i) then (let (w, s) := State.draw s; (l ++ [(w.getLsbD 0, x)], s)) else (l ++ [(true, x)], s)) ([], s)

/-- The source bytes of parts. -/
def State.copyReads (s : State) (d e : Nat) (k : Chain) (q : DmaDesc) : List (Nat × Nat × Nat) → (List (Nat × List (Bool × Byte)) ⊕ Nat) × State
  | [] => (.inl [], s)
  | (r, off, n) :: rest =>
    match s.dmaRead d e k q.skind ((q.src + r * q.sstride + off) % 2 ^ 64) n with
    | (.inr er, s) => (.inr er, s)
    | (.inl b, s) =>
      let a := (q.dst + r * q.dstride + off) % 2 ^ 64
      let (bs, s) := s.overlapSel q a b
      match s.copyReads d e k q rest with
      | (.inl l, s) => (.inl ((a, bs) :: l), s)
      | er => er

/-- DMA_COPY (R392). -/
def execDmaCopy (die : BitVec 11) (eng : BitVec 3) (s : State) : Out :=
  let d := die.toNat
  let e := eng.toNat
  dmaBlock s d e 0 (fun k q s =>
    let (parts, hi) := nextParts k q
    match s.copyReads d e k q parts with
    | (.inr er, s) => s.failBlock d e k er
    | (.inl ws, s) =>
      match s.dmaMoves d e k q.dkind ws with
      | (some er, k, s) => s.failBlock d e k er
      | (none, w, s) => s.endBlockDma d e (afterBytes w q hi) (hi - k.pos))

/-- DMA_FILL (R392): PATTERN byte (a mod 4) at each address a. -/
def execDmaFill (die : BitVec 11) (eng : BitVec 3) (s : State) : Out :=
  let d := die.toNat
  let e := eng.toNat
  dmaBlock s d e 1 (fun k q s =>
    let (parts, hi) := nextParts k q
    let ws := parts.map (fun (r, off, n) =>
      let a := (q.dst + r * q.dstride + off) % 2 ^ 64
      (a, (List.range n).map (fun i => (true, BitVec.ofNat 8 (bits q.pattern (8 * ((a + i) % 4)) 8)))))
    match s.dmaMoves d e k q.dkind ws with
    | (some er, k, s) => s.failBlock d e k er
    | (none, w, s) => s.endBlockDma d e (afterBytes w q hi) (hi - k.pos))

/-! ### PRUNE and COMPRESS (R178, R179, R393, R394, R400) -/

/-- R178: an element is +0 or −0. -/
def edgeZero (efmt code : Nat) : Bool := (decodeFmt efmt code).isZero

/-- R178: a ranks above b by magnitude: a NaN above all, then the greater magnitude, then the lower index. -/
def pruneAbove (efmt : Nat) (a b : Nat × Nat) : Bool :=
  let x := (decodeFmt efmt a.2).abs
  let y := (decodeFmt efmt b.2).abs
  if x.isNan || y.isNan then (if x.isNan && y.isNan then decide (a.1 < b.1) else x.isNan)
  else vLt y x || (!vLt x y && decide (a.1 < b.1))

/-- The columns that PRUNE keeps of one group, ascending. -/
def pruneGroup (efmt keep : Nat) (g : List (Nat × Nat)) : List (Nat × Nat) :=
  let top := (g.foldr (insertBy (pruneAbove efmt)) []).take keep
  g.filter (fun x => top.contains x && !edgeZero efmt x.2)

/-- The edges of part of a dense row, which begins at a column that begins a group: columns and codes. -/
def rowEdges (q : DmaDesc) (col : Nat) (codes : List Nat) : List (Nat × Nat) :=
  let l := codes.zipIdx.map (fun (c, i) => (col + i, c))
  if q.mode = 3 then l.filter (fun x => !edgeZero q.efmt x.2)
  else ((chunks q.n ((l.length + q.n - 1) / q.n) l).map (pruneGroup q.efmt q.keep)).flatten

/-- R176: the words of a row's bitmap units. -/
def bitmapUnits (row : Nat) (cols : List Nat) : List Nat :=
  let spans := (cols.map (· / 4096)).eraseDups
  (spans.map (fun sp =>
    let mine := (cols.filter (fun c => c / 4096 == sp)).map (· % 4096)
    let blocks := (mine.map (· / 64)).eraseDups
    [row * 2 ^ 32 + sp * 2 ^ 12, blocks.foldl (fun a b => a + 2 ^ b) 0] ++
      blocks.map (fun b => (mine.filter (fun c => c / 64 == b)).foldl (fun a c => a + 2 ^ (c % 64)) 0))).flatten

/-- R386: the first n bytes of pending writes, and the rest. -/
def splitWrites (n : Nat) : List (Nat × List Byte) → List (Nat × List Byte) × List (Nat × List Byte)
  | [] => ([], [])
  | (a, b) :: r =>
    if b.length ≤ n then let (x, y) := splitWrites (n - b.length) r; ((a, b) :: x, y)
    else if n = 0 then ([], (a, b) :: r)
    else ([(a, b.take n)], (a + n, b.drop n) :: r)

/-- A block that issues pending writes; `done` is the chain after the last of them. -/
def State.emitBlock (s : State) (d e : Nat) (k : Chain) (q : DmaDesc) (done : Chain → Chain) : State :=
  let (now, rest) := splitWrites 4096 k.emit
  match s.dmaWrites d e k q.dkind (now.map (fun w => (w.1 % 2 ^ 64, w.2.map (fun x => (true, x))))) with
  | (some er, s) => s.failBlock d e k er
  | (none, s) =>
    let k := { k with emit := rest }
    s.endBlockDma d e (if rest.isEmpty then done k else k) ((now.map (·.2.length)).foldl (· + ·) 0)

/-- The number of the chain's row, modulo 2^32 (log 89), and its units. -/
def rowOfChain (k : Chain) (q : DmaDesc) : Nat := (q.firstrow + k.pos) % 2 ^ 32
def unitsOfChain (k : Chain) (q : DmaDesc) : List Nat := if q.bitmap then bitmapUnits (rowOfChain k q) (k.buf.map (·.1)) else []

/-- R400: the row's MAP_WORD, its EDGE_BASE or the ordinal of one of its edges would pass the greatest value. -/
def rowOverrun (k : Chain) (q : DmaDesc) : Bool :=
  decide (2 ^ 64 ≤ k.ordinal) || decide (2 ^ 64 < k.ordinal + k.buf.length) || (q.bitmap && decide (2 ^ 32 ≤ k.mapWord))

/-- R393: the writes of a row whose edges are known: records or units, values, and the row index entry. -/
def rowWrites (k : Chain) (q : DmaDesc) : List (Nat × List Byte) :=
  let row := rowOfChain k q
  let recs := if q.bitmap then (q.dst + 8 * k.mapWord, wordBytes (unitsOfChain k q))
    else (q.dst + 8 * k.ordinal, wordBytes (k.buf.map (fun x => row * 2 ^ 32 + x.1)))
  [recs, (q.values + k.ordinal * q.eb, (k.buf.map (fun x => leBytes q.eb x.2)).flatten),
   (q.index + 16 * row, wordBytes [k.ordinal, k.buf.length * 2 ^ 32 + (if q.bitmap then k.mapWord else 0)])].filter (fun w => !w.2.isEmpty)

/-- The chain after a row: the next one, or the end of the descriptor. -/
def afterRow (q : DmaDesc) (k : Chain) : Chain :=
  let k := { k with pos := k.pos + 1, ordinal := k.ordinal + k.buf.length, mapWord := k.mapWord + (unitsOfChain k q).length,
                    count := k.count + k.buf.length, rowPos := 0, buf := [] }
  if q.total ≤ k.pos then endDesc k q else k

/-- A block of PRUNE or COMPRESS: up to 4 KiB of the dense row read, or up to 4 KiB of its writes issued once all of it is read. -/
def State.edgeBlock (s : State) (d e : Nat) (k : Chain) (q : DmaDesc) : State :=
  if !k.emit.isEmpty then s.emitBlock d e k q (afterRow q)
  else
    let n := min 4096 (q.rowbytes * q.eb - k.rowPos)
    match s.dmaRead d e k q.skind ((q.src + k.pos * q.sstride + k.rowPos) % 2 ^ 64) n with
    | (.inr er, s) => s.failBlock d e k er
    | (.inl b, s) =>
      let k := { k with rowPos := k.rowPos + n, buf := k.buf ++ rowEdges q (k.rowPos / q.eb) ((chunks q.eb (n / q.eb) b).map leNat) }
      if k.rowPos < q.rowbytes * q.eb then s.endBlockDma d e k n
      else if rowOverrun k q then s.failBlock d e k 6
      else s.endBlockDma d e { k with emit := rowWrites k q } n

/-- DMA_PRUNE (R394). -/
def execDmaPrune (die : BitVec 11) (eng : BitVec 3) (s : State) : Out := dmaBlock s die.toNat eng.toNat 2 (fun k q s => s.edgeBlock die.toNat eng.toNat k q)

/-- DMA_COMPRESS (R393). -/
def execDmaCompress (die : BitVec 11) (eng : BitVec 3) (s : State) : Out := dmaBlock s die.toNat eng.toNat 3 (fun k q s => s.edgeBlock die.toNat eng.toNat k q)

/-! ### BIN (R180, R395) -/

/-- R180: the bin of a degree. -/
def binOf (degree : Nat) : Nat := if degree = 0 then 0 else Nat.log2 degree + 1

/-- R180, R395: the counts and the list, from rows and their bins. -/
def binOut (q : DmaDesc) (l : List (Nat × Nat)) : List Byte :=
  let order := if q.descending then (List.range 33).reverse else List.range 33
  let rowsOf (n : Nat) : List Nat := (l.filter (fun x => x.2 == n)).map (·.1)
  wordBytes (order.map (fun n => (rowsOf n).length)) ++ ((order.map rowsOf).flatten.map (leBytes 4)).flatten

/-- DMA_BIN (R395): the degrees are read in blocks, then 33 counts and the rows bin by bin are written in blocks. -/
def execDmaBin (die : BitVec 11) (eng : BitVec 3) (s : State) : Out :=
  let d := die.toNat
  let e := eng.toNat
  dmaBlock s d e 4 (fun k q s =>
    if !k.emit.isEmpty then s.emitBlock d e k q (fun k => endDesc { k with count := k.count + q.rows } q)
    else
      let n := min 4096 (16 * q.rows - k.rowPos)
      match s.dmaRead d e k q.skind ((q.src + 16 * q.firstrow + k.rowPos) % 2 ^ 64) n with
      | (.inr er, s) => s.failBlock d e k er
      | (.inl b, s) =>
        let got := (chunks 16 (n / 16) b).zipIdx.map (fun (w, i) => ((q.firstrow + k.rowPos / 16 + i) % 2 ^ 32, binOf (bits (wordAt w 1) 32 32)))
        let k := { k with rowPos := k.rowPos + n, buf := k.buf ++ got }
        s.endBlockDma d e (if k.rowPos < 16 * q.rows then k else { k with emit := [(q.dst, binOut q k.buf)] }) n)

/-! ### Signals and completion (R397 to R399) -/

/-- A signal of a descriptor that stands before any failed one. -/
def sigLive (k : Chain) (g : DmaSig) : Bool := k.reason == 0 || decide (g.desc < k.failed)

/-- DMA_DESCRIPTOR_SIGNAL (R397): the first signal of a chain of the engine whose writes, and those of earlier descriptors, are
acknowledged, those to host memory by a read (R391); LAST_WRITER names the engine (R320). -/
def execDmaDescriptorSignal (die : BitVec 11) (eng : BitVec 3) (s : State) : Out :=
  let d := die.toNat
  let e := eng.toNat
  if !s.dieUp d then .next s
  else
    match (s.eng d e).chains.find? (fun k => match k.sigs with | g :: _ => sigLive k g && s.chainOut d k.c g.desc == 0 | [] => false) with
    | none => .next s
    | some k =>
      match k.sigs with
      | [] => .next s
      | g :: rest =>
        if k.hostOut.any (fun i => decide (i ≤ g.desc)) then .next (s.hostSync d k)
        else
        let s := s.modChain d k.c (fun k => { k with sigs := rest, lastSig := some g.handle })
        .next (s.sendSig d (.sigPost 2 (BitVec.ofNat 23 (d * 4096 + e)) g.handle) k.tenant k.vi k.cls k.deadline (hDie g.handle) (hKey g.handle) (hEpoch g.handle)
          (if g.set then .set else .add) g.value.toNat lwDma (d * 4096 + e))

/-- The DMA result word. -/
def dmaResult (k : Chain) : Word :=
  BitVec.ofNat 64 ((if k.reason = 0 then 0 else 1) * 2 ^ 60 + k.reason * 2 ^ 56 + (if k.reason = 0 then 0 else k.failed % 2 ^ 16) * 2 ^ 40 + min k.count (2 ^ 40 - 1))

/-- The engine that holds a command's chain. -/
def State.chainFind (s : State) (c : CmdRef) : Option (Nat × Nat × Chain) :=
  (List.range 64).findSome? (fun i =>
    let d := c.p * 8 + i / 8
    ((s.eng d (i % 8)).chains.find? (fun k => k.c == c && !k.scrub)).map (fun k => (d, i % 8, k)))

/-- R398: the chain's last signal has been queued and not sent. -/
def State.sigQueued (s : State) (d e : Nat) (k : Chain) : Bool :=
  match k.lastSig with
  | some h => (s.die d).sendQ.any (fun q => q.1.kind == .sigPost 2 (BitVec.ofNat 23 (d * 4096 + e)) h)
  | none => false

/-- DMA_CHAIN_COMPLETE (R391, R398, R399): its writes are acknowledged and its last signal is sent; its token and slot return. -/
def execDmaChainComplete (cmd : CmdRef) (s : State) : Out :=
  match s.chainFind cmd with
  | none => .next s
  | some (d, e, k) =>
    if !s.dieUp d || (k.reason == 0 && !k.finished) || k.sigs.any (sigLive k) || s.cmdOut d cmd != 0 || s.sigQueued d e k then .next s
    else if !k.hostOut.isEmpty then .next (s.hostSync d k)
    else
      let s := s.modEng d e (fun x => { x with chains := x.chains.filter (fun q => q.c != cmd), cur := if x.cur == some cmd then none else x.cur })
      let s := s.releaseUnit 4 d cmd.v
      .next (s.finishCmd cmd (if k.reason = 0 then 0 else 2) (dmaResult k))

end Sys2Proof.Machine
end

