-- ==== Sys2Proof/Machine/Shunter.lean ====
section
/-! DEFINITION. The Shunter's commands (R186 to R201): which row or segment starts next, hub rows cut in segments of 512 edges and their partials
combined, and the start and completion of a SHUNT. -/
set_option Elab.async false
namespace Sys2Proof.Machine

/-! ### Rows and segments that can start (R188, R192, R201) -/

/-- The position of the n-th row that home cluster h of a command walks: blocks of 64 dealt over its clusters. -/
def posOf (k : ShCmd) (h n : Nat) : Nat := ((n / 64) * (32 * k.dies.length) + h) * 64 + n % 64

/-- The number of a cluster among a command's home clusters. -/
def homeNo (k : ShCmd) (c : Nat) : Option Nat := (k.dies.findIdx? (fun d => d == dieNo (clDie c))).map (fun i => i * 32 + clNo c)

/-- The rows of a command that a cluster has not started. -/
def nextPos (k : ShCmd) (w : Walk) (c : Nat) : Option Nat :=
  match homeNo k c with
  | none => none
  | some h => let p := posOf k h (tget k.started h 0); if p < w.rows ∧ !k.stop then some p else none

/-- The position whose row a cluster's Shunter may start for a command: it works on nothing, and the command is not gated. -/
def State.rowOf (s : State) (c : Nat) (k : ShCmd) : Option Nat :=
  if k.c.p != diePkg (clDie c) || (s.cluster c).work.isSome || s.gated (clDie c) k.cls then none else nextPos k (walkOf k.desc) c

/-- R192: the die that holds a segment's first coordinate record, or the first map word (SUPER) of its unit (log 91). -/
def State.segDie (s : State) (c : Nat) (k : ShCmd) (w : Walk) (h : Hub) : Option Nat :=
  ((s.xlat (.cluster c) k.tenant k.vi (if w.format = 0 then w.edges + 8 * (h.info.base + segLo h.dispatched) else h.start.va + 8)).1).map (fun x => paDie x.pa)

/-- A cluster that may run a segment: it runs, works on nothing, and serves the tenant. -/
def State.segFree (s : State) (k : ShCmd) (r : Nat) : Bool :=
  s.dieUp (clDie r) && s.unitRuns (clDie r) (clNo r) && (s.cluster r).work.isNone && !s.gated (clDie r) k.cls &&
  (s.viOf (diePkg (clDie r)) k.tenant).isSome

/-- R192: the cluster that runs a segment: one of the die that holds its start, the search beginning at the segment's number mod 32; the home
cluster where that die is not in service for the tenant (log 91). -/
def State.segCluster (s : State) (c : Nat) (k : ShCmd) (w : Walk) (h : Hub) : Option Nat :=
  let home := if s.segFree k c then some c else none
  match s.segDie c k w h with
  | none => home
  | some d =>
    if s.dieUp d && (s.viOf (diePkg d) k.tenant).isSome then
      ((List.range 32).map (fun i => d * 32 + (h.dispatched + i) % 32)).find? (s.segFree k)
    else home

/-- What a hub row's home cluster can do for its next segment: find its start (R193), or dispatch it to a cluster. -/
inductive SegDo where
  | scan
  | run (r : Nat)
  deriving DecidableEq, Repr

/-- R192: the hub row of a command that is being split: the first that the cluster met. -/
def hubOf (x : Cluster) (k : ShCmd) : Option Hub := x.hubs.find? (fun h => h.c == k.c)

/-- R192 to R194: the next segment of a command's hub row may be dispatched: a partial slot is free, and no partial of another hub row is out. -/
def State.segOf (s : State) (c : Nat) (k : ShCmd) : Option (Hub × SegDo) :=
  let x := s.cluster c
  match hubOf x k with
  | none => none
  | some h =>
    let w := walkOf k.desc
    let others := x.hubs.any (fun g => !(g.c == h.c && g.pos == h.pos) && decide (g.combined < g.dispatched))
    if h.bad.isSome || others || s.gated (clDie c) k.cls || decide (h.info.degree ≤ segLo h.dispatched) ||
        decide (h.combined + hubSlots w ≤ h.dispatched) then none
    else if w.format = 1 ∧ h.atSeg ≠ h.dispatched then (if x.work.isNone then some (h, .scan) else none)
    else (s.segCluster c k w h).map (fun r => (h, .run r))

/-- R201, R33: the command for which a cluster's Shunter starts a row or dispatches a segment next: class, deadline, command order, with the
lower-class floor. -/
def State.shuntPick (s : State) (c : Nat) : Option (ShCmd × Nat) :=
  let key : ShCmd → Nat × Nat × Nat := fun k => (k.cls, k.deadline, k.order)
  let all := (s.pkgs.map (fun p => p.2.shCmds)).flatten
  arbitrate (fun k => k.cls) (fun a b => workLt (key a) (key b)) (fun a b => decide (a.order < b.order)) (s.cluster c).shuntStreak
    (all.filter (fun k => (s.rowOf c k).isSome || (s.segOf c k).isSome))

/-- R140: port B of a cluster is granted to its Shunter for a command's work; with the new count of the port. -/
def State.shuntPort (s : State) (r : Nat) (k : ShCmd) : Option Nat :=
  match s.portGrant r 2 [{ key := 144, cls := k.cls, deadline := k.deadline }] with
  | some (q, n) => if q.key = 144 then some n else none
  | none => none

/-- The grants of a start are noted. -/
def State.shuntNote (s : State) (c streak r n : Nat) : State :=
  (s.modCluster c (fun x => { x with shuntStreak := streak })).portNote r 2 144 n

/-- SHUNTER_ROW_START (R140, R188, R201). -/
def execShunterRowStart (cl : BitVec 16) (s : State) : Out :=
  let c := cl.toNat
  if !s.dieUp (clDie c) || !s.unitRuns (clDie c) (clNo c) then .next s
  else
    match s.shuntPick c with
    | none => .next s
    | some (k, streak) =>
      match s.rowOf c k, s.shuntPort c k with
      | some p, some n =>
        let s := s.shuntNote c streak c n
        let s := s.modShCmd k.c (fun k => match homeNo k c with
          | some h => { k with started := tset k.started h (tget k.started h 0 + 1) }
          | none => k)
        .next (s.walkStart c k.c k.vi p .row)
      | _, _ => .next s

/-! ### Hub rows (R191 to R195) -/

/-- R187: a cluster's acquire before its first work for a command. -/
def State.shuntAcquire (s : State) (k : ShCmd) (r : Nat) : State :=
  if k.acquired.contains r then s
  else (s.acquire r k.tenant k.cls).modShCmd k.c (fun k => { k with acquired := k.acquired ++ [r] })

/-- A segment begins on a cluster. -/
def State.segStart (s : State) (c r : Nat) (k : ShCmd) (h : Hub) : State :=
  let s := s.modHub c k.c h.pos (fun h => { h with dispatched := h.dispatched + 1, running := h.running ++ [h.dispatched] })
  let s := s.shuntAcquire k r
  s.walkStart r k.c ((s.viOf (diePkg (clDie r)) k.tenant).getD k.vi) h.pos (.seg c h.dispatched h.info h.start)

/-- HUB_SEGMENT_DISPATCH (R140, R191 to R194, R201): the next segment, while a partial slot is free; in a bitmap row the scan that finds where it
starts comes first (R193). -/
def execHubSegmentDispatch (cl : BitVec 16) (s : State) : Out :=
  let c := cl.toNat
  if !s.dieUp (clDie c) || !s.unitRuns (clDie c) (clNo c) then .next s
  else
    match s.shuntPick c with
    | none => .next s
    | some (k, streak) =>
      match s.segOf c k with
      | some (h, .scan) =>
        (match s.shuntPort c k with
         | some n => .next ((s.shuntNote c streak c n).walkStart c k.c k.vi h.pos (.scan h.info h.start))
         | none => .next s)
      | some (h, .run r) =>
        (match s.shuntPort r k with
         | some n => .next ((s.shuntNote c streak r n).segStart c r k h)
         | none => .next s)
      | none => .next s

/-- R191, R194: a hub row whose next partial has arrived. -/
def Hub.ready (h : Hub) : Bool := h.bad.isNone && decide (h.combined < h.dispatched) && decide (h.size ≤ tget h.arrived h.combined 0)

/-- R191: a partial joined to those before it, and its slot freed (R194); after the last the row is written. -/
def State.combine1 (s : State) (c : Nat) (k : ShCmd) (h : Hub) (p : List AccEl) : State :=
  let w := walkOf k.desc
  let acc := if h.combined = 0 then p else (h.acc.zip p).map (fun e => joinEl w e.1 e.2)
  if h.info.degree ≤ segLo (h.combined + 1) then
    (s.modCluster c (fun x => { x with hubs := x.hubs.filter (fun g => !(g.c == h.c && g.pos == h.pos)) })).rowOut c k w h.pos (acc.map (finalCode w h.info.degree))
  else s.modHub c h.c h.pos (fun h => { h with combined := h.combined + 1, arrived := terase h.arrived h.combined, acc := acc })

/-- PARTIAL_COMBINE (R191, R194): the next partial, in order, read from the pool; an uncorrectable word gives the row reason ACCESS. -/
def execPartialCombine (cl : BitVec 16) (s : State) : Out :=
  let c := cl.toNat
  match (s.cluster c).hubs.find? Hub.ready with
  | none => .next s
  | some h =>
    match s.shCmd? h.c with
    | none => .next s
    | some k =>
      if !s.dieUp (clDie c) then .next s
      else
        let w := walkOf k.desc
        let pa := s.slotPa c w h.combined
        let s := (s.chargeMem k.tenant pa h.size).ceFoundAt pa
        match s.poisonIn pa h.size with
        | some u =>
          let s := s.memFault (clDie c) { kind := 3, tenant := k.tenant, vi := k.vi, cluster := clNo c, pa := u, detail := s.ueDetail u false }
          .next (s.segFail c h.c h.pos h.combined 5)
        | none => .next (s.combine1 c k h ((chunks (elemBytes w) w.w (s.readPa pa h.size)).map (elOfPartial w)))

/-! ### The command -/

/-- SHUNT (R185 to R187): the descriptor is read, and each participating cluster acquires. -/
def execShunt (cmd : CmdRef) (s : State) : Out :=
  startCmd s cmd 5 (fun k s =>
    let t := (s.vi cmd.p cmd.v).tenant
    let dies := k.dies
    let c0 := (cmd.p * 8 + dies.headD 0) * 32
    match s.readWords (.cluster c0) t cmd.v k.desc 8 with
    -- the descriptor cannot be read: ERROR with reason ACCESS (log 90)
    | (.inr _, s) => s.finishCmd cmd 2 (errResult 5)
    | (.inl desc, s) =>
      let w := walkOf desc
      if w.refused then s.finishCmd cmd 3 (refusedResult 5)
      else
        let cs := ((s.clusters.filter (fun e => clDie e.1 / 8 == cmd.p)).map (·.1)).filter (fun c => dies.contains (dieNo (clDie c)))
        let s := cs.foldl (fun s c => s.acquire c t k.cls) s
        let rec_ : ShCmd := { c := cmd, tenant := t, vi := cmd.v, cls := k.cls, deadline := k.deadline, desc := desc, dies := dies, order := (s.pkg cmd.p).nextCmd,
                              acquired := (dies.map (fun d => (List.range 32).map (fun i => (cmd.p * 8 + d) * 32 + i))).flatten }
        let s := s.modPkg cmd.p (fun x => { x with shCmds := x.shCmds ++ [rec_], nextCmd := x.nextCmd + 1 })
        s.setWork cmd .shunt)

/-- Every position that a command will start has started. -/
def allStarted (k : ShCmd) (w : Walk) : Bool :=
  k.stop || (List.range (32 * k.dies.length)).all (fun h => decide (w.rows ≤ posOf k h (tget k.started h 0)))

/-- R200: the SHUNT result word. -/
def shuntResult (outcome : Nat) (k : ShCmd) : Word :=
  let f := k.first.getD (0, 0)
  BitVec.ofNat 64 (outcome * 2 ^ 60 + f.2 * 2 ^ 56 + min k.bad (2 ^ 24 - 1) * 2 ^ 32 + f.1)

/-- SHUNT_COMPLETE (R197 to R200): every row done, and every output write acknowledged. -/
def execShuntComplete (cmd : CmdRef) (s : State) : Out :=
  match (s.pkg cmd.p).shCmds.find? (fun k => k.c == cmd) with
  | none => .next s
  | some k =>
    let w := walkOf k.desc
    let hubs := s.clusters.any (fun e => e.2.hubs.any (fun h => h.c == cmd) || (match e.2.work with | some k => k.c == cmd | none => false))
    let out := (List.range 8).foldl (fun n i => n + s.cmdOut (cmd.p * 8 + i) cmd) 0
    if !s.pkgUp cmd.p || !allStarted k w || hubs || out != 0 then .next s
    else
      let outcome := if k.bad = 0 then 0 else if w.badrow || k.err then 2 else 1
      let s := s.modPkg cmd.p (fun x => { x with shCmds := x.shCmds.filter (fun e => e.c != cmd) })
      .next (s.finishCmd cmd outcome (shuntResult outcome k))

end Sys2Proof.Machine
end

