-- ==== Sys2Proof/Machine/ThreadFp.lean ====
section
/-! DEFINITION. Floating-point and conversion instructions of threads (R100, R104 to R106). -/
set_option Elab.async false
namespace Sys2Proof.Machine

/-- R104: MOD[1:0] is RNE or RTZ; MOD[2] flushes. -/
def fpMode (md : BitVec 8) : Nat := md.toNat % 4
def fpModeOk (md : BitVec 8) : Bool := decide (fpMode md < 2)
def fpFlush (md : BitVec 8) : Bool := md.getLsbD 2

/-- R104: bits 31:0 of a source register. -/
def f32Of (w : Word) : BitVec 32 := w.truncate 32

/-- R100, R104: an F32 result: bits 63:32 cleared, its flags ORed into COND. -/
def putF32 (t : Thread) (rd : BitVec 6) (r : BitVec 32 × FpFlags) : Thread :=
  rset { t with cond := orSticky t.cond r.2 } rd (r.1.zeroExtend 64)

/-- An F32 instruction of two registers whose exact result is rounded once. -/
def execF2 (i : Instr) (th : BitVec 23) (rd ra rb : BitVec 6) (md : BitVec 8) (f : Val → Val → Val × FpFlags) (s : State) : Out :=
  performReg i th s (fun _ => illegalUnless (regOk rd && regOk ra && regOk rb && fpModeOk md)) (fun t =>
    putF32 t rd (toF32 (fpMode md) (fpFlush md) (f (f32Val (f32Of (rget t ra))) (f32Val (f32Of (rget t rb))))))

/-- FADD (R104). -/
def execFadd (th : BitVec 23) (rd ra rb : BitVec 6) (md : BitVec 8) (s : State) : Out := execF2 (.fadd th rd ra rb md) th rd ra rb md vAdd s

/-- FSUB (R104): the difference; a NaN operand stays a NaN. -/
def execFsub (th : BitVec 23) (rd ra rb : BitVec 6) (md : BitVec 8) (s : State) : Out :=
  execF2 (.fsub th rd ra rb md) th rd ra rb md (fun a b => vAdd a b.neg) s

/-- FMUL (R104). -/
def execFmul (th : BitVec 23) (rd ra rb : BitVec 6) (md : BitVec 8) (s : State) : Out := execF2 (.fmul th rd ra rb md) th rd ra rb md vMul s

/-- FFMA (R104): ra × rb + rc, rounded once. -/
def execFfma (th : BitVec 23) (rd ra rb rc : BitVec 6) (md : BitVec 8) (s : State) : Out :=
  performReg (.ffma th rd ra rb rc md) th s (fun _ => illegalUnless (regOk rd && regOk ra && regOk rb && regOk rc && fpModeOk md)) (fun t =>
    putF32 t rd (toF32 (fpMode md) (fpFlush md)
      (vFma (f32Val (f32Of (rget t ra))) (f32Val (f32Of (rget t rb))) (f32Val (f32Of (rget t rc))))))

/-- FMIN (R105). -/
def execFmin (th : BitVec 23) (rd ra rb : BitVec 6) (md : BitVec 8) (s : State) : Out := execF2 (.fmin th rd ra rb md) th rd ra rb md (vMinMax false) s

/-- FMAX (R105). -/
def execFmax (th : BitVec 23) (rd ra rb : BitVec 6) (md : BitVec 8) (s : State) : Out := execF2 (.fmax th rd ra rb md) th rd ra rb md (vMinMax true) s

/-- A sign-bit instruction: every other bit kept, no flags. -/
def execSign (i : Instr) (th : BitVec 23) (rd ra : BitVec 6) (md : BitVec 8) (f : BitVec 32 → BitVec 32) (s : State) : Out :=
  performReg i th s (fun _ => illegalUnless (regOk rd && regOk ra && fpModeOk md)) (fun t =>
    rset t rd ((f (f32Of (rget t ra))).zeroExtend 64))

/-- FABS (R104 table): sign bit cleared, NaNs included. -/
def execFabs (th : BitVec 23) (rd ra : BitVec 6) (md : BitVec 8) (s : State) : Out :=
  execSign (.fabs th rd ra md) th rd ra md (· &&& 0x7FFFFFFF#32) s

/-- FNEG (R104 table): sign bit inverted, NaNs included. -/
def execFneg (th : BitVec 23) (rd ra : BitVec 6) (md : BitVec 8) (s : State) : Out :=
  execSign (.fneg th rd ra md) th rd ra md (· ^^^ 0x80000000#32) s

/-- FDIV (R104). -/
def execFdiv (th : BitVec 23) (rd ra rb : BitVec 6) (md : BitVec 8) (s : State) : Out := execF2 (.fdiv th rd ra rb md) th rd ra rb md vDiv s

/-- FSQRT (R104). -/
def execFsqrt (th : BitVec 23) (rd ra : BitVec 6) (md : BitVec 8) (s : State) : Out :=
  performReg (.fsqrt th rd ra md) th s (fun _ => illegalUnless (regOk rd && regOk ra && fpModeOk md)) (fun t =>
    putF32 t rd (toF32 (fpMode md) (fpFlush md) (vSqrt (f32Val (f32Of (rget t ra))))))

/-- R100: the flags of FCMP: Z equal, N less, V unordered, C cleared; NV on any NaN operand. -/
def fcmpFlags (cond : BitVec 8) (a b : Val) : BitVec 8 :=
  let un := a.isNan || b.isNan
  orSticky (setZncv cond (!un && vEq a b) (!un && vLt a b) false un) (if un then fpNV else 0)

/-- FCMP (R100). -/
def execFcmp (th : BitVec 23) (ra rb : BitVec 6) (s : State) : Out :=
  performReg (.fcmp th ra rb) th s (fun _ => illegalUnless (regOk ra && regOk rb)) (fun t =>
    { t with cond := fcmpFlags t.cond (f32Val (f32Of (rget t ra))) (f32Val (f32Of (rget t rb))) })

/-- R106: a converted value as rd takes it: floating and L8 zero-extended, integers sign-extended. -/
def cvtWord (fmt code : Nat) : Word :=
  match iFmt fmt with
  | some w => BitVec.ofInt 64 (signed code w)
  | none => BitVec.ofNat 64 code

/-- CVT (R106): from the MOD[7:4] format, read from the low bits of ra, to the FN format. -/
def execCvt (th : BitVec 23) (rd ra : BitVec 6) (fn md : BitVec 8) (s : State) : Out :=
  performReg (.cvt th rd ra fn md) th s (fun _ => illegalUnless (regOk rd && regOk ra && fpModeOk md && decide (fn.toNat < 12) && decide (md.toNat / 16 < 12)))
    (fun t =>
      let from_ := md.toNat / 16
      let v := decodeFmt from_ (bits (rget t ra).toNat 0 (fmtBits from_))
      let (c, f) := encodeFmt fn.toNat (fpMode md) (fpFlush md) 0 v
      rset { t with cond := orSticky t.cond f } rd (cvtWord fn.toNat c))

end Sys2Proof.Machine
end

