-- ==== Sys2Proof/Machine/Dispatch.lean ====
section
/-! DEFINITION. One arm for each command (each row of spec/opcode_table.json). -/
namespace Sys2Proof.Machine

/-- The effect of a command on everything but the queue. -/
def exec (i : Instr) (s : State) : Host.Outcome State Fault Refusal :=
  match i with
  | .add th rd ra rb sf => Sys2Proof.Machine.execAdd th rd ra rb sf s
  | .sub th rd ra rb sf => Sys2Proof.Machine.execSub th rd ra rb sf s
  | .and th rd ra rb sf => Sys2Proof.Machine.execAnd th rd ra rb sf s
  | .or th rd ra rb sf => Sys2Proof.Machine.execOr th rd ra rb sf s
  | .xor th rd ra rb sf => Sys2Proof.Machine.execXor th rd ra rb sf s
  | .andn th rd ra rb sf => Sys2Proof.Machine.execAndn th rd ra rb sf s
  | .shl th rd ra rb sf => Sys2Proof.Machine.execShl th rd ra rb sf s
  | .shr th rd ra rb sf => Sys2Proof.Machine.execShr th rd ra rb sf s
  | .sar th rd ra rb sf => Sys2Proof.Machine.execSar th rd ra rb sf s
  | .ror th rd ra rb sf => Sys2Proof.Machine.execRor th rd ra rb sf s
  | .min th rd ra rb sf => Sys2Proof.Machine.execMin th rd ra rb sf s
  | .max th rd ra rb sf => Sys2Proof.Machine.execMax th rd ra rb sf s
  | .minu th rd ra rb sf => Sys2Proof.Machine.execMinu th rd ra rb sf s
  | .maxu th rd ra rb sf => Sys2Proof.Machine.execMaxu th rd ra rb sf s
  | .slt th rd ra rb sf => Sys2Proof.Machine.execSlt th rd ra rb sf s
  | .sltu th rd ra rb sf => Sys2Proof.Machine.execSltu th rd ra rb sf s
  | .clz th rd ra sf => Sys2Proof.Machine.execClz th rd ra sf s
  | .ctz th rd ra sf => Sys2Proof.Machine.execCtz th rd ra sf s
  | .popc th rd ra sf => Sys2Proof.Machine.execPopc th rd ra sf s
  | .bswap th rd ra sf => Sys2Proof.Machine.execBswap th rd ra sf s
  | .mul th rd ra rb sf => Sys2Proof.Machine.execMul th rd ra rb sf s
  | .mulh th rd ra rb sf => Sys2Proof.Machine.execMulh th rd ra rb sf s
  | .mulhu th rd ra rb sf => Sys2Proof.Machine.execMulhu th rd ra rb sf s
  | .div th rd ra rb sf => Sys2Proof.Machine.execDiv th rd ra rb sf s
  | .divu th rd ra rb sf => Sys2Proof.Machine.execDivu th rd ra rb sf s
  | .rem th rd ra rb sf => Sys2Proof.Machine.execRem th rd ra rb sf s
  | .remu th rd ra rb sf => Sys2Proof.Machine.execRemu th rd ra rb sf s
  | .madd th rd ra rb rc sf => Sys2Proof.Machine.execMadd th rd ra rb rc sf s
  | .alui th rd ra fn6 imm => Sys2Proof.Machine.execAlui th rd ra fn6 imm s
  | .li th rd imm => Sys2Proof.Machine.execLi th rd imm s
  | .lih th rd imm => Sys2Proof.Machine.execLih th rd imm s
  | .cmp th ra rb => Sys2Proof.Machine.execCmp th ra rb s
  | .cmpi th ra imm => Sys2Proof.Machine.execCmpi th ra imm s
  | .sel th rd ra rb rc sf => Sys2Proof.Machine.execSel th rd ra rb rc sf s
  | .fadd th rd ra rb md => Sys2Proof.Machine.execFadd th rd ra rb md s
  | .fsub th rd ra rb md => Sys2Proof.Machine.execFsub th rd ra rb md s
  | .fmul th rd ra rb md => Sys2Proof.Machine.execFmul th rd ra rb md s
  | .ffma th rd ra rb rc md => Sys2Proof.Machine.execFfma th rd ra rb rc md s
  | .fmin th rd ra rb md => Sys2Proof.Machine.execFmin th rd ra rb md s
  | .fmax th rd ra rb md => Sys2Proof.Machine.execFmax th rd ra rb md s
  | .fabs th rd ra md => Sys2Proof.Machine.execFabs th rd ra md s
  | .fneg th rd ra md => Sys2Proof.Machine.execFneg th rd ra md s
  | .fdiv th rd ra rb md => Sys2Proof.Machine.execFdiv th rd ra rb md s
  | .fsqrt th rd ra md => Sys2Proof.Machine.execFsqrt th rd ra md s
  | .fcmp th ra rb => Sys2Proof.Machine.execFcmp th ra rb s
  | .cvt th rd ra fn md => Sys2Proof.Machine.execCvt th rd ra fn md s
  | .padd th rd ra rb rc md sf => Sys2Proof.Machine.execPadd th rd ra rb rc md sf s
  | .psub th rd ra rb rc md sf => Sys2Proof.Machine.execPsub th rd ra rb rc md sf s
  | .pmin th rd ra rb rc md sf => Sys2Proof.Machine.execPmin th rd ra rb rc md sf s
  | .pmax th rd ra rb rc md sf => Sys2Proof.Machine.execPmax th rd ra rb rc md sf s
  | .pminu th rd ra rb rc md sf => Sys2Proof.Machine.execPminu th rd ra rb rc md sf s
  | .pmaxu th rd ra rb rc md sf => Sys2Proof.Machine.execPmaxu th rd ra rb rc md sf s
  | .pcmp th fn rd ra rb rc md sf => Sys2Proof.Machine.execPcmp th fn rd ra rb rc md sf s
  | .mpop th rd ra sf => Sys2Proof.Machine.execMpop th rd ra sf s
  | .mfirst th rd ra sf => Sys2Proof.Machine.execMfirst th rd ra sf s
  | .mlast th rd ra sf => Sys2Proof.Machine.execMlast th rd ra sf s
  | .mrange th rd ra sf => Sys2Proof.Machine.execMrange th rd ra sf s
  | .ld th rd ra imm mod6 dep => Sys2Proof.Machine.execLd th rd ra imm mod6 dep s
  | .st th ra rb imm mod6 dep => Sys2Proof.Machine.execSt th ra rb imm mod6 dep s
  | .gld th rd ra rb rc md dep => Sys2Proof.Machine.execGld th rd ra rb rc md dep s
  | .sst th rd ra rb rc md dep => Sys2Proof.Machine.execSst th rd ra rb rc md dep s
  | .amoAdd th rd ra rb md => Sys2Proof.Machine.execAmoAdd th rd ra rb md s
  | .amoFadd32 th rd ra rb md => Sys2Proof.Machine.execAmoFadd32 th rd ra rb md s
  | .amoMin th rd ra rb md => Sys2Proof.Machine.execAmoMin th rd ra rb md s
  | .amoMax th rd ra rb md => Sys2Proof.Machine.execAmoMax th rd ra rb md s
  | .amoMinu th rd ra rb md => Sys2Proof.Machine.execAmoMinu th rd ra rb md s
  | .amoMaxu th rd ra rb md => Sys2Proof.Machine.execAmoMaxu th rd ra rb md s
  | .amoOr th rd ra rb md => Sys2Proof.Machine.execAmoOr th rd ra rb md s
  | .amoCas th rd ra rb rc md => Sys2Proof.Machine.execAmoCas th rd ra rb rc md s
  | .sigAdd th ra rb md => Sys2Proof.Machine.execSigAdd th ra rb md s
  | .sigSet th ra rb md => Sys2Proof.Machine.execSigSet th ra rb md s
  | .sigRead th rd ra md => Sys2Proof.Machine.execSigRead th rd ra md s
  | .sigWait th rd ra rb rc md => Sys2Proof.Machine.execSigWait th rd ra rb rc md s
  | .sigTake th rd ra rb rc md => Sys2Proof.Machine.execSigTake th rd ra rb rc md s
  | .bc th cc imm => Sys2Proof.Machine.execBc th cc imm s
  | .br th cc ra rb imm => Sys2Proof.Machine.execBr th cc ra rb imm s
  | .jmp th imm => Sys2Proof.Machine.execJmp th imm s
  | .jmpr th ra => Sys2Proof.Machine.execJmpr th ra s
  | .call th imm => Sys2Proof.Machine.execCall th imm s
  | .callr th ra => Sys2Proof.Machine.execCallr th ra s
  | .ret th => Sys2Proof.Machine.execRet th s
  | .exit th => Sys2Proof.Machine.execExit th s
  | .travel th ra => Sys2Proof.Machine.execTravel th ra s
  | .brk th imm => Sys2Proof.Machine.execBrk th imm s
  | .nop th => Sys2Proof.Machine.execNop th s
  | .fenceFull th => Sys2Proof.Machine.execFenceFull th s
  | .fenceAcquire th => Sys2Proof.Machine.execFenceAcquire th s
  | .fenceRelease th => Sys2Proof.Machine.execFenceRelease th s
  | .fenceDrain th => Sys2Proof.Machine.execFenceDrain th s
  | .mfs th rd imm => Sys2Proof.Machine.execMfs th rd imm s
  | .mts th ra imm => Sys2Proof.Machine.execMts th ra imm s
  | .tret th => Sys2Proof.Machine.execTret th s
  | .rhout th ra rb => Sys2Proof.Machine.execRhout th ra rb s
  | .rhin th ra rb => Sys2Proof.Machine.execRhin th ra rb s
  | .instructionFetch th dep => Sys2Proof.Machine.execInstructionFetch th dep s
  | .missRegisterGrant cl => Sys2Proof.Machine.execMissRegisterGrant cl s
  | .platformQueueGrant cl lane => Sys2Proof.Machine.execPlatformQueueGrant cl lane s
  | .patrolScrub die yard off ecc => Sys2Proof.Machine.execPatrolScrub die yard off ecc s
  | .dramRefresh die pc bank => Sys2Proof.Machine.execDramRefresh die pc bank s
  | .launchPlaceThread die => Sys2Proof.Machine.execLaunchPlaceThread die s
  | .arrivalQueueEnter die => Sys2Proof.Machine.execArrivalQueueEnter die s
  | .travelQueryTimer th => Sys2Proof.Machine.execTravelQueryTimer th s
  | .ticketHeldTimer th => Sys2Proof.Machine.execTicketHeldTimer th s
  | .notSeenRecordExpire die => Sys2Proof.Machine.execNotSeenRecordExpire die s
  | .travelResetWaitExpire th => Sys2Proof.Machine.execTravelResetWaitExpire th s
  | .coreUndervoltage die mv us => Sys2Proof.Machine.execCoreUndervoltage die mv us s
  | .monitorMeasure die m rate temp => Sys2Proof.Machine.execMonitorMeasure die m rate temp s
  | .monitorStale die m => Sys2Proof.Machine.execMonitorStale die m s
  | .governorTick pkg => Sys2Proof.Machine.execGovernorTick pkg s
  | .rateShortfall die => Sys2Proof.Machine.execRateShortfall die s
  | .shunterRowStart cl => Sys2Proof.Machine.execShunterRowStart cl s
  | .hubSegmentDispatch cl => Sys2Proof.Machine.execHubSegmentDispatch cl s
  | .partialCombine cl => Sys2Proof.Machine.execPartialCombine cl s
  | .shuntComplete cmd => Sys2Proof.Machine.execShuntComplete cmd s
  | .muTakeEntry die mu => Sys2Proof.Machine.execMuTakeEntry die mu s
  | .muTileStart die mu => Sys2Proof.Machine.execMuTileStart die mu s
  | .muRunComplete cmd => Sys2Proof.Machine.execMuRunComplete cmd s
  | .consistTilePass die mu => Sys2Proof.Machine.execConsistTilePass die mu s
  | .consistIterationStart die mu => Sys2Proof.Machine.execConsistIterationStart die mu s
  | .consistLd die mu => Sys2Proof.Machine.execConsistLd die mu s
  | .consistSt die mu => Sys2Proof.Machine.execConsistSt die mu s
  | .consistFn die mu => Sys2Proof.Machine.execConsistFn die mu s
  | .consistRed die mu => Sys2Proof.Machine.execConsistRed die mu s
  | .consistCst die mu => Sys2Proof.Machine.execConsistCst die mu s
  | .consistXld die mu => Sys2Proof.Machine.execConsistXld die mu s
  | .consistLdp die mu => Sys2Proof.Machine.execConsistLdp die mu s
  | .consistStp die mu => Sys2Proof.Machine.execConsistStp die mu s
  | .consistRunComplete cmd => Sys2Proof.Machine.execConsistRunComplete cmd s
  | .routeSelect cmd => Sys2Proof.Machine.execRouteSelect cmd s
  | .routeDispatch cmd => Sys2Proof.Machine.execRouteDispatch cmd s
  | .routeCombine cmd => Sys2Proof.Machine.execRouteCombine cmd s
  | .pointsBlockStart die => Sys2Proof.Machine.execPointsBlockStart die s
  | .routeComplete cmd => Sys2Proof.Machine.execRouteComplete cmd s
  | .routeTableRevision pkg => Sys2Proof.Machine.execRouteTableRevision pkg s
  | .signalAddApply die => Sys2Proof.Machine.execSignalAddApply die s
  | .signalSetApply die => Sys2Proof.Machine.execSignalSetApply die s
  | .signalReadApply die => Sys2Proof.Machine.execSignalReadApply die s
  | .signalWaitArrive die => Sys2Proof.Machine.execSignalWaitArrive die s
  | .waitTimeoutExpire w => Sys2Proof.Machine.execWaitTimeoutExpire w s
  | .remoteWaitRetry w => Sys2Proof.Machine.execRemoteWaitRetry w s
  | .coreSignalRelease die idx => Sys2Proof.Machine.execCoreSignalRelease die idx s
  | .blockSectionScan die => Sys2Proof.Machine.execBlockSectionScan die s
  | .trainingAttempt port obs => Sys2Proof.Machine.execTrainingAttempt port obs s
  | .trainingRetryTimer port => Sys2Proof.Machine.execTrainingRetryTimer port s
  | .flitReceived port syms => Sys2Proof.Machine.execFlitReceived port syms s
  | .nakReceived port ackseq => Sys2Proof.Machine.execNakReceived port ackseq s
  | .linkRetrainTrigger port => Sys2Proof.Machine.execLinkRetrainTrigger port s
  | .cancellerLockLost port => Sys2Proof.Machine.execCancellerLockLost port s
  | .creditSync port rep => Sys2Proof.Machine.execCreditSync port rep s
  | .widthStep port w seq => Sys2Proof.Machine.execWidthStep port w seq s
  | .creditAudit port rep => Sys2Proof.Machine.execCreditAudit port rep s
  | .junctionBeatNak die j => Sys2Proof.Machine.execJunctionBeatNak die j s
  | .rdPacket pk ecc => Sys2Proof.Machine.execRdPacket pk ecc s
  | .wrPacket pk ecc => Sys2Proof.Machine.execWrPacket pk ecc s
  | .amoPacket pk => Sys2Proof.Machine.execAmoPacket pk s
  | .sigPacket pk => Sys2Proof.Machine.execSigPacket pk s
  | .cancelPacket pk => Sys2Proof.Machine.execCancelPacket pk s
  | .ticketPacket pk => Sys2Proof.Machine.execTicketPacket pk s
  | .tqueryPacket pk => Sys2Proof.Machine.execTqueryPacket pk s
  | .mgmtPacket pk => Sys2Proof.Machine.execMgmtPacket pk s
  | .epochPacket pk => Sys2Proof.Machine.execEpochPacket pk s
  | .mapPacket pk => Sys2Proof.Machine.execMapPacket pk s
  | .ackPacket pk => Sys2Proof.Machine.execAckPacket pk s
  | .dataPacket pk => Sys2Proof.Machine.execDataPacket pk s
  | .amorspPacket pk => Sys2Proof.Machine.execAmorspPacket pk s
  | .sigrspPacket pk => Sys2Proof.Machine.execSigrspPacket pk s
  | .trspPacket pk => Sys2Proof.Machine.execTrspPacket pk s
  | .mapSend pkg => Sys2Proof.Machine.execMapSend pkg s
  | .dma cmd => Sys2Proof.Machine.execDma cmd s
  | .dmaChainAccept cmd => Sys2Proof.Machine.execDmaChainAccept cmd s
  | .dmaChainStart die => Sys2Proof.Machine.execDmaChainStart die s
  | .dmaDescriptorStart die eng => Sys2Proof.Machine.execDmaDescriptorStart die eng s
  | .dmaCopy die eng => Sys2Proof.Machine.execDmaCopy die eng s
  | .dmaFill die eng => Sys2Proof.Machine.execDmaFill die eng s
  | .dmaPrune die eng => Sys2Proof.Machine.execDmaPrune die eng s
  | .dmaCompress die eng => Sys2Proof.Machine.execDmaCompress die eng s
  | .dmaBin die eng => Sys2Proof.Machine.execDmaBin die eng s
  | .dmaBlockStart die eng => Sys2Proof.Machine.execDmaBlockStart die eng s
  | .dmaDescriptorSignal die eng => Sys2Proof.Machine.execDmaDescriptorSignal die eng s
  | .dmaChainComplete cmd => Sys2Proof.Machine.execDmaChainComplete cmd s
  | .viReset pkg vi scrub => Sys2Proof.Machine.execViReset pkg vi scrub s
  | .viResetZeroOutstanding pkg vi => Sys2Proof.Machine.execViResetZeroOutstanding pkg vi s
  | .viResetForceTimer pkg vi => Sys2Proof.Machine.execViResetForceTimer pkg vi s
  | .tagQuarantineEnd die tag => Sys2Proof.Machine.execTagQuarantineEnd die tag s
  | .viScrubComplete pkg vi => Sys2Proof.Machine.execViScrubComplete pkg vi s
  | .vfEnableSet pkg pf16 => Sys2Proof.Machine.execVfEnableSet pkg pf16 s
  | .vfEnableClear pkg pf16 => Sys2Proof.Machine.execVfEnableClear pkg pf16 s
  | .functionLevelReset pkg vi => Sys2Proof.Machine.execFunctionLevelReset pkg vi s
  | .hardwareLedgerAudit die led => Sys2Proof.Machine.execHardwareLedgerAudit die led s
  | .forcedLedgerAudit die led => Sys2Proof.Machine.execForcedLedgerAudit die led s
  | .shareLedgerAudit die ledger => Sys2Proof.Machine.execShareLedgerAudit die ledger s
  | .substationStart die => Sys2Proof.Machine.execSubstationStart die s
  | .softStartCheckpoint die mv ocUs => Sys2Proof.Machine.execSoftStartCheckpoint die mv ocUs s
  | .softStartRetry die => Sys2Proof.Machine.execSoftStartRetry die s
  | .substationOvercurrent die amps us => Sys2Proof.Machine.execSubstationOvercurrent die amps us s
  | .powerMeasure pkg input doms => Sys2Proof.Machine.execPowerMeasure pkg input doms s
  | .voltageCommand die op => Sys2Proof.Machine.execVoltageCommand die op s
  | .slewSettled die mv => Sys2Proof.Machine.execSlewSettled die mv s
  | .powerInterval pkg proj => Sys2Proof.Machine.execPowerInterval pkg proj s
  | .hardLimitTrip pkg => Sys2Proof.Machine.execHardLimitTrip pkg s
  | .hardThrottleRelease pkg => Sys2Proof.Machine.execHardThrottleRelease pkg s
  | .thermalHard die => Sys2Proof.Machine.execThermalHard die s
  | .thermalHardRelease die => Sys2Proof.Machine.execThermalHardRelease die s
  | .thermalTrip die m => Sys2Proof.Machine.execThermalTrip die m s
  | .stackTempReport die temp => Sys2Proof.Machine.execStackTempReport die temp s
  | .watermarkCompare pkg k => Sys2Proof.Machine.execWatermarkCompare pkg k s
  | .hintWindowStart die => Sys2Proof.Machine.execHintWindowStart die s
  | .hintWindowEnd die => Sys2Proof.Machine.execHintWindowEnd die s
  | .energySlice pkg => Sys2Proof.Machine.execEnergySlice pkg s
  | .mailboxGo pkg vi => Sys2Proof.Machine.execMailboxGo pkg vi s
  | .droppedClear pkg vi => Sys2Proof.Machine.execDroppedClear pkg vi s
  | .ringDoorbellWrite pkg vi ring tail => Sys2Proof.Machine.execRingDoorbellWrite pkg vi ring tail s
  | .registerWrite pkg vi off size val => Sys2Proof.Machine.execRegisterWrite pkg vi off size val s
  | .windowBRead pkg vi woff len => Sys2Proof.Machine.execWindowBRead pkg vi woff len s
  | .windowBWrite pkg vi woff bytes => Sys2Proof.Machine.execWindowBWrite pkg vi woff bytes s
  | .atomicFetchadd pkg vi woff wide val => Sys2Proof.Machine.execAtomicFetchadd pkg vi woff wide val s
  | .atomicCas pkg vi woff wide cmp val => Sys2Proof.Machine.execAtomicCas pkg vi woff wide cmp val s
  | .atomicUnsupported pkg vi woff kind => Sys2Proof.Machine.execAtomicUnsupported pkg vi woff kind s
  | .ringFetch pkg pdie => Sys2Proof.Machine.execRingFetch pkg pdie s
  | .coalesceTimer pkg vi ring => Sys2Proof.Machine.execCoalesceTimer pkg vi ring s
  | .nopCommand cmd => Sys2Proof.Machine.execNopCommand cmd s
  | .launch cmd => Sys2Proof.Machine.execLaunch cmd s
  | .travelPolicy cmd => Sys2Proof.Machine.execTravelPolicy cmd s
  | .muRun cmd => Sys2Proof.Machine.execMuRun cmd s
  | .consistRun cmd => Sys2Proof.Machine.execConsistRun cmd s
  | .shunt cmd => Sys2Proof.Machine.execShunt cmd s
  | .sigSetCommand cmd => Sys2Proof.Machine.execSigSetCommand cmd s
  | .sigWaitCommand cmd => Sys2Proof.Machine.execSigWaitCommand cmd s
  | .hintPhase cmd => Sys2Proof.Machine.execHintPhase cmd s
  | .hintPhaseEnd cmd => Sys2Proof.Machine.execHintPhaseEnd cmd s
  | .setOp cmd => Sys2Proof.Machine.execSetOp cmd s
  | .fenceCommand cmd => Sys2Proof.Machine.execFenceCommand cmd s
  | .perst0Assert pkg us => Sys2Proof.Machine.execPerst0Assert pkg us s
  | .perst1Assert pkg us => Sys2Proof.Machine.execPerst1Assert pkg us s
  | .smbusGo pkg => Sys2Proof.Machine.execSmbusGo pkg s
  | .smbusClearDropped pkg => Sys2Proof.Machine.execSmbusClearDropped pkg s
  | .identify pkg mb => Sys2Proof.Machine.execIdentify pkg mb s
  | .position pkg mb => Sys2Proof.Machine.execPosition pkg mb s
  | .viBind pkg mb => Sys2Proof.Machine.execViBind pkg mb s
  | .viUnbind pkg mb => Sys2Proof.Machine.execViUnbind pkg mb s
  | .viResetMessage pkg mb => Sys2Proof.Machine.execViResetMessage pkg mb s
  | .viMove pkg mb => Sys2Proof.Machine.execViMove pkg mb s
  | .viCeiling pkg mb => Sys2Proof.Machine.execViCeiling pkg mb s
  | .viWindow pkg mb => Sys2Proof.Machine.execViWindow pkg mb s
  | .viTrap pkg mb => Sys2Proof.Machine.execViTrap pkg mb s
  | .viQuery pkg mb => Sys2Proof.Machine.execViQuery pkg mb s
  | .sectionMap pkg mb => Sys2Proof.Machine.execSectionMap pkg mb s
  | .sectionUnmap pkg mb => Sys2Proof.Machine.execSectionUnmap pkg mb s
  | .sectionRead pkg mb => Sys2Proof.Machine.execSectionRead pkg mb s
  | .sectionTables pkg mb => Sys2Proof.Machine.execSectionTables pkg mb s
  | .ringConfigure pkg mb => Sys2Proof.Machine.execRingConfigure pkg mb s
  | .ringResume pkg mb => Sys2Proof.Machine.execRingResume pkg mb s
  | .ringAbort pkg mb => Sys2Proof.Machine.execRingAbort pkg mb s
  | .ringDisable pkg mb => Sys2Proof.Machine.execRingDisable pkg mb s
  | .ringCoalesce pkg mb => Sys2Proof.Machine.execRingCoalesce pkg mb s
  | .ringQuery pkg mb => Sys2Proof.Machine.execRingQuery pkg mb s
  | .signalAlloc pkg mb => Sys2Proof.Machine.execSignalAlloc pkg mb s
  | .signalFree pkg mb => Sys2Proof.Machine.execSignalFree pkg mb s
  | .signalTimeout pkg mb => Sys2Proof.Machine.execSignalTimeout pkg mb s
  | .signalEvents pkg mb => Sys2Proof.Machine.execSignalEvents pkg mb s
  | .signalReports pkg mb => Sys2Proof.Machine.execSignalReports pkg mb s
  | .signalScan pkg mb => Sys2Proof.Machine.execSignalScan pkg mb s
  | .signalStatus pkg mb => Sys2Proof.Machine.execSignalStatus pkg mb s
  | .powerCap pkg mb => Sys2Proof.Machine.execPowerCap pkg mb s
  | .powerPin pkg mb => Sys2Proof.Machine.execPowerPin pkg mb s
  | .powerPriority pkg mb => Sys2Proof.Machine.execPowerPriority pkg mb s
  | .powerFixed pkg mb => Sys2Proof.Machine.execPowerFixed pkg mb s
  | .powerWatermark pkg mb => Sys2Proof.Machine.execPowerWatermark pkg mb s
  | .powerNotices pkg mb => Sys2Proof.Machine.execPowerNotices pkg mb s
  | .powerAck pkg mb => Sys2Proof.Machine.execPowerAck pkg mb s
  | .powerReadings pkg mb => Sys2Proof.Machine.execPowerReadings pkg mb s
  | .powerMonitors pkg mb => Sys2Proof.Machine.execPowerMonitors pkg mb s
  | .powerFuses pkg mb => Sys2Proof.Machine.execPowerFuses pkg mb s
  | .powerEnergy pkg mb => Sys2Proof.Machine.execPowerEnergy pkg mb s
  | .booksLedger pkg mb => Sys2Proof.Machine.execBooksLedger pkg mb s
  | .booksFaults pkg mb => Sys2Proof.Machine.execBooksFaults pkg mb s
  | .booksDeadlines pkg mb => Sys2Proof.Machine.execBooksDeadlines pkg mb s
  | .faultEvents pkg mb => Sys2Proof.Machine.execFaultEvents pkg mb s
  | .faultThreads pkg mb => Sys2Proof.Machine.execFaultThreads pkg mb s
  | .faultMemory pkg mb => Sys2Proof.Machine.execFaultMemory pkg mb s
  | .faultRelease pkg mb => Sys2Proof.Machine.execFaultRelease pkg mb s
  | .faultPackage pkg mb => Sys2Proof.Machine.execFaultPackage pkg mb s
  | .resetPackage pkg mb => Sys2Proof.Machine.execResetPackage pkg mb s
  | .firmwareQuery pkg mb => Sys2Proof.Machine.execFirmwareQuery pkg mb s
  | .firmwareStage pkg mb => Sys2Proof.Machine.execFirmwareStage pkg mb s
  | .firmwareStageHost pkg mb => Sys2Proof.Machine.execFirmwareStageHost pkg mb s
  | .firmwareCommit pkg mb chk => Sys2Proof.Machine.execFirmwareCommit pkg mb chk s
  | .firmwareDiscard pkg mb => Sys2Proof.Machine.execFirmwareDiscard pkg mb s
  | .turjaSwapTimeout die => Sys2Proof.Machine.execTurjaSwapTimeout die s
  | .linkPort pkg mb => Sys2Proof.Machine.execLinkPort pkg mb s
  | .linkRetrain pkg mb => Sys2Proof.Machine.execLinkRetrain pkg mb s
  | .linkUnfence pkg mb => Sys2Proof.Machine.execLinkUnfence pkg mb s
  | .linkRoutes pkg mb => Sys2Proof.Machine.execLinkRoutes pkg mb s
  | .linkJunctions pkg mb => Sys2Proof.Machine.execLinkJunctions pkg mb s
  | .pointsGrant pkg mb => Sys2Proof.Machine.execPointsGrant pkg mb s
  | .pointsInterval pkg mb => Sys2Proof.Machine.execPointsInterval pkg mb s
  | .pointsPin pkg mb => Sys2Proof.Machine.execPointsPin pkg mb s
  | .pointsRead pkg mb => Sys2Proof.Machine.execPointsRead pkg mb s
  | .pointsClear pkg mb => Sys2Proof.Machine.execPointsClear pkg mb s
  | .diagCounters pkg mb => Sys2Proof.Machine.execDiagCounters pkg mb s
  | .diagUnits pkg mb => Sys2Proof.Machine.execDiagUnits pkg mb s
  | .diagSetUnit pkg mb => Sys2Proof.Machine.execDiagSetUnit pkg mb s
  | .diagEcho pkg mb => Sys2Proof.Machine.execDiagEcho pkg mb s
  | .waitedMessageReply pkg mb => Sys2Proof.Machine.execWaitedMessageReply pkg mb s
  | .powerGood pkg => Sys2Proof.Machine.execPowerGood pkg s
  | .powerGoodLoss pkg => Sys2Proof.Machine.execPowerGoodLoss pkg s
  | .vinOvervoltage pkg mv us => Sys2Proof.Machine.execVinOvervoltage pkg mv us s
  | .strapSample pkg levels => Sys2Proof.Machine.execStrapSample pkg levels s
  | .strapTest pkg pin shiftMv crosses => Sys2Proof.Machine.execStrapTest pkg pin shiftMv crosses s
  | .strapLatch pkg => Sys2Proof.Machine.execStrapLatch pkg s
  | .imageLoaded pkg img => Sys2Proof.Machine.execImageLoaded pkg img s
  | .heartbeatToggle pkg => Sys2Proof.Machine.execHeartbeatToggle pkg s
  | .beaconQuarter pkg => Sys2Proof.Machine.execBeaconQuarter pkg s
  | .registration pkg => Sys2Proof.Machine.execRegistration pkg s
  | .joinWindowExpire pkg => Sys2Proof.Machine.execJoinWindowExpire pkg s
  | .tickAlign pkg => Sys2Proof.Machine.execTickAlign pkg s
  | .centralStationTakeover pkg => Sys2Proof.Machine.execCentralStationTakeover pkg s
  | .dieReset die => Sys2Proof.Machine.execDieReset die s
  | .dieResetTimeout die => Sys2Proof.Machine.execDieResetTimeout die s
  | .dieResetComplete die => Sys2Proof.Machine.execDieResetComplete die s
  | .packageResetComplete pkg => Sys2Proof.Machine.execPackageResetComplete pkg s
  | .packageResetTimeout pkg => Sys2Proof.Machine.execPackageResetTimeout pkg s
  | .reconcilePass die selfTest => Sys2Proof.Machine.execReconcilePass die selfTest s
  | .drainTimeout die unit => Sys2Proof.Machine.execDrainTimeout die unit s
  | .unassignedOp th word => Sys2Proof.Machine.execUnassignedOp th word s
  | .smbusBlockWrite pkg k bytes pecOk => Sys2Proof.Machine.execSmbusBlockWrite pkg k bytes pecOk s
  | .perst0Deassert pkg => Sys2Proof.Machine.execPerst0Deassert pkg s
  | .perst1Deassert pkg => Sys2Proof.Machine.execPerst1Deassert pkg s
  | .turjaSwapDone die => Sys2Proof.Machine.execTurjaSwapDone die s
  | .pseudoChannelPowerDown die pc => Sys2Proof.Machine.execPseudoChannelPowerDown die pc s

end Sys2Proof.Machine
end

