-- ==== Sys2Proof/Safety.lean ====
section
/-! DEFINITION. The terms in which statements are made: when a command of each kind runs, and the state that only its own part changes. -/
set_option Elab.async false
namespace Sys2Proof.Machine

/-- The thread issues now (R49, R59, R60, R62, R140), its PC is a multiple of 8 (R91), and a test holds of the word that its fetch buffer holds
there (R592). -/
def Issues (s : State) (th : BitVec 23) (word : BitVec 64 → Bool) : Prop :=
  canIssue s th.toNat = true ∧ (s.thread th.toNat).pc.toNat % 8 = 0 ∧ (fetchWord (s.thread th.toNat)).any word = true

/-- The thread issues an instruction now: the word at its PC spells it (R91, R92). -/
def Ready (s : State) (th : BitVec 23) (i : Instr) : Prop := Issues s th (fun w => spells th w i)

/-- After an instruction that changes only its own thread: `f` is its effect on the thread's registers; the PC moves to the next instruction. -/
def Went (s : State) (th : BitVec 23) (f : Thread → Thread) : State := (issued s th.toNat).setThread th.toNat (nextPc (f (s.thread th.toNat)))

/-- After an instruction that leaves its thread as `t`. -/
def Left (s : State) (th : BitVec 23) (t : Thread) : State := (issued s th.toNat).setThread th.toNat t

/-- The state in which a message is performed: its mailbox has left the order of GO. -/
def popped (s : State) (pkg : BitVec 8) : State := s.modPkg pkg.toNat (fun k => { k with goQueue := k.goQueue.drop 1 })

/-- A message that firmware takes next from a mailbox, and performs at this package (R473, R503, R506 to R509, R513). -/
structure Heard (s : State) (m : Msg) (pkg : BitVec 8) (mb : BitVec 6) : Prop where
  first : (s.pkg pkg.toNat).goQueue.head? = some mb.toNat
  cls : (s.mb pkg.toNat mb.toNat).cls = m.cls
  code : (s.mb pkg.toNat mb.toNat).code = m.code
  early : (popped s pkg).early pkg.toNat mb.toNat m.cls = none
  own : (s.mb pkg.toNat mb.toNat).relayed = false

/-- Who asks, and the body. -/
def asker (s : State) (pkg : BitVec 8) (mb : BitVec 6) : Asker :=
  ⟨pkg.toNat, mb.toNat, (popped s pkg).roleOf pkg.toNat mb.toNat, (s.mb pkg.toNat mb.toNat).body, false⟩

/-- None of RETRY_LATER, BAD_ARG, NO_RIGHT and GONE applies (R508). -/
structure Passes (s : State) (m : Msg) (x : Asker) : Prop where
  retry : m.retry s x = false
  bad : m.bad s x = none
  rights : m.rights s x = true
  served : (s.pkg x.p).clean = true ∨ strapClass m.cls = true
  gone : m.gone s x = 0

/-- Every byte of memory and of host memory, and every error mark, is as before. -/
def SameBytes (s t : State) : Prop := t.mem = s.mem ∧ t.hostMem = s.hostMem ∧ t.poison = s.poison

/-- Bytes of two memories agree outside n bytes from an address. -/
def SameOutside (s t : State) (lo n : Nat) : Prop := ∀ a, a < lo ∨ lo + n ≤ a → memGet t.mem a = memGet s.mem a

/-- Nothing but one thread changed among threads, and no byte of memory. -/
def OnlyThread (s t : State) (n : Nat) : Prop := SameBytes s t ∧ ∀ m, m ≠ n → t.thread m = s.thread m

/-- A thread's access of some bytes is in range, aligned, mapped and permitted (R108, R124): where it goes. -/
structure Maps (s : State) (n : Nat) (va : Word) (size : Nat) (write : Bool) (x : Xlat) : Prop where
  range : va.toNat < 2 ^ 48
  aligned : va.toNat % size = 0
  found : (s.xlatCl (thCluster n) (s.thread n).tenant (s.thread n).vi va.toNat).1 = some x
  right : (if write then entryWr x.entry else entryRd x.entry) = true

/-- A request of die d: it holds a tag and is in the network, or it waits for a tag or for its channel (R375, R376). -/
def Requests (t : State) (d : Nat) (kind : OKind) (body : Payload) : Prop :=
  ∃ o p, o.kind = kind ∧ p.body = body ∧ p.src = d ∧
    ((o, p) ∈ (t.die d).sendQ ∨ ∃ tag, tget? (t.die d).outst tag = some o ∧ { p with tag := BitVec.ofNat 12 tag } ∈ t.net)

/-- The release conditions of a thread hold at once (R118, R157): no dirty data of its tenant in its cluster, nothing unanswered, nothing held. -/
structure Quiet (s : State) (n : Nat) : Prop where
  ways : (s.cluster (thCluster n)).lines.Pairwise (fun a b => a.1 < b.1)
  lines : ∀ e ∈ (s.cluster (thCluster n)).lines, e.2.tenant = (s.thread n).tenant → e.2.dirty = 0
  siding : ∀ l ∈ (s.cluster (thCluster n)).siding, l.tenant = (s.thread n).tenant → l.dirty = 0
  bufs : ∀ u ∈ (s.cluster (thCluster n)).trackers, u.tenant = (s.thread n).tenant → u.bufs = []
  held : (s.thread n).held = []
  answered : s.relReady n = true
  signals : s.sigsDone n = true

/-- A response to a request from the die that performs it (R358, R376). -/
structure Answers (s : State) (rq r : Packet) (status : Nat) (body : Payload) : Prop where
  body : r.body = body
  status : r.status = BitVec.ofNat 4 status
  tag : r.tag = rq.tag
  vc : r.vc = rq.vc + 1
  goes : r.dst = rq.src
  comes : r.src = rq.dst
  tenant : r.tenant = rq.tenant
  depoch : r.depoch = rq.sepoch
  sepoch : r.sepoch = (s.die rq.dst).epoch
  pepoch : r.pepoch = (s.pkg rq.dpkg.toNat).epoch

/-- A message is taken from its mailbox and performed (R508, R513). -/
structure Asked (s : State) (m : Msg) (pkg : BitVec 8) (mb : BitVec 6) : Prop where
  heard : Heard s m pkg mb
  passes : Passes (popped s pkg) m (asker s pkg mb)

/-- A request of mailbox k has been answered (R473, R504): DONE stands, SEQ_DONE is its SEQ, and the response stands at the buffer's start. -/
def Replied (u : State) (k : Mailbox) (p b status detail : Nat) (body : List Byte) : Prop :=
  (u.mb p b).done = true ∧ (u.mb p b).owned = false ∧ (u.mb p b).seqDone = BitVec.ofNat 16 k.seq ∧
  ∃ rest, (u.mb p b).rsp = rspBytes k.cls k.code k.seq status detail body false false ++ rest

/-- The threads and every byte of memory are as before. -/
def Kept (s u : State) : Prop := u.threads = s.threads ∧ SameBytes s u

/-- A ring command of an opcode that may start and is not refused (R489, R493). -/
structure Starts (s : State) (c : CmdRef) (k : RCmd) (op : Nat) : Prop where
  found : s.rcmd? c = some k
  opcode : k.opcode = op
  may : s.canStart c = true
  right : s.refuses c k = false

/-- A ring command has completed with a STATUS and a result word (R490, R497): its entry stands in the completion ring and the command has left, or
the result waits for the PCIe link (R465) or for the command's signal to be sent (R498). -/
def Completed (s u : State) (c : CmdRef) (k : RCmd) (status : Nat) (result : Word) : Prop :=
  if s.linkUp c.p c.v = true ∧ u.sigWaits c = false then
    u.rcmd? c = none ∧
    let g := s.ring c.p c.v c.r
    u.hostRead c.p (g.cplBase.toNat + 16 * (k.idx.toNat % g.size)) 16 =
      ((cplWords g k status result (decide (k.deadline < (s.pkg c.p).tick))).map (fun w => leBytes 8 w.toNat)).flatten
  else (u.rcmd? c).map (·.result) = some (some (status, result))

/-- R129 and the model's canonical memory: both byte memories list rising addresses and no zero. -/
def MemoryOk (s : State) : Prop := Memory.wf s.mem = true ∧ Memory.wf s.hostMem = true

end Sys2Proof.Machine
end

