-- ==== Sys2Proof/Certificates/Slice0/Obligations.lean ====
section
/-! DEFINITION. The statements for the provers: what the commands of the block do, by the numbered rules of spec/. -/
set_option Elab.async false

open Sys2Proof Sys2Proof.Machine

/-! ### The machine and its memory -/

/-- The front command of the queue is executed on the state with the queue's rest.  With no command waiting the block idles: the model's choice
(log 5). -/
def Obligations.StepRunsFrontCommand : Prop :=
  (∀ (c : Instr) (rest : List Instr) (s : State), step { s with pending := c :: rest } = exec c { s with pending := rest }) ∧
  ∀ s : State, s.pending = [] → step s = .next s

/-- The memories after reset are in canonical form, and no package has power (log 3). -/
def Obligations.ResetMemoryCanonical : Prop := MemoryOk State.reset ∧ ∀ p, (State.reset.pkg p).phase = .off

/-- Every step keeps the memories in canonical form: addresses strictly rising, no listed zero. -/
def Obligations.StepKeepsMemoryCanonical : Prop := ∀ s t : State, MemoryOk s → step s = .next t → MemoryOk t

/-- A write of bytes at a physical address: every byte of the range reads as written, every byte outside reads as before, the memory stays
canonical, and exactly the error marks of fully written words go (R129). -/
def Obligations.BytesWrittenReadBack : Prop :=
  ∀ (s : State) (pa : Nat) (bytes : List Byte), Memory.wf s.mem = true →
    Memory.wf (s.writePa pa bytes).mem = true ∧
    (∀ i, i < bytes.length → memGet (s.writePa pa bytes).mem (pa + i) = bytes.getD i 0) ∧
    SameOutside s (s.writePa pa bytes) pa bytes.length ∧
    (∀ w, w ∈ (s.writePa pa bytes).poison ↔ w ∈ s.poison ∧ ¬(pa ≤ 8 * w ∧ 8 * w + 8 ≤ pa + bytes.length))

/-! ### Integer, floating-point and packed instructions -/

/-- The sixteen two-register instructions of OP 0x01 (R99, R102): result and, with SF, the flags. -/
def Obligations.AluResults : Prop :=
  ∀ (s : State) (th : BitVec 23) (rd ra rb : BitVec 6) (sf : Bool), regOk rd → regOk ra → regOk rb →
    let runs (i : Instr) (o : Out) : Prop := Ready s th i → exec i s = o
    let t := s.thread th.toNat
    let a := rget t ra
    let b := rget t rb
    let sh := b.toNat % 64
    let put (r : Word) (c : BitVec 8) : Out := .next (Went s th (fun t => rset (if sf then { t with cond := c } else t) rd r))
    let plain (r : Word) : Out := put r (setZncv t.cond (r == 0) (r.getLsbD 63) false false)
    runs (.add th rd ra rb sf) (put (a + b) (setZncv t.cond (a + b == 0) ((a + b).getLsbD 63) (decide (2 ^ 64 ≤ a.toNat + b.toNat)) (addV a b))) ∧
    runs (.sub th rd ra rb sf) (put (a - b) (setZncv t.cond (a - b == 0) ((a - b).getLsbD 63) (decide (a.toNat < b.toNat)) (subV a b))) ∧
    runs (.and th rd ra rb sf) (plain (a &&& b)) ∧
    runs (.or th rd ra rb sf) (plain (a ||| b)) ∧
    runs (.xor th rd ra rb sf) (plain (a ^^^ b)) ∧
    runs (.andn th rd ra rb sf) (plain (a &&& ~~~b)) ∧
    runs (.shl th rd ra rb sf) (plain (a <<< sh)) ∧
    runs (.shr th rd ra rb sf) (plain (a >>> sh)) ∧
    runs (.sar th rd ra rb sf) (plain (a.sshiftRight sh)) ∧
    runs (.ror th rd ra rb sf) (plain (a.rotateRight sh)) ∧
    runs (.min th rd ra rb sf) (plain (if a.slt b then a else b)) ∧
    runs (.max th rd ra rb sf) (plain (if a.slt b then b else a)) ∧
    runs (.minu th rd ra rb sf) (plain (if a.ult b then a else b)) ∧
    runs (.maxu th rd ra rb sf) (plain (if a.ult b then b else a)) ∧
    runs (.slt th rd ra rb sf) (plain (if a.slt b then 1 else 0)) ∧
    runs (.sltu th rd ra rb sf) (plain (if a.ult b then 1 else 0))

/-- Counts, byte swap and products (R99, R102): CLZ, CTZ, POPC, BSWAP, MUL, MULH, MULHU, MADD. -/
def Obligations.CountAndProductResults : Prop :=
  ∀ (s : State) (th : BitVec 23) (rd ra rb rc : BitVec 6) (sf : Bool), regOk rd → regOk ra → regOk rb → regOk rc →
    let runs (i : Instr) (o : Out) : Prop := Ready s th i → exec i s = o
    let t := s.thread th.toNat
    let a := rget t ra
    let b := rget t rb
    let plain (r : Word) : Out :=
      .next (Went s th (fun t => rset (if sf then { t with cond := setZncv t.cond (r == 0) (r.getLsbD 63) false false } else t) rd r))
    (∃ k, runs (.clz th rd ra sf) (plain (BitVec.ofNat 64 k)) ∧ k ≤ 64 ∧ (∀ i, i < k → a.getLsbD (63 - i) = false) ∧ (k < 64 → a.getLsbD (63 - k) = true)) ∧
    (∃ k, runs (.ctz th rd ra sf) (plain (BitVec.ofNat 64 k)) ∧ k ≤ 64 ∧ (∀ i, i < k → a.getLsbD i = false) ∧ (k < 64 → a.getLsbD k = true)) ∧
    runs (.popc th rd ra sf) (plain (BitVec.ofNat 64 ((List.range 64).filter (fun i => a.getLsbD i)).length)) ∧
    runs (.bswap th rd ra sf) (plain (BitVec.ofNat 64 (leNat (leBytes 8 a.toNat).reverse))) ∧
    runs (.mul th rd ra rb sf) (plain (a * b)) ∧
    runs (.mulh th rd ra rb sf) (plain (BitVec.ofInt 64 (a.toInt * b.toInt / 2 ^ 64))) ∧
    runs (.mulhu th rd ra rb sf) (plain (BitVec.ofNat 64 (a.toNat * b.toNat / 2 ^ 64))) ∧
    runs (.madd th rd ra rb rc sf) (plain (a * b + rget t rc))

/-- R103: division by zero and the overflow corner; other quotients truncate toward zero. -/
def Obligations.DivisionResults : Prop :=
  ∀ (s : State) (th : BitVec 23) (rd ra rb : BitVec 6) (sf : Bool), regOk rd → regOk ra → regOk rb →
    let runs (i : Instr) (o : Out) : Prop := Ready s th i → exec i s = o
    let t := s.thread th.toNat
    let a := rget t ra
    let b := rget t rb
    let plain (r : Word) : Out :=
      .next (Went s th (fun t => rset (if sf then { t with cond := setZncv t.cond (r == 0) (r.getLsbD 63) false false } else t) rd r))
    (b = 0 → runs (.div th rd ra rb sf) (plain 0xFFFFFFFFFFFFFFFF) ∧ runs (.divu th rd ra rb sf) (plain 0xFFFFFFFFFFFFFFFF) ∧
      runs (.rem th rd ra rb sf) (plain a) ∧ runs (.remu th rd ra rb sf) (plain a)) ∧
    (a = 0x8000000000000000 → b = 0xFFFFFFFFFFFFFFFF → runs (.div th rd ra rb sf) (plain 0x8000000000000000) ∧ runs (.rem th rd ra rb sf) (plain 0)) ∧
    (b ≠ 0 → runs (.div th rd ra rb sf) (plain (BitVec.ofInt 64 (a.toInt.tdiv b.toInt))) ∧
      runs (.divu th rd ra rb sf) (plain (BitVec.ofNat 64 (a.toNat / b.toNat))) ∧
      runs (.rem th rd ra rb sf) (plain (BitVec.ofInt 64 (a.toInt.tmod b.toInt))) ∧
      runs (.remu th rd ra rb sf) (plain (BitVec.ofNat 64 (a.toNat % b.toNat))))

/-- Immediates, compares and SEL (R99, R101, R102): ALUI, LI, LIH, CMP, CMPI, SEL. -/
def Obligations.ImmediateAndCompareResults : Prop :=
  ∀ (s : State) (th : BitVec 23) (rd ra rb rc fn6 : BitVec 6) (imm : BitVec 32) (sf : Bool), regOk rd → regOk ra → regOk rb →
    let t := s.thread th.toNat
    let a := rget t ra
    let b := rget t rb
    let i : Word := imm.signExtend 64
    let subFlags (x y : Word) : BitVec 8 := setZncv t.cond (x - y == 0) ((x - y).getLsbD 63) (decide (x.toNat < y.toNat)) (subV x y)
    let went (c : Instr) (f : Thread → Thread) : Prop := Ready s th c → exec c s = .next (Went s th f)
    (fn6.toNat < 16 → went (.alui th rd ra fn6 imm) (fun t => rset t rd (alu fn6.toNat a i))) ∧
    went (.li th rd imm) (fun t => rset t rd i) ∧
    went (.lih th rd imm) (fun t => rset t rd (imm ++ (rget t rd).truncate 32)) ∧
    went (.cmp th ra rb) (fun t => { t with cond := subFlags a b }) ∧
    went (.cmpi th ra imm) (fun t => { t with cond := subFlags a i }) ∧
    (∀ c, flagTest rc.toNat t.cond = some c → went (.sel th rd ra rb rc sf) (fun t =>
      let r := if c then a else b
      rset (if sf then { t with cond := setZncv t.cond (r == 0) (r.getLsbD 63) false false } else t) rd r))

/-- Floating-point instructions (R100, R104 to R106): the exact result rounded once, bits 63:32 of rd cleared, flags sticky.
Model's choices: logs 19, 44, 87. -/
def Obligations.FloatResults : Prop :=
  ∀ (s : State) (th : BitVec 23) (rd ra rb rc : BitVec 6) (fn md : BitVec 8), regOk rd → regOk ra → regOk rb → regOk rc →
    md.toNat % 4 < 2 →
    let runs (i : Instr) (o : Out) : Prop := Ready s th i → exec i s = o
    let t := s.thread th.toNat
    let val (f : BitVec 6) : Val := f32Val ((rget t f).truncate 32)
    let rounds (v : Val × FpFlags) : Out :=
      let r := toF32 (md.toNat % 4) (md.getLsbD 2) v
      .next (Went s th (fun t => rset { t with cond := t.cond ||| (r.2.zeroExtend 8 <<< 4) } rd (r.1.zeroExtend 64)))
    let signs (r : BitVec 32) : Out := .next (Went s th (fun t => rset t rd (r.zeroExtend 64)))
    runs (.fadd th rd ra rb md) (rounds (vAdd (val ra) (val rb))) ∧
    runs (.fsub th rd ra rb md) (rounds (vAdd (val ra) (val rb).neg)) ∧
    runs (.fmul th rd ra rb md) (rounds (vMul (val ra) (val rb))) ∧
    runs (.ffma th rd ra rb rc md) (rounds (vFma (val ra) (val rb) (val rc))) ∧
    runs (.fmin th rd ra rb md) (rounds (vMinMax false (val ra) (val rb))) ∧
    runs (.fmax th rd ra rb md) (rounds (vMinMax true (val ra) (val rb))) ∧
    runs (.fdiv th rd ra rb md) (rounds (vDiv (val ra) (val rb))) ∧
    runs (.fsqrt th rd ra md) (rounds (vSqrt (val ra))) ∧
    runs (.fabs th rd ra md) (signs ((rget t ra).truncate 32 &&& 0x7FFFFFFF#32)) ∧
    runs (.fneg th rd ra md) (signs ((rget t ra).truncate 32 ^^^ 0x80000000#32)) ∧
    (let un := (val ra).isNan || (val rb).isNan
     runs (.fcmp th ra rb) (.next (Went s th (fun t => { t with
       cond := setZncv t.cond (!un && vEq (val ra) (val rb)) (!un && vLt (val ra) (val rb)) false un ||| (if un then 0x80 else 0) })))) ∧
    (fn.toNat < 12 → md.toNat / 16 < 12 →
      let src := decodeFmt (md.toNat / 16) ((rget t ra).toNat % 2 ^ fmtBits (md.toNat / 16))
      let r := encodeFmt fn.toNat (md.toNat % 4) (md.getLsbD 2) 0 src
      runs (.cvt th rd ra fn md)
        (.next (Went s th (fun t => rset { t with cond := t.cond ||| (r.2.zeroExtend 8 <<< 4) } rd (cvtWord fn.toNat r.1)))))

/-- Packed and mask instructions (R99, R107). -/
def Obligations.PackedResults : Prop :=
  ∀ (s : State) (th : BitVec 23) (rd ra rb rc : BitVec 6) (fn md : BitVec 8) (sf : Bool) (w : Nat), regOk rd → regOk ra →
    regOk rb → regOk rc → laneWidth md = some w →
    let runs (i : Instr) (o : Out) : Prop := Ready s th i → exec i s = o
    let t := s.thread th.toNat
    let a := rget t ra
    let lane (x : Word) (i : Nat) : Nat := x.toNat / 2 ^ (i * w) % 2 ^ w
    let active (i : Nat) : Bool := md.getLsbD 7 || (rget t rc).getLsbD i
    let put (r : Word) : Out :=
      .next (Went s th (fun t => rset (if sf then { t with cond := setZncv t.cond (r == 0) (r.getLsbD 63) false false } else t) rd r))
    let lanes (f : Nat → Nat → Nat) : Out := put (BitVec.ofNat 64 (lanesJoin w ((List.range (64 / w)).map (fun i =>
      if active i then f (lane a i) (lane (rget t rb) i) else lane (rget t rd) i))))
    runs (.padd th rd ra rb rc md sf) (lanes (fun x y => (x + y) % 2 ^ w)) ∧
    runs (.psub th rd ra rb rc md sf) (lanes (fun x y => (x + 2 ^ w - y) % 2 ^ w)) ∧
    runs (.pmin th rd ra rb rc md sf) (lanes (fun x y => if signed x w < signed y w then x else y)) ∧
    runs (.pmax th rd ra rb rc md sf) (lanes (fun x y => if signed x w < signed y w then y else x)) ∧
    runs (.pminu th rd ra rb rc md sf) (lanes (fun x y => min x y)) ∧
    runs (.pmaxu th rd ra rb rc md sf) (lanes (fun x y => max x y)) ∧
    (fn.toNat < 6 → runs (.pcmp th fn rd ra rb rc md sf) (put (BitVec.ofNat 64 (lanesJoin 1 ((List.range (64 / w)).map (fun i =>
      b2n (active i && (regTest fn.toNat w (lane a i) (lane (rget t rb) i)).getD false))))))) ∧
    runs (.mpop th rd ra sf) (put (BitVec.ofNat 64 ((List.range 8).filter (fun i => a.getLsbD i)).length)) ∧
    runs (.mfirst th rd ra sf) (put (BitVec.ofNat 64 (((List.range 8).find? (fun i => a.getLsbD i)).getD 8))) ∧
    runs (.mlast th rd ra sf) (put (BitVec.ofNat 64 (((List.range 8).reverse.find? (fun i => a.getLsbD i)).getD 8))) ∧
    runs (.mrange th rd ra sf) (put (BitVec.ofNat 64 (2 ^ min a.toNat 8 - 1)))

/-! ### Control, special registers, exceptions -/

/-- Branches and jumps (R101, R117): the tests of the condition codes, the targets, ILLEGAL for a code that the table does not assign.
Model's choices: log 46. -/
def Obligations.BranchTargets : Prop :=
  ∀ (s : State) (th : BitVec 23) (cc ra rb : BitVec 6) (imm : BitVec 32), regOk ra → regOk rb →
    let runs (i : Instr) (o : Out) : Prop := Ready s th i → exec i s = o
    let t := s.thread th.toNat
    let a := rget t ra
    let b := rget t rb
    let f (i : Nat) : Bool := t.cond.getLsbD i
    let goes (pc : BitVec 48) : Out := .next (Left s th { t with pc := pc })
    let to_ : BitVec 48 := t.pc + imm.signExtend 48 * 8
    let illegal : Out := .next ((issued s th.toNat).raise th.toNat 0x03 0)
    let flags : List (Nat × Bool) := [(0, f 0), (1, !f 0), (2, f 1 != f 3), (3, f 1 == f 3), (4, f 2), (5, !f 2), (6, f 1), (7, f 3), (8, true), (9, f 7)]
    let regs : List (Nat × Bool) := [(0, a == b), (1, a != b), (2, a.slt b), (3, !a.slt b), (4, a.ult b), (5, !a.ult b)]
    (∀ x, (cc.toNat, x) ∈ flags → runs (.bc th cc imm) (goes (if x then to_ else t.pc + 8))) ∧
    (∀ x, (cc.toNat, x) ∈ regs → runs (.br th cc ra rb imm) (goes (if x then to_ else t.pc + 8))) ∧
    runs (.jmp th imm) (goes to_) ∧
    runs (.jmpr th ra) (goes (a.truncate 48)) ∧
    (10 ≤ cc.toNat → runs (.bc th cc imm) illegal) ∧
    (6 ≤ cc.toNat → runs (.br th cc ra rb imm) illegal)

/-- CALL, CALLR and RET (R64, R65, R68, R69, R71, R152): the new frame, the record that the oldest resident frame's locals become when six frames
are resident, the caller's frame that becomes current, the bottom frame's RET as EXIT, and the exceptions: a full region, records moved out, a record
that cannot be read, and a call or return in the trap window.
Model's choices: logs 46, 52. -/
def Obligations.CallsAndReturns : Prop :=
  ∀ (s : State) (th : BitVec 23) (ra : BitVec 6) (imm : BitVec 32), regOk ra →
    let runs (i : Instr) (o : Out) : Prop := Ready s th i → exec i s = o
    let n := th.toNat
    let t := s.thread n
    let x := s.die (n / 4096)
    let size := 1024 * 2 ^ min x.rhCode.toNat 2
    let place (k : Nat) : Nat := 2 ^ 48 + n / 4096 * 2 ^ 37 + (n % 4096 * size + 64 * k)
    let frame (u : Thread) (pc : BitVec 48) : Thread :=
      { u with l := [0, 0, 0, 0, 0, 0, 0, (t.pc + 8).zeroExtend 64], p := zeros8, q := t.p, stack := t.l :: u.stack, pc := pc }
    let calls (r : BitVec 48 → Out) : Prop :=
      runs (.call th imm) (r (t.pc + imm.signExtend 48 * 8)) ∧ runs (.callr th ra) (r ((rget t ra).truncate 48))
    let back (u : Thread) (l : List Word) : Thread := { u with l := l, p := t.q, q := zeros8, pc := (t.l.getD 7 0).truncate 48 }
    let traps (cause : Nat) : Out := .next ((issued s n).raise n cause 0)
    (t.st = .running →
      (t.stack.length < 5 → calls (fun pc => .next (Left s th (frame t pc)))) ∧
      (5 ≤ t.stack.length → t.rhUsed < size / 64 → calls (fun pc => .next (((issued s n).writePa (place t.rhUsed)
        (recBytes (t.stack.getLast?.getD zeros8))).setThread n (frame { t with stack := t.stack.dropLast, rhUsed := t.rhUsed + 1 } pc)))) ∧
      (5 ≤ t.stack.length → size / 64 ≤ t.rhUsed → calls (fun _ => traps 0x01)) ∧
      (∀ l r, t.stack = l :: r → runs (.ret th) (.next (Left s th { back t l with stack := r }))) ∧
      (∀ k, t.stack = [] → t.rhUsed = k + 1 → Ready s th (.ret th) →
        ∃ u, exec (.ret th) s = .next u ∧ OnlyThread s u n ∧
          (s.poisonIn (place k) 64 = none → u.thread n = { back t (wordsOf (s.readPa (place k) 64) 8) with rhUsed := k }) ∧
          (∀ w, s.poisonIn (place k) 64 = some w → t.trapPc ≠ 0 → u.thread n = enterTrap t 0x0D (BitVec.ofNat 64 w))) ∧
      (t.stack = [] → t.rhUsed = 0 → 0 < t.rhExt → runs (.ret th) (traps 0x02)) ∧
      (t.stack = [] → t.rhUsed = 0 → t.rhExt = 0 → runs (.ret th) (.next ((issued s n).startDrain n .exit)))) ∧
    (Ready s th (.exit th) → exec (.exit th) s = .next ((issued s n).startDrain n .exit)) ∧
    (t.st = .trap → calls (fun _ => traps 0x05) ∧ runs (.ret th) (traps 0x05))

/-- NOP, MFS, MTS and TRET (R74, R117, R120): every special register's read, every write and every refusal of one.
Model's choices: log 46. -/
def Obligations.SpecialRegisters : Prop :=
  ∀ (s : State) (th : BitVec 23) (rd ra : BitVec 6) (imm : BitVec 32), regOk rd → regOk ra →
    let runs (i : Instr) (o : Out) : Prop := Ready s th i → exec i s = o
    let t := s.thread th.toNat
    let v := rget t ra
    let n64 (n : Nat) : Word := BitVec.ofNat 64 n
    let values : List (Nat × Word) := [(0, t.trapEpc.zeroExtend 64), (1, t.trapCause.zeroExtend 64), (2, t.trapAddr), (3, t.trapPc.zeroExtend 64),
      (4, t.cond.zeroExtend 64), (5, n64 t.cls), (6, n64 t.deadline), (7, n64 th.toNat), (8, n64 t.tenant),
      (9, n64 (s.pkg (th.toNat / 32768)).tick), (10, n64 t.rhUsed), (11, n64 t.rhExt), (12, n64 (t.stack.length + 1)),
      (13, (s.die (th.toNat / 4096)).epoch.zeroExtend 64)]
    let went (f : Thread → Thread) : Out := .next (Went s th f)
    let traps (cause : Nat) : Out := .next ((issued s th.toNat).raise th.toNat cause 0)
    runs (.nop th) (went id) ∧
    (∀ x, (imm.toNat, x) ∈ values → runs (.mfs th rd imm) (went (fun t => rset t rd x))) ∧
    (imm.toNat = 0 → t.st = .trap → runs (.mts th ra imm) (went (fun t => { t with trapEpc := v.truncate 48 }))) ∧
    (imm.toNat = 3 → runs (.mts th ra imm) (went (fun t => { t with trapPc := v.truncate 48 }))) ∧
    (imm.toNat = 4 → runs (.mts th ra imm) (went (fun t => { t with cond := v.truncate 8 }))) ∧
    (imm.toNat = 5 → runs (.mts th ra imm) (went (fun t => { t with cls := max t.cls (min v.toNat 2) }))) ∧
    (imm.toNat = 0 → t.st = .running → runs (.mts th ra imm) (traps 0x04)) ∧
    (imm.toNat ∈ [1, 2] ∨ 6 ≤ imm.toNat → runs (.mts th ra imm) (traps 0x03)) ∧
    (14 ≤ imm.toNat → runs (.mfs th rd imm) (traps 0x03)) ∧
    (∀ w, t.st = .trap → t.saved = some w → runs (.tret th)
      (.next (Left s th { t with st := .running, l := w.l, p := w.p, q := w.q, saved := none, pc := t.trapEpc }))) ∧
    (t.st = .running → runs (.tret th) (traps 0x04))

/-- Entry to the trap window (R72): what every exception of a thread that has a handler does, and BRK, an unassigned word, a field that names no
register and an unaligned PC as they take it (R91, R93, R95, R123). -/
def Obligations.TrapEntry : Prop :=
  (∀ (u : State) (n cause : Nat) (addr : Word), (u.thread n).st = .running → (u.thread n).trapPc ≠ 0 →
    u.raise n cause addr = u.setThread n { u.thread n with
      trapEpc := (u.thread n).pc, trapCause := BitVec.ofNat 8 cause, trapAddr := addr, st := .trap,
      saved := some ⟨(u.thread n).l, (u.thread n).p, (u.thread n).q⟩, l := zeros8, p := zeros8, q := zeros8, pc := (u.thread n).trapPc, wait := .none }) ∧
  ∀ (s : State) (th : BitVec 23) (imm : BitVec 32) (w : BitVec 64) (rd ra rb : BitVec 6) (sf : Bool),
    (s.thread th.toNat).st = .running → (s.thread th.toNat).trapPc ≠ 0 →
    let t := s.thread th.toNat
    let traps (cause : BitVec 8) (addr : Word) : Out := .next (Left s th { t with
      trapEpc := t.pc, trapCause := cause, trapAddr := addr, st := .trap, saved := some ⟨t.l, t.p, t.q⟩,
      l := zeros8, p := zeros8, q := zeros8, pc := t.trapPc, wait := .none })
    (Ready s th (.brk th imm) → exec (.brk th imm) s = traps 0x10 (imm.zeroExtend 64)) ∧
    (Issues s th (· == w) → decodeWord th w = none → exec (.unassignedOp th w) s = traps 0x03 0) ∧
    (40 ≤ rd.toNat ∨ 40 ≤ ra.toNat ∨ 40 ≤ rb.toNat → Ready s th (.add th rd ra rb sf) → exec (.add th rd ra rb sf) s = traps 0x03 0) ∧
    (canIssue s th.toNat = true → t.pc.toNat % 8 ≠ 0 → exec (.nop th) s = traps 0x06 (t.pc.zeroExtend 64))

/-- An exception in state TRAP, or with no handler: double-fault halt (R75, R125). The registers stay; the record names the thread, its PC
and both causes; the event goes to the thread's VI.
Model's choices: log 12. -/
def Obligations.DoubleFaultHalt : Prop :=
  ∀ (s : State) (th : BitVec 23) (imm : BitVec 32), Ready s th (.brk th imm) →
    let n := th.toNat
    let t := s.thread n
    let halts (c1 c2 epc : Nat) : Out :=
      .next ((Left s th { t with st := .halted, wait := .none }).threadFault n 1 t.pc.toNat c1 c2 epc (imm.zeroExtend 64))
    (t.st = .trap → exec (.brk th imm) s = halts t.trapCause.toNat 0x10 t.trapEpc.toNat) ∧
    (t.st = .running → t.trapPc = 0 → exec (.brk th imm) s = halts 0x10 0x11 t.pc.toNat)

/-! ### Memory instructions -/

/-- LD and ST (R97, R108, R139, R141, R155, R161): a hit loads the line's bytes, extended; a miss and an uncached load wait for an answer and leave
the PC; a store passes at once: cached bytes are then found by the tenant's lookups in that cluster, an uncached one is a WR packet; a load and a store
behind an operation of the thread on the same line that has not left yet wait for it. A store changes no byte of memory by itself: home memory changes
when the packet arrives.
Model's choices: logs 8, 16, 20. -/
def Obligations.LoadsAndStores : Prop :=
  ∀ (s : State) (th : BitVec 23) (rd ra rb mod6 : BitVec 6) (imm : BitVec 32) (x : Xlat), regOk rd → regOk ra → regOk rb →
    let n := th.toNat
    let t := s.thread n
    let va : Word := rget t ra + imm.signExtend 64
    let size := 2 ^ (mod6.toNat / 16)
    let sx := mod6.getLsbD 3
    let ord := mod6.toNat / 2 % 4
    let c := n / 128
    let line := x.pa / 128
    let value (b : List Byte) : Word := if sx then BitVec.ofInt 64 (signed (leNat b) (8 * size)) else BitVec.ofNat 64 (leNat b)
    let bytes := leBytes size (rget t rb).toNat
    let behind : Prop := ∃ h ∈ t.held, h.line? = some line
    let loads (f : State → Prop) : Prop := Ready s th (.ld th rd ra imm mod6 .clean) →
      ∃ u, exec (.ld th rd ra imm mod6 .clean) s = .next u ∧ OnlyThread s u n ∧ f u
    let stores (f : State → Prop) : Prop := Ready s th (.st th ra rb imm mod6 .clean) →
      ∃ u, exec (.st th ra rb imm mod6 .clean) s = .next u ∧ OnlyThread s u n ∧ f u
    let raises (i : Instr) (cause : Nat) (addr : Word) : Prop := Ready s th i → exec i s = .next ((issued s n).raise n cause addr)
    (ord < 2 → Maps s n va size false x →
      (behind → loads (fun u => u.thread n = { t with wait := .behind })) ∧
      (¬ behind →
        (∀ b, entryUncached x.entry = false → s.lookup c t.tenant x.pa size = some b → b.length = size →
          loads (fun u => u.thread n = { nextPc (rset t rd (value b)) with fetch := if ord = 1 then [] else t.fetch })) ∧
        (entryUncached x.entry = true →
          loads (fun u => u.thread n = { t with wait := .load rd.toNat size sx (ord == 1) va x.pa } ∧
            Requests u (n / 4096) (.uload th) (.rd (BitVec.ofNat 52 (x.pa / 128 * 128)) (sectorsOf (x.pa % 128) size)))) ∧
        (entryUncached x.entry = false → findWay (s.cluster c) t.tenant line = none → findSiding (s.cluster c) t.tenant line = none →
          loads (fun u => u.thread n = { t with wait := .load rd.toNat size sx (ord == 1) va x.pa })))) ∧
    (ord = 0 → Maps s n va size true x →
      (behind → stores (fun u => u.thread n =
        { nextPc t with held := t.held ++ [.store x.pa bytes (entryUncached x.entry) (entryStable x.entry) false] })) ∧
      (¬ behind →
        (entryUncached x.entry = false → stores (fun u => u.thread n = nextPc t ∧
          ((∀ k ∈ (s.cluster c).trackers, k.stream = false) →
            (∀ e ∈ (s.cluster c).lines, e.2.data.length = 128) → (∀ l ∈ (s.cluster c).siding, l.data.length = 128) → x.pa % size = 0 →
            u.lookup c t.tenant x.pa size = some bytes))) ∧
        (entryUncached x.entry = true → stores (fun u => u.thread n = nextPc t ∧ Requests u (n / 4096) (.store th)
            (.wr (BitVec.ofNat 52 (x.pa / 128 * 128)) (byteMask (x.pa % 128) size) (overlay zeroLine (x.pa % 128) bytes) false))))) ∧
    (ord = 2 → Maps s n va size true x → stores (fun u => ∃ k, u.thread n =
      { nextPc t with held := (t.held ++ [Held.store x.pa bytes (entryUncached x.entry) (entryStable x.entry) true]).drop k })) ∧
    (2 ≤ ord → raises (.ld th rd ra imm mod6 .clean) 0x03 0) ∧
    (ord = 1 ∨ ord = 3 → raises (.st th ra rb imm mod6 .clean) 0x03 0) ∧
    (2 ^ 48 ≤ va.toNat → ord = 0 → raises (.ld th rd ra imm mod6 .clean) 0x08 va ∧ raises (.st th ra rb imm mod6 .clean) 0x08 va) ∧
    (va.toNat < 2 ^ 48 → va.toNat % size ≠ 0 → ord = 0 → raises (.ld th rd ra imm mod6 .clean) 0x09 va ∧ raises (.st th ra rb imm mod6 .clean) 0x09 va)

/-- GLD and SST (R109 to R111, R124, R155, R181 to R183): every active lane is checked first, and the lowest lane that fails raises its exception.
With every lane mapped a gather passes with its registers written, or waits for its lanes (behind an operation of the thread on one of their lines, for
a queue entry, or for a line); it passes where every line is present and every queue open. A scatter performs its lanes in ascending order and passes, or
waits for a queue with the lanes that are left. Without an active lane both only pass. Memory is not written.
Model's choices: logs 8, 20. -/
def Obligations.GatherAndScatter : Prop :=
  ∀ (s : State) (th : BitVec 23) (rd ra rb rc : BitVec 6) (md : BitVec 8), blockOk rd → regOk ra → blockOk rb → regOk rc →
    let n := th.toNat
    let t := s.thread n
    let c := n / 128
    let size := 2 ^ (md.toNat % 4)
    let sx := md.getLsbD 2
    let active (i : Nat) : Bool := md.getLsbD 7 || (rget t rc).getLsbD i
    let lanes := ((List.range 8).filter active).map (fun i => (i, rget t ra + regGet t (rb.toNat + i) * BitVec.ofNat 64 size))
    let value (b : List Byte) : Word := if sx then BitVec.ofInt 64 (signed (leNat b) (8 * b.length)) else BitVec.ofNat 64 (leNat b)
    let queue (i : Nat) : Nat := 4 * (n / 32 % 4) + i % 4
    let gld := Instr.gld th rd ra rb rc md []
    let sst := Instr.sst th rd ra rb rc md []
    let checked (write : Bool) := (issued s n).checkLanes n size write lanes []
    let does (i : Instr) (f : State → Prop) : Prop := Ready s th i → ∃ u, exec i s = .next u ∧ OnlyThread s u n ∧ f u
    let gathered (v : Nat → Word) (ls : List GLane) : Thread := nextPc (ls.foldl (fun t l => regSet t (rd.toNat + l.lane) (v l.lane)) t)
    let stored (s : State) (ls : List GLane) : State := ls.foldl (fun s l => s.scatterLane n l (leBytes size (regGet t (rd.toNat + l.lane)).toNat)) s
    (lanes = [] → (Ready s th gld → exec gld s = .next (Went s th id)) ∧ (Ready s th sst → exec sst s = .next (Went s th id))) ∧
    (∀ cause addr, (checked false).1 = .inr (cause, addr) → does gld (fun u => t.st = .running → t.trapPc ≠ 0 → u.thread n = enterTrap t cause addr)) ∧
    (∀ cause addr, (checked true).1 = .inr (cause, addr) → does sst (fun u => t.st = .running → t.trapPc ≠ 0 → u.thread n = enterTrap t cause addr)) ∧
    (∀ ls, lanes ≠ [] → (checked false).1 = .inl ls →
      does gld (fun u => u.thread n = { t with wait := .behind } ∨ (∃ ls', u.thread n = { t with wait := .gather rd.toNat size sx ls' }) ∨
        ∃ v, u.thread n = gathered v ls) ∧
      (∀ b : Nat → List Byte, t.held = [] → (∀ q e i, e ∈ tget (s.cluster c).pq q [] → e.who ≠ .thread th i) →
        (∀ l ∈ ls, l.uncached = false ∧ s.lookup c t.tenant l.pa size = some (b l.lane) ∧ pqOpen (s.cluster c) (queue l.lane) t.cls = true) →
        does gld (fun u => u.thread n = gathered (fun i => value (b i)) ls))) ∧
    (∀ ls s1, lanes ≠ [] → checked true = (.inl ls, s1) →
      does sst (fun u => (∃ h, u.thread n = nextPc { t with held := h }) ∨ ∃ h left, u.thread n = { t with held := h, wait := .scatter size left }) ∧
      ((∀ l ∈ ls, pqOpen (s.cluster c) (queue l.lane) t.cls = true) → Ready s th sst →
        exec sst s = .next ((stored s1 ls).modThread n nextPc) ∧ (t.held = [] → ((stored s1 ls).thread n) = t)))

/-- The eight AMOs (R97, R112, R165): the request leaves for the home die, or waits behind what it must follow; a posted one lets the
thread go on, any other one makes it wait for the answer. Space 1 takes no atomic.
Model's choices: logs 8, 14, 20. -/
def Obligations.AtomicInstructions : Prop :=
  ∀ (s : State) (th : BitVec 23) (rd ra rb rc : BitVec 6) (md : BitVec 8) (x : Xlat), regOk rd → regOk ra → regOk rb → regOk rc → md.getLsbD 1 = true →
    let n := th.toNat
    let t := s.thread n
    let va := rget t ra
    let wide := md.getLsbD 0
    let size := if wide then 8 else 4
    let order := md.toNat / 4 % 4
    let noret := md.getLsbD 7
    let posted := noret && order % 2 == 0
    let cas : Word := rget t rc
    Maps s n va size true x →
    ∀ e ∈ ([(.amoAdd th rd ra rb md, 0, 0), (.amoMin th rd ra rb md, 2, 0), (.amoMax th rd ra rb md, 3, 0), (.amoMinu th rd ra rb md, 4, 0),
      (.amoMaxu th rd ra rb md, 5, 0), (.amoOr th rd ra rb md, 6, 0), (.amoCas th rd ra rb rc md, 7, cas)] ++
      (if wide then [] else [(.amoFadd32 th rd ra rb md, 1, 0)]) : List (Instr × Nat × Word)), Ready s th e.1 →
      (paSpace x.pa ≠ 1 →
        let op : Held := .amo x.pa e.2.1 wide order (rget t rb) e.2.2 posted
        let after : Thread := if posted then nextPc t else { t with wait := .amo (if noret then none else some rd.toNat) e.2.1 wide (order % 2 == 1) va }
        ∃ u, exec e.1 s = .next u ∧ OnlyThread s u n ∧
          ((u.thread n = after ∧ Requests u (n / 4096) (.amo th posted)
              (.amo (BitVec.ofNat 52 x.pa) (BitVec.ofNat 3 e.2.1) wide (BitVec.ofNat 2 order) (rget t rb) e.2.2)) ∨
            u.thread n = { after with held := t.held ++ [op] })) ∧
      (paSpace x.pa = 1 → t.st = .running → t.trapPc ≠ 0 →
        ∃ u, exec e.1 s = .next u ∧ OnlyThread s u n ∧ u.thread n = enterTrap t 0x0C va)

/-- Fences, EXIT and TRAVEL (R117 to R119, R157, R158): each writes the tenant's dirty data back and waits until what it must wait for is answered;
a thread whose release conditions hold goes on at once. Fences then pass, and those that acquire leave no line of the tenant outside STABLE sections in
the cluster; EXIT, and the bottom frame's RET, free the context; TRAVEL to another die sends the ticket and keeps the context travelling; TRAVEL to an
unmapped address or to its own die resumes with its status in t15 (R82, R87).
Model's choices: log 79. -/
def Obligations.FencesExitTravel : Prop :=
  ∀ (s : State) (th : BitVec 23) (ra : BitVec 6), regOk ra →
    let n := th.toNat
    let t := s.thread n
    let c := n / 128
    let d := n / 4096
    let acquired (u : State) : Prop := ∀ e ∈ (u.cluster c).lines, e.2.tenant = t.tenant → e.2.stable = true
    let does (i : Instr) (f : State → Prop) : Prop := Ready s th i → ∃ u, exec i s = .next u ∧ f u
    let waits (u : State) (a : After) : Prop := OnlyThread s u n ∧ u.thread n = { t with wait := .drain a }
    let passed (u : State) (acq : Bool) : Prop := OnlyThread s u n ∧ u.thread n = { nextPc t with fetch := if acq then [] else t.fetch } ∧
      (acq = true → acquired u)
    let ends : List Instr := .exit th :: if t.st = .running ∧ t.stack = [] ∧ t.rhUsed = 0 ∧ t.rhExt = 0 then [.ret th] else []
    does (.fenceAcquire th) (fun u => passed u true) ∧
    does (.fenceRelease th) (fun u => (waits u (.fence false false) ∨ passed u false) ∧ (Quiet s n → passed u false)) ∧
    (∀ i ∈ [Instr.fenceFull th, Instr.fenceDrain th], does i (fun u => (waits u (.fence true true) ∨ passed u true) ∧ (Quiet s n → passed u true))) ∧
    (∀ i ∈ ends, does i (fun u => (waits u .exit ∨ (u.thread n).st = .free) ∧
      (Quiet s n → (u.thread n).st = .free ∧ (t.launch = none → t.origin = none → OnlyThread s u n ∧ u.thread n = { travelCount := t.travelCount })))) ∧
    (t.st = .running →
      let va := (rget t ra).toNat
      let count := t.travelCount + 1
      let back (status : Word) : Thread :=
        nextPc { t with travelCount := count, t := t.t.set 15 status, tHeld := false, tReset := none, fetch := [] }
      does (.travel th ra) (fun u => waits u (.travel (rget t ra)) ∨ (OnlyThread s u n ∧ acquired u ∧ (u.thread n).travelCount = count)) ∧
      (Quiet s n → does (.travel th ra) (fun u => OnlyThread s u n ∧ acquired u ∧
        (2 ^ 48 ≤ va ∨ (s.xlatCl c t.tenant t.vi va).1 = none → u.thread n = back 2) ∧
        (∀ x, va < 2 ^ 48 → (s.xlatCl c t.tenant t.vi va).1 = some x →
          (paDie x.pa = d → u.thread n = back 1) ∧
          (paDie x.pa ≠ d → (u.thread n).st = .travelling ∧ (u.thread n).travelCount = count ∧
            Requests u d (.travel th) (.ticket ⟨BitVec.ofNat 64 t.deadline, count, th, BitVec.ofNat 2 t.cls⟩
              { cond := t.cond, resumePc := t.pc + 8, l := t.l, p := t.p, t := t.t.take 15 }))))))

/-- A release writes every dirty sector of its tenant back (R157): whatever the cluster held, after FENCE RELEASE, FULL and DRAIN none of its lines is
dirty and none of its stream buffers holds a byte. -/
def Obligations.ReleaseWritesBack : Prop :=
  ∀ (s : State) (th : BitVec 23),
    let c := th.toNat / 128
    let tenant := (s.thread th.toNat).tenant
    (s.cluster c).lines.Pairwise (fun a b => a.1 < b.1) → (s.cluster c).siding.length ≤ 32 →
    ∀ i ∈ [Instr.fenceRelease th, .fenceFull th, .fenceDrain th], Ready s th i →
    ∃ u, exec i s = .next u ∧ OnlyThread s u th.toNat ∧
      (∀ e ∈ (u.cluster c).lines, e.2.tenant = tenant → e.2.dirty = 0) ∧
      (∀ l ∈ (u.cluster c).siding, l.tenant = tenant → l.dirty = 0) ∧
      ∀ k ∈ (u.cluster c).trackers, k.tenant = tenant → k.bufs = []

/-- SIG.ADD, SIG.SET, SIG.READ, SIG.WAIT and SIG.TAKE (R97, R114, R115, R317, R323): the request names the signal's slot at its home die, with
its function, value, writer, deadline and VI; a posted write leaves or is held until the release conditions hold; the others make the thread wait,
a wait with its threshold and timeout. An invalid handle raises SIG_HANDLE. -/
def Obligations.SignalInstructions : Prop :=
  ∀ (s : State) (th : BitVec 23) (rd ra rb rc : BitVec 6) (md : BitVec 8), regOk rd → regOk ra → regOk rb → regOk rc →
    (md.getLsbD 0 = true → md.toNat / 2 ≤ 47) →
    let n := th.toNat
    let t := s.thread n
    let d := n / 4096
    let h : Word := if md.getLsbD 0 then mkHandle 2 (s.die d).epoch.toNat d (n / 32 % 128 * 64 + md.toNat / 2) else rget t ra
    let low : BitVec 32 := (rget t rb).truncate 32
    let body (fn : SigFn) (v : BitVec 32) : Payload := .sig (BitVec.ofNat 52 (2 * 2 ^ 48 + hDie h * 2 ^ 37 + slotOff (hKey h))) fn v 1 th
      (BitVec.ofNat 64 t.deadline) (BitVec.ofNat 5 t.vi)
    let us := if (rget t rc).toNat = 0 then (s.vi (n / 32768) t.vi).timeoutUs else min (rget t rc).toNat 60000000
    (handleValid h = true →
      (∀ e ∈ [(Instr.sigAdd th ra rb md, SigFn.add), (.sigSet th ra rb md, .set)],
        Ready s th e.1 → ∃ u hs, exec e.1 s = .next u ∧ OnlyThread s u n ∧ u.thread n = { nextPc t with held := hs } ∧
          (Requests u d (.sigPost 0 th h) (body e.2 low) ∨ .sig e.2 h (hDie h / 8) (hDie h % 8) (hKey h) low ∈ hs)) ∧
      (Ready s th (.sigRead th rd ra md) → ∃ u, exec (.sigRead th rd ra md) s = .next u ∧ OnlyThread s u n ∧ u.thread n = { t with wait := .sigRead rd.toNat h } ∧
        Requests u d (.sigRead th) (body .read 0)) ∧
      (t.st = .running → ∀ e ∈ [(Instr.sigWait th rd ra rb rc md, false), (.sigTake th rd ra rb rc md, true)],
        Ready s th e.1 → ∃ u, exec e.1 s = .next u ∧ OnlyThread s u n ∧
          u.thread n = { t with wait := .sig rd.toNat e.2 h (hDie h / 8) (hDie h % 8) (hKey h) low us ((s.pkg (n / 32768)).tick + us * 100) none } ∧
          Requests u d (.sigWait (.thread th)) (body (if e.2 then .take else .wait) low))) ∧
    (handleValid h = false →
      let raises (i : Instr) : Prop := Ready s th i → exec i s = .next ((issued s n).raise n 0x0E h)
      raises (.sigAdd th ra rb md) ∧ raises (.sigSet th ra rb md) ∧ raises (.sigRead th rd ra md) ∧
      (t.st = .running → raises (.sigWait th rd ra rb rc md) ∧ raises (.sigTake th rd ra rb rc md))) ∧
    (t.st = .trap → ∀ i ∈ [Instr.sigWait th rd ra rb rc md, .sigTake th rd ra rb rc md], Ready s th i → exec i s = .next ((issued s n).raise n 0x05 0))

/-- RHOUT and RHIN in the trap window (R73, R122, R124, R152): the counts move by the number of records; RHOUT compacts the region, RHIN puts the
records read from memory before those in use. A count out of range raises ROUNDHOUSE_COUNT, an address that fails its check raises the exception of that
check, a record that cannot be read raises ACCESS_ERROR, and outside the trap window they raise PRIVILEGED.
Model's choices: logs 9, 10, 52. -/
def Obligations.RoundhouseMoves : Prop :=
  ∀ (s : State) (th : BitVec 23) (ra rb : BitVec 6), regOk ra → regOk rb → Memory.wf s.mem = true →
    let n := th.toNat
    let t := s.thread n
    let c := n / 128
    let k := (rget t rb).toNat
    let size := 1024 * 2 ^ min (s.die (n / 4096)).rhCode.toNat 2
    let place (i : Nat) : Nat := 2 ^ 48 + n / 4096 * 2 ^ 37 + (n % 4096 * size + 64 * i)
    let raises (i : Instr) (cause : Nat) (addr : Word) : Prop := Ready s th i → exec i s = .next ((issued s n).raise n cause addr)
    let does (i : Instr) (f : State → Prop) : Prop := Ready s th i → ∃ u, exec i s = .next u ∧ (∀ m, m ≠ n → u.thread m = s.thread m) ∧ f u
    (t.st = .trap → 1 ≤ k → k ≤ t.rhUsed →
      (∀ l, (s.rhCheck n true (rget t ra) k).1 = .ok l → does (.rhout th ra rb) (fun u =>
        (s.poisonIn (place 0) (64 * t.rhUsed) = none →
          (∃ h, u.thread n = nextPc { t with rhUsed := t.rhUsed - k, rhExt := t.rhExt + k, held := t.held ++ h }) ∧
          u.readPa (place 0) (64 * (t.rhUsed - k)) = s.readPa (place k) (64 * (t.rhUsed - k)) ∧ SameOutside s u (place 0) (64 * (t.rhUsed - k))) ∧
        (∀ w, s.poisonIn (place 0) (64 * t.rhUsed) = some w → (u.thread n).st = .halted ∧ SameBytes s u))) ∧
      (∀ cause addr, (s.rhCheck n true (rget t ra) k).1 = .bad cause addr → does (.rhout th ra rb) (fun u => (u.thread n).st = .halted ∧ SameBytes s u))) ∧
    (∀ l recs, t.st = .trap → 1 ≤ k → k ≤ t.rhExt → t.rhUsed + k ≤ size / 64 → (s.rhCheck n false (rget t ra) k).1 = .ok l → t.held = [] →
      (∀ u ∈ (s.cluster c).trackers, u.stream = false) → s.linesBusy c t.tenant (l.map (fun x => x.pa / 128)) = false →
      s.poisonIn (place 0) (64 * t.rhUsed) = none → (s.rhRead n (rget t ra) l).1 = .inl recs →
      does (.rhin th ra rb) (fun u => u.thread n = nextPc { t with rhUsed := t.rhUsed + k, rhExt := t.rhExt - k } ∧
        u.readPa (place 0) (64 * (t.rhUsed + k)) = recs.flatten ++ s.readPa (place 0) (64 * t.rhUsed) ∧
        SameOutside s u (place 0) (64 * (t.rhUsed + k)))) ∧
    (t.st = .trap → k = 0 ∨ t.rhUsed < k → raises (.rhout th ra rb) 0x0F (rget t rb)) ∧
    (t.st = .trap → k = 0 ∨ t.rhExt < k ∨ size / 64 < t.rhUsed + k → raises (.rhin th ra rb) 0x0F (rget t rb)) ∧
    (t.st = .running → raises (.rhout th ra rb) 0x04 0 ∧ raises (.rhin th ra rb) 0x04 0)

/-- The word that a thread fetches spells an instruction by its fields (R92); INSTRUCTION_FETCH that finds its sector, or none (FETCH_FAULT);
MISS_REGISTER_GRANT with a register free, and PLATFORM_QUEUE_GRANT of an uncached lane (R140, R143, R144, R182, R183, R592).
Model's choices: log 6. -/
def Obligations.FetchAndGrants : Prop :=
  (∀ (th : BitVec 23) (rd ra rb rc : BitVec 6) (imm : BitVec 32) (md : BitVec 8) (sf : Bool) (z : BitVec 15),
    let long (op : BitVec 8) : BitVec 64 := op ++ rd ++ ra ++ rb ++ rc ++ imm
    let ctl (op fn : BitVec 8) : BitVec 64 := op ++ rd ++ ra ++ rb ++ rc ++ (fn ++ md ++ (z ++ BitVec.ofBool sf : BitVec 16) : BitVec 32)
    decodeWord th (long 0x03) = some (.alui th rd ra rb imm) ∧ decodeWord th (long 0x04) = some (.li th rd imm) ∧
    decodeWord th (long 0x20) = some (.ld th rd ra imm rc .clean) ∧ decodeWord th (long 0x21) = some (.st th ra rb imm rc .clean) ∧
    decodeWord th (long 0x40) = some (.bc th rd imm) ∧ decodeWord th (ctl 0x01 0x00) = some (.add th rd ra rb sf) ∧
    decodeWord th (ctl 0x01 0x0F) = some (.sltu th rd ra rb sf) ∧ decodeWord th (ctl 0x02 0x07) = some (.madd th rd ra rb rc sf) ∧
    decodeWord th (ctl 0x10 0x03) = some (.ffma th rd ra rb rc md) ∧ decodeWord th (ctl 0x18 0x05) = some (.pmaxu th rd ra rb rc md sf) ∧
    decodeWord th (ctl 0x28 0x07) = some (.amoCas th rd ra rb rc md) ∧ decodeWord th (ctl 0x30 0x03) = some (.sigWait th rd ra rb rc md) ∧
    decodeWord th (ctl 0x01 0x14) = none ∧ decodeWord th (long 0x00) = none) ∧
  (∀ (s : State) (th : BitVec 23) (x : Xlat) (b : List Byte),
    let n := th.toNat
    let t := s.thread n
    let c := n / 128
    let cur := t.pc.toNat / 32 * 32
    s.fetches n = true → s.portFree c 1 (128 + n % 128) = true → s.fetchOut th cur = false →
    ((s.xlatCl c t.tenant t.vi cur).1 = some x → entryEx x.entry = true → entryUncached x.entry = false → s.lookup c t.tenant x.pa 32 = some b →
      ∃ u, exec (.instructionFetch th .clean) s = .next u ∧ OnlyThread s u n ∧ u.thread n = { t with fetch := (u.thread n).fetch } ∧
        ⟨cur, b⟩ ∈ (u.thread n).fetch) ∧
    ((s.xlatCl c t.tenant t.vi cur).1 = none ∨ (s.xlatCl c t.tenant t.vi cur).1 = some x ∧ entryEx x.entry = false → t.st = .running → t.trapPc ≠ 0 →
      ∃ u, exec (.instructionFetch th .clean) s = .next u ∧ OnlyThread s u n ∧ u.thread n = enterTrap t 0x07 (t.pc.zeroExtend 64))) ∧
  (∀ (s : State) (cl : BitVec 16) (a : Aside),
    let c := cl.toNat
    let d := c / 32
    let x := s.cluster c
    s.dieUp d = true → x.aside = [a] → x.miss = [] → x.work = none → findWay x a.tenant a.line = none → findSiding x a.tenant a.line = none →
    (∀ e ∈ (s.die d).outst, e.2.kind ≠ .wb c a.line) → (∀ e ∈ (s.die d).sendQ, e.1.kind ≠ .wb c a.line) →
    ∃ u sec, exec (.missRegisterGrant cl) s = .next u ∧ SameBytes s u ∧ u.threads = s.threads ∧ (u.cluster c).aside = [] ∧
      ((u.cluster c).miss.map (fun m => (m.line, m.tenant, m.merges))) = [(a.line, a.tenant, [(a.who, a.need)])] ∧
      (u.cluster c).missFree = x.missFree - 1 ∧ sec &&& a.need = a.need ∧
      Requests u d (.fill c x.nextMiss) (.rd (BitVec.ofNat 52 (a.line * 128)) sec)) ∧
  (∀ (s : State) (cl : BitVec 16) (lane : BitVec 4) (th : BitVec 23) (e : PqEntry) (i rd size : Nat) (sx : Bool) (lanes : List GLane) (l : GLane),
    let c := cl.toNat
    let q := lane.toNat
    let x := s.cluster c
    let t := s.thread th.toNat
    s.dieUp (c / 32) = true → s.unitRuns (c / 32) (c % 32) = true → s.portFree c 2 (128 + q) = true → th.toNat / 128 = c → x.pqWait = [(q, e)] → e.who = .thread th i →
    q = 4 * (th.toNat / 32 % 4) + i % 4 → pqOpen x q e.cls = true → t.wait = .gather rd size sx lanes → lanes.find? (fun l => l.lane == i) = some l →
    l.uncached = true →
    ∃ u, exec (.platformQueueGrant cl lane) s = .next u ∧ SameBytes s u ∧ u.threads = s.threads ∧ (u.cluster c).pqWait = [] ∧
      tget (u.cluster c).pq q [] = tget x.pq q [] ++ [⟨.thread th i, t.tenant, t.cls, t.deadline⟩] ∧
      tget (u.cluster c).pqFree q 16 = tget x.pqFree q 16 - 1 ∧
      Requests u (c / 32) (.ulane th i) (.rd (BitVec.ofNat 52 (l.pa / 128 * 128)) (sectorsOf (l.pa % 128) size)))

/-! ### Packets at their home die -/

/-- How a request arrives (R173, R358, R364, R370, R376, R378, R551): the network carries it as far as it goes; one that has not arrived, whose answer
finds no place, or whose turn at the DRAM controller has not come stays there; one whose opcode and channel do not go together is discarded and counted
in BAD_PKT; a die that does not serve, and stale epochs, answer GONE; otherwise its destination takes it. One that meets the Buffer stop is answered GONE
from there, with the epochs that the request named; a target known to be out of service stops it at its source.
Model's choices: logs 8, 11. -/
def Obligations.RequestArrival : Prop :=
  ∀ (s : State) (p : Packet),
    let b := s.bring p
    let d := p.dst
    let gone (a : Packet) : Prop := a.status = 1 ∧ a.tag = p.tag ∧ a.dst = p.src ∧ a.body = refusalBody p.body ∧ a.depoch = p.sepoch
    Kept s b ∧
    (b.isNext p = false ∨ b.canPlace p = false ∨ b.dramTurn p = none → s.arrive p = .notNext b) ∧
    (∀ s1, b.isNext p = true → b.canPlace p = true → b.dramTurn p = some s1 →
      let t := s1.take p
      let stale : Prop := p.depoch ≠ (t.die d).epoch ∨ p.pepoch ≠ (t.pkg p.dpkg.toNat).epoch
      Kept s t ∧
      (opcFits (opcOf p.body) p.vc.toNat = false → ∃ u, s.arrive p = .answered u ∧ Kept s u ∧ u.net = t.net ∧
        (u.die d).badPkt.toNat = min ((t.die d).badPkt.toNat + 1) (2 ^ 32 - 1)) ∧
      (opcFits (opcOf p.body) p.vc.toNat = true → t.dieUp d = false ∨ stale →
        ∃ u a, s.arrive p = .answered u ∧ Kept s u ∧ u.net = t.net ++ [a] ∧ gone a) ∧
      (opcFits (opcOf p.body) p.vc.toNat = true → t.dieUp d = true → ¬ stale → s.arrive p = .here t)) ∧
    (∀ x r, s.seek p = some (x, r) → s.headOf x r = r → s.hop x r = .stopped ∨ s.hop x r = .lost → isRequest p = true →
      opcFits (opcOf p.body) p.vc.toNat = true → (s.leave x r).seek p = none → (s.leave x r).seekLink p = none →
      ∃ u a, s.arrive p = .notNext u ∧ Kept s u ∧ (⟨7, true, a⟩ : Rx) ∈ (u.die x).rx ∧ gone a ∧ a.sepoch = p.depoch ∧ a.pepoch = p.pepoch) ∧
    (∀ x, isRequest p = true → tget (s.die x).targets p.dst .inService ≠ .inService → s.hop x ⟨8, true, p⟩ = .stopped)

/-- RD, WR and AMO of memory that the tenant owns (R112, R129, R131, R156, R165, R204): the sectors asked; the masked bytes, or bits, merged; the
old value returned and the new one stored. An offset that is not populated is answered ERROR, another owner's range FOREIGN.
Model's choices: logs 52, 55, 80, 83. -/
def Obligations.HomeMemory : Prop :=
  ∀ (s s' : State) (pk : Packet), Memory.wf s.mem = true → s.arrive pk = .here s' →
    let answered (o : Out) (status : Nat) (body : Payload) (f : State → Prop) : Prop :=
      ∃ u r, o = .next u ∧ u.net = s'.net ++ [r] ∧ Answers s' pk r status body ∧ u.threads = s.threads ∧ f u
    (∀ pa sectors, pk.body = .rd pa sectors →
      let line := pa.toNat / 128 * 128
      s'.homeRefuses pk.tenant.toNat line = none → (∀ i, i < 4 → sectors.getLsbD i = true → s.poisonIn (line + 32 * i) 32 = none) →
      answered (exec (.rdPacket pk .clean) s) 0 (.data (BitVec.ofNat 52 line) sectors
        ((List.range 128).map (fun i => if sectors.getLsbD (i / 32) then memGet s.mem (line + i) else 0))) (SameBytes s)) ∧
    (∀ pa mask data wb, pk.body = .wr pa mask data wb →
      let line := pa.toNat / 128 * 128
      (∀ o, tget? (s'.die pk.src).outst pk.tag.toNat = some o → ∀ home c pos n k, o.kind ≠ .partial_ home c pos n k) →
      s'.homeRefuses pk.tenant.toNat line (some pk.spkg.toNat) = none →
      answered (exec (.wrPacket pk .clean) s) 0 .ack (fun u => Memory.wf u.mem = true ∧ SameOutside s u line 128 ∧
        ∀ i, i < 128 → memGet u.mem (line + i) = if mask.getLsbD i then data.getD i 0 else memGet s.mem (line + i))) ∧
    (∀ pa bits data, pk.body = .wrBits pa bits data →
      let line := pa.toNat / 128 * 128
      s'.homeRefuses pk.tenant.toNat line (some pk.spkg.toNat) = none →
      answered (exec (.wrPacket pk .clean) s) 0 .ack (fun u => Memory.wf u.mem = true ∧ SameOutside s u line 128 ∧
        ∀ i, i < 128 → memGet u.mem (line + i) = (memGet s.mem (line + i) &&& ~~~(bits.getD i 0)) ||| (data.getD i 0 &&& bits.getD i 0))) ∧
    (∀ pa fn wide order a b, pk.body = .amo pa fn wide order a b →
      let n := if wide then 8 else 4
      let m := 2 ^ (8 * n)
      let old := leNat (s.readPa pa.toNat n)
      let x := a.toNat % m
      let f32 (k : Nat) : Val := f32Val (BitVec.ofNat 32 k)
      s'.homeRefuses pk.tenant.toNat pa.toNat (some pk.spkg.toNat) = none → paSpace pa.toNat = 0 → pa.toNat % n = 0 → s.poisonIn pa.toNat n = none →
      ∀ e ∈ ([(0, (old + x) % m), (1, (toF32 0 false (vAdd (f32 old) (f32 a.toNat))).1.toNat), (2, if signed x (8 * n) < signed old (8 * n) then x else old),
        (3, if signed old (8 * n) < signed x (8 * n) then x else old), (4, min old x), (5, max old x), (6, old ||| x),
        (7, if old = b.toNat % m then x else old)] : List (Nat × Nat)), fn.toNat = e.1 → (e.1 = 1 → wide = false) →
      answered (exec (.amoPacket pk) s) 0 (.amorsp (BitVec.ofNat 64 old)) (fun u =>
        leNat (u.readPa pa.toNat n) = e.2 ∧ SameOutside s u pa.toNat n ∧ Memory.wf u.mem = true)) ∧
    (∀ pa sectors, pk.body = .rd pa sectors → pk.tenant ≠ 0 →
      let line := pa.toNat / 128 * 128
      s.slotBusy pk pa.toNat = false →
      (2 ≤ paSpace line ∨ paPopulated line = false → answered (exec (.rdPacket pk .clean) s) 2 .ack (SameBytes s)) ∧
      (paSpace line < 2 → paPopulated line = true → s'.owner line ≠ pk.tenant.toNat →
        answered (exec (.rdPacket pk .clean) s) 3 .ack (SameBytes s)))

/-- A SIG packet joins its box's queue; the box applies the oldest request: ADD saturates and SET clears SAT, both name the writer and are
answered OK; READ returns COUNT; a WAIT or TAKE that COUNT meets is answered at once, TAKE with its threshold subtracted; any other joins the
waiters (R310 to R312, R320, R321, R328). -/
def Obligations.SignalBox : Prop :=
  (∀ (s s' : State) (pk : Packet) addr fn v src w dl vi, pk.body = .sig addr fn v src w dl vi → s.arrive pk = .here s' → paSpace addr.toNat = 2 →
    paPopulated addr.toNat = true → addr.toNat % 16 = 0 →
    exec (.sigPacket pk) s = .next (s'.modDie pk.dst (fun x => { x with sigQueue := x.sigQueue ++ [pk] }))) ∧
  (∀ (s : State) (die : BitVec 11) (p : Packet) (r : List Packet) (addr : BitVec 52) (fn : SigFn) (v : BitVec 32) src w dl vi,
    let d := die.toNat
    let key := slotKey (paOff addr.toNat)
    let g := s.signal d key
    s.dieUp d = true → s.unitRuns d 0x39 = true → (s.die d).sigQueue = p :: r → p.body = .sig addr fn v src w dl vi → p.dst = d →
    s.served (d / 8) p.tenant.toNat = true → p.tenant ≠ 0 → g.owner = p.tenant.toNat →
    let does (c : Instr) (g' : Signal) (code : Nat) (count : BitVec 32) : Prop :=
      ∃ u a, exec c s = .next u ∧ u.signal d key = g' ∧ (u.die d).sigQueue = r ∧ u.net = s.net ++ [a] ∧
        Answers s p a 0 (.sigrsp (BitVec.ofNat 64 code) count) ∧ SameBytes s u ∧ u.threads = s.threads
    let kept : Prop := key < 65536
    (g.waiters = [] → kept →
      (fn = .add → does (.signalAddApply die)
        { g with
          count := BitVec.ofNat 32 (min (g.count.toNat + v.toNat) (2 ^ 32 - 1))
          sat := g.sat || decide (2 ^ 32 ≤ g.count.toNat + v.toNat)
          lwSource := src
          lastWriter := w } 0 0) ∧
      (fn = .set → does (.signalSetApply die) { g with count := v, sat := false, lwSource := src, lastWriter := w } 0 0) ∧
      (fn = .read → does (.signalReadApply die) g 0 g.count) ∧
      (fn = .wait → v.toNat ≤ g.count.toNat → does (.signalWaitArrive die) g 0 g.count) ∧
      (fn = .take → v.toNat ≤ g.count.toNat → does (.signalWaitArrive die) { g with count := g.count - v } 0 (g.count - v))) ∧
    (fn = .wait ∨ fn = .take → g.count.toNat < v.toNat → p.src = d → src.toNat = 1 →
      ∃ u, exec (.signalWaitArrive die) s = .next u ∧ u.net = s.net ∧ SameBytes s u ∧ u.threads = s.threads ∧
        u.signal d key = { g with waiters := g.waiters ++ [⟨.thread w, fn == .take, v, false, p⟩] })) ∧
  -- a request of another tenant changes nothing and is answered FOREIGN (R322)
  (∀ (s : State) (die : BitVec 11) (p : Packet) (r : List Packet) (addr : BitVec 52) (fn : SigFn) (v : BitVec 32) src w dl vi,
    let d := die.toNat
    let key := slotKey (paOff addr.toNat)
    s.dieUp d = true → s.unitRuns d 0x39 = true → (s.die d).sigQueue = p :: r → p.body = .sig addr fn v src w dl vi → p.dst = d →
    p.tenant ≠ 0 → (s.signal d key).owner ≠ p.tenant.toNat → key < 65536 →
    ∀ e ∈ [(SigFn.add, Instr.signalAddApply die), (.set, .signalSetApply die), (.read, .signalReadApply die), (.wait, .signalWaitArrive die),
      (.take, .signalWaitArrive die)], fn = e.1 →
    ∃ u a, exec e.2 s = .next u ∧ (u.die d).signals = (s.die d).signals ∧ u.net = s.net ++ [a] ∧ Answers s p a 3 (.sigrsp 2 0))

/-- Waiters are released in the order of class, deadline and arrival (R329): a SIG.ADD that lets every waiter of a pool signal go on leaves
none, and TAKE waiters' thresholds are subtracted one after the other. -/
def Obligations.WaitersReleasedInOrder : Prop :=
  ∀ (s : State) (d key : Nat), key < 65536 →
    let g := s.signal d key
    let ws := waiterOrder g.waiters
    let u := s.evaluate d key
    (ws.map (fun w => w.threshold.toNat)).sum ≤ g.count.toNat → (∀ w ∈ g.waiters, w.take = true) →
    (u.signal d key).waiters = [] ∧
      (u.signal d key).count.toNat = g.count.toNat - (ws.map (fun w => w.threshold.toNat)).sum ∧
      u.net.length = s.net.length + ws.length ∧
      ((u.net.drop s.net.length).map (fun p => p.tag)) = ws.map (fun w => w.rq.tag) ∧ SameBytes s u

/-! ### Responses -/

/-- The responses that a requester drops (R377): its DEPOCH is not the die's present epoch, its TAG names no outstanding request, or its STATUS is not
GONE and its SEPOCH is not the epoch that the request carried; each is counted in STALE_RSP, and changes no thread and no byte. One that has not arrived
stays in the network. -/
def Obligations.StaleResponsesDropped : Prop :=
  ∀ (s : State) (pk : Packet),
    let b := s.bring pk
    let t := b.take pk
    let d := pk.dst
    let answers (c : Instr) (r : State → Prop) : Prop := ∃ u, exec c s = .next u ∧ Kept s u ∧ r u
    let all (r : State → Prop) : Prop :=
      (pk.body = .ack → answers (.ackPacket pk) r) ∧ (∀ pa sec b, pk.body = .data pa sec b → answers (.dataPacket pk) r) ∧
      (∀ old, pk.body = .amorsp old → answers (.amorspPacket pk) r) ∧ (∀ code count, pk.body = .sigrsp code count → answers (.sigrspPacket pk) r) ∧
      (∀ o no, pk.body = .trsp o no → answers (.trspPacket pk) r)
    (b.isNext pk = false → all (fun u => u = b)) ∧
    (b.isNext pk = true → pk.depoch ≠ (t.die d).epoch ∨ t.dieUp d = false ∨ tget? (t.die d).outst pk.tag.toNat = none ∨
        (pk.status.toNat ≠ stGone ∧ ∃ o, tget? (t.die d).outst pk.tag.toNat = some o ∧ pk.sepoch ≠ o.depoch) →
      all (fun u => u.net = t.net ∧ (u.die d).staleRsp.toNat = min ((t.die d).staleRsp.toNat + 1) (2 ^ 32 - 1) ∧
        (u.die d).outst = (t.die d).outst))

/-- What a matched response does (R84, R87, R108, R112, R114, R115, R144, R377): the fill of a line gives a waiting load its bytes and frees the
register; an uncached load, an atomic, a signal read and a wait end with the value returned; TRSP ARRIVED frees the context, FULL resumes it with
status 4; the OK of a unit's write changes nothing more.
Model's choices: log 14. -/
def Obligations.ResponsesAnswer : Prop :=
  ∀ (s s' : State) (pk : Packet) (o : Outst) (th : BitVec 23), s.reply pk = .matched o s' → pk.flt = none →
    let n := th.toNat
    let t := s'.thread n
    let value (size : Nat) (sx : Bool) (b : List Byte) : Word := if sx then BitVec.ofInt 64 (signed (leNat b) (8 * size)) else BitVec.ofNat 64 (leNat b)
    let ends (c : Instr) (rd : Nat) (v : Word) : Prop :=
      ∃ u, exec c s = .next u ∧ OnlyThread s' u n ∧ u.thread n = nextPc (regSet { t with wait := .none } rd v)
    (∀ pa sec b rd size sx va la, pk.body = .data pa sec b → b.length = 128 → la % 128 + size ≤ 128 → t.wait = .load rd size sx false va la →
      pk.status = 0 →
      (o.kind = .uload th → ends (.dataPacket pk) rd (value size sx ((b.drop (la % 128)).take size))) ∧
      (∀ c reg m need, o.kind = .fill c reg → (s'.cluster c).work = none → (s'.cluster c).miss.find? (fun m => m.id == reg) = some m → m.merges = [(.load th, need)] →
        m.line = la / 128 → m.err = false → m.gone = false → m.ovMask = 0 → (∀ i, la % 128 ≤ i → i < la % 128 + size → sec.getLsbD (i / 32) = true) →
        s'.unanswered pk.dst (fun o => o.kind == .fill c reg) = 0 →
        findWay (s'.cluster c) m.tenant m.line = none → findSiding (s'.cluster c) m.tenant m.line = none →
        ends (.dataPacket pk) rd (value size sx ((b.drop (la % 128)).take size)) ∧
        ∃ u, exec (.dataPacket pk) s = .next u ∧ (u.cluster c).missFree = (s'.cluster c).missFree + 1 ∧
          ∀ m ∈ (u.cluster c).miss, m.id ≠ reg)) ∧
    (∀ old rd fn va, pk.body = .amorsp old → pk.status = 0 → o.kind = .amo th false → t.wait = .amo (some rd) fn true false va → t.held = [] →
      ends (.amorspPacket pk) rd old) ∧
    (∀ code count rd h, pk.body = .sigrsp code count → pk.status = 0 → o.kind = .sigRead th → t.wait = .sigRead rd h →
      ends (.sigrspPacket pk) rd (count.zeroExtend 64)) ∧
    (∀ count rd take h p d k thr us due retry, pk.body = .sigrsp 0 count → pk.status = 0 → o.kind = .sigWait (.thread th) →
      t.wait = .sig rd take h p d k thr us due retry → ends (.sigrspPacket pk) rd 0) ∧
    (∀ c desc n, pk.body = .ack → pk.status = 0 → o.kind = .unitWrite c desc n → exec (.ackPacket pk) s = .next s') ∧
    (∀ no, pk.body = .trsp th no → o.kind = .travel th → tget? ((s.bring pk).die pk.dst).outst pk.tag.toNat = some o → s.travelOf pk.dst th no = true →
      t.st = .travelling → t.wait = .none →
      (pk.status.toNat = 6 → ∃ u, exec (.trspPacket pk) s = .next u ∧ OnlyThread s' u n ∧ u.thread n = { travelCount := t.travelCount }) ∧
      (pk.status.toNat = 5 → ∃ u, exec (.trspPacket pk) s = .next u ∧ OnlyThread s' u n ∧ u.thread n =
        nextPc { t with pc := t.tPc, st := .running, t := t.t.set 15 4, tReset := none, tHeld := false }))

/-! ### Threads that are placed, travel and wait -/

/-- Launch and travel (R61, R77, R83, R84, R381): a free context takes the launched thread or the ticket's thread, with the tenant, class, deadline,
PC and registers that the rules give; a full die queues the ticket or answers FULL; a query for an unknown travel leaves a NOT_SEEN record.
Model's choices: log 45. -/
def Obligations.PlacementAndTravel : Prop :=
  (∀ (s : State) (die : BitVec 11) (c : CmdRef) (k : RCmd) (i th : Nat),
    let w := s.launchSkips (die.toNat / 8)
    s.dieUp die.toNat = true → w.firstLaunch die.toNat = some (c, k, i) → w.findContext die.toNat = some th →
    (∀ q ∈ (w.die die.toNat).arrivals, k.cls < q.cls ∨ k.cls = q.cls ∧ k.deadline < q.env.deadline.toNat) →
    let t : Thread := {
      st := .running, tenant := (w.vi c.p c.v).tenant, vi := c.v, cls := k.cls, deadline := k.deadline, pc := k.launchEntry, trapPc := k.launchTrap
      t := [BitVec.ofNat 64 (k.word 5), BitVec.ofNat 64 i, BitVec.ofNat 64 k.launchCount] ++ List.replicate 13 0
      launch := some c, travelCount := (w.thread th).travelCount }
    ∃ u v, exec (.launchPlaceThread die) s = .next u ∧ v.thread th = t ∧ u = v.launchSkip c ∧ SameBytes w v ∧ ∀ m, m ≠ th → v.thread m = w.thread m) ∧
  (∀ (s : State) (die : BitVec 11) (q : QTicket) (th : Nat), s.dieUp die.toNat = true → (s.die die.toNat).arrivals = [q] →
    s.findContext die.toNat = some th → s.firstLaunch die.toNat = none →
    ∃ u, exec (.arrivalQueueEnter die) s = .next u ∧ OnlyThread s u th ∧ (u.die die.toNat).arrivals = [] ∧
      u.thread th = { arrived q (s.vi (diePkg (thDie th)) q.vi).trapPc with travelCount := (s.thread th).travelCount }) ∧
  (∀ (s s' : State) (pk : Packet) (env : Envelope) (tk : Ticket) (v : Nat), pk.body = .ticket env tk → s.arrive pk = .here s' →
    s'.seenNot pk.dst env.origin pk.sepoch env.travelNo = false → s'.viOf (diePkg pk.dst) pk.tenant.toNat = some v →
    let x := s'.die pk.dst
    let o := s'.thread env.origin.toNat
    let q : QTicket := ⟨env, tk, pk.tenant.toNat, v, max (min env.cls.toNat 2) (s'.vi (diePkg pk.dst) v).ceiling, pk.sepoch,
      if o.st == .travelling && o.travelCount == env.travelNo && (s'.die (env.origin.toNat / 4096)).epoch == pk.sepoch then o.launch else none⟩
    let answered (u : State) (st : Nat) : Prop := ∃ r, u.net = s'.net ++ [r] ∧ Answers s' pk r st (.trsp env.origin env.travelNo)
    (∀ th, s'.findContext pk.dst = some th →
      ∃ u, exec (.ticketPacket pk) s = .next u ∧ OnlyThread s' u th ∧
        u.thread th = { arrived q (s'.vi (diePkg (thDie th)) v).trapPc with travelCount := (s'.thread th).travelCount } ∧
        (env.origin, pk.sepoch, env.travelNo) ∈ (u.die pk.dst).accepted ∧ ∃ r, r ∈ u.net ∧ Answers s' pk r 6 (.trsp env.origin env.travelNo)) ∧
    (s'.findContext pk.dst = none → queueRoom x v = true →
      ∃ u, exec (.ticketPacket pk) s = .next u ∧ u.threads = s'.threads ∧ (u.die pk.dst).arrivals = x.arrivals ++ [q] ∧ answered u 6) ∧
    (s'.findContext pk.dst = none → queueRoom x v = false →
      ∃ u, exec (.ticketPacket pk) s = .next u ∧ u.threads = s'.threads ∧ u.dies = s'.dies ∧ answered u 5)) ∧
  (∀ (s s' : State) (pk : Packet) origin oepoch no, pk.body = .tquery origin oepoch no → s.arrive pk = .here s' →
    let known := (s'.die pk.dst).accepted.contains (origin, oepoch, no)
    (known = true → ∃ u r, exec (.tqueryPacket pk) s = .next u ∧ u.net = s'.net ++ [r] ∧ Answers s' pk r 6 (.trsp origin no) ∧ u.dies = s'.dies) ∧
    (known = false → ∃ u r, exec (.tqueryPacket pk) s = .next u ∧ u.net = s'.net ++ [r] ∧ Answers s' pk r 7 (.trsp origin no) ∧
      (origin, oepoch, no, s'.now pk.dst) ∈ (u.die pk.dst).notSeen ∧ u.threads = s'.threads))

/-- The origin's timers of a travel (R89, R381, R553): a query every millisecond, EV_TICKET_HELD once after 10 ms, the end of a thread whose target
was reset for a millisecond, and NOT_SEEN records that go after 10 ms.
Model's choices: log 23. -/
def Obligations.TravelTimers : Prop :=
  ∀ (s : State) (th : BitVec 23) (die : BitVec 11),
    let n := th.toNat
    let t := s.thread n
    let d := n / 4096
    let now := (s.pkg (n / 32768)).tick
    (t.st = .travelling → s.dieUp d = true →
      (∀ tag, t.tQuery + 100000 ≤ now → freeTag (s.die d) = some tag →
        ∃ u p, exec (.travelQueryTimer th) s = .next u ∧ OnlyThread s u n ∧ u.thread n = { t with tQuery := now } ∧ u.net = s.net ++ [p] ∧
          p.body = .tquery th (s.die d).epoch t.travelCount ∧ p.depoch = t.tEpoch ∧ p.tag = BitVec.ofNat 12 tag) ∧
      (t.tHeld = false → t.tStart + 1000000 ≤ now →
        exec (.ticketHeldTimer th) s = .next ((s.setThread n { t with tHeld := true }).event d t.vi 0x007 0x1FF n)) ∧
      (t.tHeld = true → exec (.ticketHeldTimer th) s = .next s) ∧
      (∀ since, t.tReset = some since → since + 100000 ≤ now → t.launch = none → t.origin = none → t.wait = .none →
        (∀ m, (s.thread m).origin ≠ some (th, (s.die d).epoch, t.travelCount)) →
        ∃ u, exec (.travelResetWaitExpire th) s = .next u ∧ u.thread n = { travelCount := t.travelCount } ∧ OnlyThread s u n ∧
          ((s.die d).threadFaults.length < 64 → (u.die d).threadFaults.length = (s.die d).threadFaults.length + 1))) ∧
    (∃ u, exec (.notSeenRecordExpire die) s = .next u ∧ u.threads = s.threads ∧ SameBytes s u ∧
      ∀ a, a ∈ (u.die die.toNat).notSeen ↔ a ∈ (s.die die.toNat).notSeen ∧ (s.pkg (die.toNat / 8)).tick < a.2.2.2 + 1000000)

/-- The listed instructions leave the DEADLINE, tenant and VI of every thread that lives on, and make no class more urgent (R31, R61, R120). -/
def Obligations.DeadlineAndClassKept : Prop :=
  ∀ (s u : State) (th : BitVec 23) (rd ra rb : BitVec 6) (imm : BitVec 32) (sf : Bool) (w : BitVec 64),
    ∀ c ∈ [Instr.add th rd ra rb sf, .li th rd imm, .mts th ra imm, .tret th, .brk th imm, .unassignedOp th w, .call th imm, .ret th, .jmp th imm,
      .nop th, .mfs th rd imm], exec c s = .next u → ∀ m, (u.thread m).st ≠ .free →
      (u.thread m).deadline = (s.thread m).deadline ∧ (u.thread m).tenant = (s.thread m).tenant ∧ (u.thread m).vi = (s.thread m).vi ∧
      ((s.thread m).cls ≤ (u.thread m).cls)

/-- The ends of a wait (R115, R313, R328, R330, R332 to R334): CANCEL takes the waiter off its signal and is answered CANCELLED with COUNT; a timeout at
the waiter's own die leaves status 0 if COUNT meets the threshold then, else status 1; a wait answered NOROOM is sent again when its time comes; a
core signal of a thread processor without its owner's threads is released.
Model's choices: log 11. -/
def Obligations.EndsOfWaits : Prop :=
  (∀ (s s' : State) (pk : Packet) (wtag : BitVec 12) (addr : BitVec 52) (w : Waiter), pk.body = .cancel wtag addr → s.arrive pk = .here s' →
    let key := slotKey (paOff addr.toNat)
    let g := s'.signal pk.dst key
    key < 65536 → (∀ p ∈ (s.die pk.dst).sigQueue, ((sigAsk? p).map (·.key)) ≠ some key) → g.waiters = [w] → w.rq.src = pk.src → w.rq.tag = wtag →
    ∃ u r, exec (.cancelPacket pk) s = .next u ∧ (u.signal pk.dst key) = { g with waiters := [] } ∧ u.net = s'.net ++ [r] ∧
      Answers s' pk r 8 (.sigrsp 1 g.count) ∧ u.threads = s.threads ∧ SameBytes s u) ∧
  (∀ (s : State) (th : BitVec 23) rd take h p d' key thr us due retry,
    let n := th.toNat
    let t := s.thread n
    let d := n / 4096
    let now := (s.pkg (n / 32768)).tick
    t.wait = .sig rd take h p d' key thr us due retry → due ≤ now → s.dieUp d = true → hDie h = d → s.net = [] → waitTag (s.die d) (.thread th) = none →
    let g := s.signal d (hKey h)
    let ends (status : Word) : Prop := ∃ u, exec (.waitTimeoutExpire (.thread th)) s = .next u ∧ OnlyThread s u n ∧
      u.thread n = nextPc (regSet { t with wait := .none } rd status) ∧
      (u.signal d (hKey h)).count = if status = 0 ∧ take = true then g.count - thr else g.count
    (thr.toNat ≤ g.count.toNat → g.owner = t.tenant → t.tenant ≠ 0 → ends 0) ∧ (g.count.toNat < thr.toNat → ends 1)) ∧
  (∀ (s : State) (th : BitVec 23) rd take h p d' key thr us due at_,
    let n := th.toNat
    let t := s.thread n
    let d := n / 4096
    let now := (s.pkg (n / 32768)).tick
    t.wait = .sig rd take h p d' key thr us due (some at_) → at_ ≤ now → now < due → s.dieUp d = true →
    ∃ u, exec (.remoteWaitRetry (.thread th)) s = .next u ∧ OnlyThread s u n ∧ u.thread n = { t with wait := .sig rd take h p d' key thr us due none } ∧
      Requests u d (.sigWait (.thread th)) (.sig (BitVec.ofNat 52 (2 * 2 ^ 48 + hDie h * 2 ^ 37 + slotOff (hKey h))) (if take then .take else .wait) thr 1 th
        (BitVec.ofNat 64 t.deadline) (BitVec.ofNat 5 t.vi))) ∧
  (∀ (s : State) (die : BitVec 11) (idx : BitVec 16), idx.toNat < 8192 →
    let d := die.toNat
    let tp := idx.toNat / 64
    let g := s.signal d (65536 + idx.toNat)
    ∃ u, exec (.coreSignalRelease die idx) s = .next u ∧ u.threads = s.threads ∧ SameBytes s u ∧ u.net = s.net ∧
      ((∀ e ∈ s.threads, e.1 / 4096 = d → e.1 / 32 % 128 = tp → e.2.st = .free ∨ e.2.tenant ≠ g.owner) → g.owner ≠ 0 → g.waiters = [] →
        u.signal d (65536 + idx.toNat) = {}) ∧
      (∀ key, key < 65536 → u.signal d key = s.signal d key))

/-! ### The machine: management packets and the central station -/

/-- MAP, EPOCH and MGMT packets at a head Turja (R374, R375, R403, R540 to R543, R551, R552): a newer map is installed with its routes, an older one
changes nothing; a new epoch is learned and its die is in service again; a lost target is noted and its waiters go; a bind is granted by the central
station once; a joining package's count steps forward; a held package's ports go dark.
Model's choices: logs 25, 26. -/
def Obligations.ManagementPackets : Prop :=
  ∀ (s s' : State) (pk : Packet), s.arriveMgmt pk = .here s' →
    let d := pk.dst
    let p := d / 8
    let q := pk.src / 8
    (∀ m, pk.body = .map m →
      (m.version.toNat ≤ (s'.die d).map.version.toNat → exec (.mapPacket pk) s = .next s') ∧
      ((s'.die d).map.version.toNat < m.version.toNat →
        ∃ u, exec (.mapPacket pk) s = .next u ∧ (u.die d).map = m ∧ (u.die d).routes = routeTable m d ∧ u.threads = s'.threads ∧ SameBytes s u)) ∧
    (∀ e, pk.body = .epoch e → e.isPkg = false →
      let t := e.pkg.toNat * 8 + e.die.toNat
      (e.state = 1 → ∃ u, exec (.epochPacket pk) s = .next u ∧ tget? (u.die d).dieEpochs t = some (e.new.truncate 8) ∧
        tget? (u.die d).targets t = none ∧ u.threads = s'.threads) ∧
      (e.state ≠ 1 → (s'.die d).outst = [] → (s'.die d).sendQ = [] → ∃ u, exec (.epochPacket pk) s = .next u ∧
        tget? (u.die d).targets t = some (if e.state = 0 then .resetting else .outOfService) ∧ u.threads = s'.threads ∧
        (∀ g ∈ (u.die d).signals, ∀ w ∈ g.2.waiters, w.rq.src ≠ t))) ∧
    ((s.die d).swapping = none →
      (∀ v t, pk.body = .mgmt (.bindAsk v t) →
        let k := s'.pkg p
        let key := q * 4096 + t.toNat
        let ok := k.central == some p && !k.bindings.contains key
        ∃ u r, exec (.mgmtPacket pk) s = .next u ∧ u.net = s'.net ++ [r] ∧ r.body = .mgmt (.bindAnswer v t ok) ∧ r.dst = pk.src ∧
          (u.pkg p).bindings = if ok then k.bindings ++ [key] else k.bindings) ∧
      (∀ v t, pk.body = .mgmt (.unbound v t) → ∃ u, exec (.mgmtPacket pk) s = .next u ∧ u.net = s'.net ∧
        ∀ b, b ∈ (u.pkg p).bindings ↔ b ∈ (s'.pkg p).bindings ∧ b ≠ q * 4096 + t.toNat) ∧
      (∀ count half, pk.body = .mgmt (.tick count half) → ∃ u, exec (.mgmtPacket pk) s = .next u ∧ u.net = s'.net ∧ u.dies = s'.dies ∧
        (u.pkg p).tick = if (s'.pkg p).joined then (s'.pkg p).tick else max (s'.pkg p).tick (count.toNat + half.toNat)) ∧
      (∀ n, pk.body = .mgmt (.hold n) → n.toNat = p → ∃ u, exec (.mgmtPacket pk) s = .next u ∧ (u.pkg p).held = true ∧
        ∀ i j, i < 8 → j < 4 → (u.port (p * 8 + i) j).st ≠ .up ∧ (u.port (p * 8 + i) j).st ≠ .training) ∧
      (∀ r, pk.body = .mgmt (.register r) → (s'.pkg p).roster = [] → (s'.pkg p).mapVersion = 0 → ∃ u, exec (.mgmtPacket pk) s = .next u ∧
        (u.pkg p).roster = [r] ∧ (u.pkg p).mapDue = true ∧ (u.pkg p).central = if r.lead then some r.pkg.toNat else none))

/-- The central station and registration (R374, R539, R540, R542 to R544): once every package has registered or the window has passed it issues
map version 1, later each map due has the next version, and each goes to every registered package; it sends its tick count each second; a lead
candidate that finds its station lost takes over above every version; a package with a port up registers with every lead candidate in reach.
Model's choices: logs 25, 51. -/
def Obligations.CentralStation : Prop :=
  ∀ (s : State) (pkg : BitVec 8),
    let p := pkg.toNat
    let k := s.pkg p
    let issues (c : Instr) (version : BitVec 32) : Prop := ∃ u, exec c s = .next u ∧ (u.pkg p).mapVersion = version ∧ (u.pkg p).mapDue = false ∧
      (u.pkg p).central = some p ∧ u.threads = s.threads ∧ SameBytes s u ∧
      (∀ r ∈ (u.pkg p).roster, ∃ m ∈ u.net, m.body = .map ⟨version, (u.pkg p).roster⟩ ∧ m.dst = r.pkg.toNat * 8 ∧ m.vc = 6) ∧
      ∃ r ∈ (u.pkg p).roster, r.pkg = pkg
    (k.phase = .run → k.central = some p →
      (k.mapVersion = 0 → s.joinEnds p = true → issues (.joinWindowExpire pkg) 1) ∧
      (k.mapVersion ≠ 0 → k.mapDue = true → (s.die (p * 8)).swapping = none → issues (.mapSend pkg) (k.mapVersion + 1)) ∧
      (k.mapVersion ≠ 0 → k.lastAlign + 100000000 ≤ k.tick → ∃ u, exec (.tickAlign pkg) s = .next u ∧ (u.pkg p).lastAlign = k.tick ∧ u.dies = s.dies ∧
        ∀ r ∈ k.roster, r.pkg ≠ pkg → ∃ m ∈ u.net, m.body = .mgmt (.tick (BitVec.ofNat 64 k.tick) 0) ∧ m.dst = r.pkg.toNat * 8)) ∧
    (∀ x heads, k.phase = .run → (s.die (p * 8)).st = .inService → k.lead = true → k.central = some x → x ≠ p → s.dieUp (x * 8) = false →
      heads = (s.reach (p * 8)).filter (fun n => dieNo n == 0 && s.dieUp n) → (∀ n ∈ heads, (s.pkg (n / 8)).lead = true → p ≤ n / 8) →
      ∃ top, (∀ n ∈ heads, (s.pkg (n / 8)).mapVersion.toNat ≤ top ∧ (s.die n).map.version.toNat ≤ top) ∧
        issues (.centralStationTakeover pkg) (BitVec.ofNat 32 top + 1)) ∧
    (k.phase = .run → (s.die (p * 8)).st = .inService → (s.registration p).ports ≠ [] →
      (k.lead = false → ∃ u, exec (.registration pkg) s = .next u ∧ u.pkgs = s.pkgs ∧ u.dies = s.dies ∧
        ∀ n ∈ s.reach (p * 8), n % 8 = 0 → n / 8 ≠ p → n < 2048 → (s.pkg (n / 8)).lead = true →
          ∃ m ∈ u.net, m.body = .mgmt (.register (s.registration p)) ∧ m.dst = n ∧ m.vc = 6) ∧
      (k.lead = true → k.roster = [] → k.mapVersion = 0 → ∃ u, exec (.registration pkg) s = .next u ∧ (u.pkg p).roster = [s.registration p] ∧
        (u.pkg p).central = some p))

/-! ### Links -/

/-- Training and retraining (R345 to R351, R356): a port whose usable lanes lock on the right far end comes up with them, its credits frozen until both
ends have reported; the wrong far end is refused before LOCK is tried; shorts fence; a failed attempt waits its time; a retry begins when due; a port that is up and loses its
lock, or meets a SEQ NAKed 8 times or more than 64 replays within a millisecond, trains again and keeps what is unacknowledged.
Model's choices: logs 13, 74. -/
def Obligations.PortsTrain : Prop :=
  ∀ (s : State) (port : BitVec 13) (obs : TrainObs),
    let d := port.toNat / 4
    let q := port.toNat % 4
    let x := s.port d q
    s.dieUp d = true → s.neverTrains (d / 8) (d % 8) q = false →
    let lane (i : Nat) : LaneObs := obs.lanes.getD i .isOpen
    let fenced (i : Nat) : Bool := x.fenced.getLsbD i || lane i == .short
    let usable (i : Nat) : Bool := !fenced i && lane i == .farEnd && obs.passed.getLsbD i
    let w := ((List.range 4).filter usable).length
    let after (c : Instr) (f : Port → Prop) : Prop := ∃ u, exec c s = .next u ∧ f (u.port d q) ∧ u.threads = s.threads ∧ SameBytes s u
    (x.st = .training →
      (0 < w → obs.lockOk = true → s.positionOk d q obs.far = true → after (.trainingAttempt port obs) (fun y =>
        y.st = .up ∧ y.width = w ∧ y.trained = w ∧ y.far = some obs.far ∧ y.attempts = 0 ∧ y.frozen = true ∧ ∀ i, i < 4 → y.usable.getLsbD i = usable i)) ∧
      (0 < w → s.positionOk d q obs.far = false → after (.trainingAttempt port obs) (fun y =>
        y.st = .refused ∧ y.far = none ∧ y.width = 0)) ∧
      ((∀ i, i < 4 → fenced i = true) → after (.trainingAttempt port obs) (fun y => y.st = .fenced ∧ y.fenced = 15 ∧ y.far = none)) ∧
      (w = 0 ∧ (∃ i, i < 4 ∧ fenced i = false ∧ lane i = .farEnd) ∨ (0 < w ∧ s.positionOk d q obs.far = true ∧ obs.lockOk = false) → after (.trainingAttempt port obs) (fun y =>
        y.st = .dark ∧ y.attempts = x.attempts + 1 ∧
        y.retryAt = some ((s.pkg (d / 8)).tick + if x.attempts + 1 < 3 then 1000000 else 1000000000)))) ∧
    (∀ t, x.st = .dark → x.retryAt = some t → t ≤ (s.pkg (d / 8)).tick → after (.trainingRetryTimer port) (fun y => y = { x with st := .training, retryAt := none })) ∧
    (x.st = .up →
      let retrains (y : Port) : Prop := y.st = .training ∧ y.retrains = x.retrains + 1 ∧ y.replay = x.replay ∧ y.far = x.far ∧ y.frozen = true
      after (.cancellerLockLost port) retrains ∧ (8 ≤ x.nakCount → after (.linkRetrainTrigger port) retrains) ∧
      (x.nakCount < 8 → x.replayTicks.length ≤ 64 → exec (.linkRetrainTrigger port) s = .next s))

/-- Flits and their replay (R352 to R355): the LCW's fields; a flit with a SEQ is kept until it is acknowledged, at most 256, and then only IDLE flits
leave; one that is uncorrectable or fails its check is NAKed and changes nothing else; the flit that follows the last good one is accepted; others are
discarded; a NAK resends every flit after its ACKSEQ, in order and with its SEQ.
Model's choices: logs 38, 97. -/
def Obligations.FlitsAndReplay : Prop :=
  (∀ f : Flit,
    let w := leNat ((flitOf f).take 8)
    bits w 60 4 = (match f.body with | .idle => 2 | .data _ => 1 | _ => 3) ∧ bits w 48 12 = f.seq.toNat ∧ bits w 36 12 = f.ack.toNat ∧
    bit w 35 = f.nak ∧ bit w 34 = f.esc.isSome ∧ (∀ i, i < 7 → bits w (3 * i) 3 = f.credits.getD i 0 % 8)) ∧
  ∀ (s : State) (port : BitVec 13) (lanes : List (List (BitVec 10))) (ackseq : BitVec 12),
    let d := port.toNat / 4
    let q := port.toNat % 4
    let x := s.port d q
    s.dieUp d = true → x.st = .up →
    let sent := s.farSends d q
    let t := (sent.map (·.2)).getD s
    let code := codeword (t.port d q) lanes
    (decodeFlit code = none → exec (.flitReceived port lanes) s = .next (t.modPort d q (fun x => { x with nakDue := true, discarding := true }))) ∧
    (∀ f, sent.map (·.1) = some f → decodeFlit code = some (flitOf f) →
      ∃ u, exec (.flitReceived port lanes) s = .next u ∧ Kept s u ∧
        (f.body ≠ .idle → f.seq ≠ (t.port d q).rxSeq + 1 → u = t) ∧
        (f.body = .idle → (t.port d q).discarding = true → u = t) ∧
        (f.body ≠ .idle → f.seq = (t.port d q).rxSeq + 1 → (u.port d q).rxSeq = f.seq ∧ (u.port d q).discarding = false)) ∧
    (∀ pre f post, x.replay = pre ++ f :: post → f.seq = ackseq → (∀ e ∈ pre, e.seq ≠ ackseq) →
      ∃ u, exec (.nakReceived port ackseq) s = .next u ∧ (u.port d q).replay = post ∧ (u.port d q).resend = post ∧
        (u.port d q).replays = x.replays + 1 ∧ Kept s u) ∧
    (∀ f r, x.resend = f :: r → ∃ u, s.transmit d q = some ({ f with ack := x.rxSeq, nak := x.nakDue }, u) ∧ (u.port d q).resend = r) ∧
    (x.resend = [] → 256 ≤ x.replay.length → ∃ f u, s.transmit d q = some (f, u) ∧ f.body = .idle) ∧
    (∀ f u, x.resend = [] → s.transmit d q = some (f, u) → f.body ≠ .idle →
      f.seq = x.txSeq + 1 ∧ f.ack = x.rxSeq ∧ (u.port d q).txSeq = f.seq ∧ (u.port d q).replay = x.replay ++ [f])

/-- Credits, width steps and junctions (R363, R365 to R368, R418, R421): after CREDIT_SYNC, and on its quiet channels after an audit, the sender holds
the receiver's counts less what it sends again; counts that agree leave no record; a width step that is due applies at once, a later one at its SEQ, and
this end's own names the SEQ of its flit; a junction keeps its last eight beats, counts each replay, and its sixteenth within a millisecond fences it; a
die has no fourth junction.
Model's choices: logs 37, 96. -/
def Obligations.CreditsAndJunctions : Prop :=
  ∀ (s : State) (port : BitVec 13) (rep : CreditReport) (die : BitVec 11) (beat : JBeat) (w : Nat) (seq : BitVec 12),
    let d := port.toNat / 4
    let q := port.toNat % 4
    let x := s.port d q
    let now := (s.pkg (d / 8)).tick
    let adopted (y : Port) (vc : Nat) : Prop := y.credits.getD vc 0 = min (if vc = 6 then 64 else 1024) (rep.free.getD vc 0) - sharedLater rep y vc ∧
      ∀ h, (vc, h) ∈ y.esc ↔ (vc, h) ∈ rep.esc ∨ (vc, h) ∈ escLater rep y
    (s.dieUp d = true → x.st = .up →
      (x.frozen = true → x.farSync = false → ∃ u, exec (.creditSync port rep) s = .next u ∧ (∀ vc, vc < 7 → adopted (u.port d q) vc) ∧ Kept s u) ∧
      (x.frozen = false → x.replay = [] → x.txRest = [] → x.rxPart = [] → (∃ vc, vc < 7 ∧ tget x.quiet vc 0 + 1000 ≤ now) →
        ∃ u, exec (.creditAudit port rep) s = .next u ∧ (∀ vc, vc < 7 → tget x.quiet vc 0 + 1000 ≤ now → adopted (u.port d q) vc) ∧ Kept s u) ∧
      (∀ vc, reported rep x vc = x.credits.getD vc 0 → sameEsc vc (reportedEsc rep x vc) x.esc = true → s.auditVc d q rep vc = s) ∧
      (1 ≤ w → w ≤ 4 →
        let y := (s.receiveCtrl d q isWidthCtrl).port d q
        let to_ := min y.trained (max (s.pkg (d / 8)).minWidth (min w y.want))
        to_ ≠ y.width → ∃ u, exec (.widthStep port w seq) s = .next u ∧ Kept s u ∧ (u.port d q).frozen = true ∧
          (if (y.rxSeq - seq).msb then (u.port d q).width = y.width ∧ (u.port d q).widthStep = some (w, seq)
           else (u.port d q).width = to_ ∧ (u.port d q).widthStep = none)) ∧
      (∀ v r, x.resend = [] → x.replay.length < 256 → x.ctrlQ = .width w v :: r →
        ∃ f u, s.transmit d q = some (f, u) ∧ f.body = .ctrl (.width w f.seq) ∧ (u.port d q).ownStep = some (w, f.seq) ∧ (u.port d q).frozen = true)) ∧
    (beat.j = 3 → exec (.junctionBeatNak die beat) s = .fault .noSuchUnit) ∧
    (beat.j ≠ 3 → beatGood beat = true → exec (.junctionBeatNak die beat) s = .next s) ∧
    (beat.j ≠ 3 → beatGood beat = false → s.dieUp die.toNat = true → (s.junction die.toNat beat.j.toNat).fence = .none →
      let y := s.junction die.toNat beat.j.toNat
      let now := (s.pkg (die.toNat / 8)).tick
      let recent := (y.replayTicks.filter (fun t => decide (now < t + 100000))).length
      ∃ u, exec (.junctionBeatNak die beat) s = .next u ∧ (u.junction die.toNat beat.j.toNat).replays = y.replays + 1 ∧
        (u.junction die.toNat beat.j.toNat).fence = (if recent < 15 then .none else .replays) ∧ Kept s u) ∧
    (∀ n j r a, (s.junction n j).beats.length ≤ 8 → ((s.crossJunction n j r a).junction n j).beats.length ≤ 8)

/-! ### Rates, power and heat -/

/-- Ring monitors, the governor's tick and rate events (R42, R46 to R52, R56, R61, R460, R543): what a measurement leaves, 1 µs
after the last, staleness after 10 µs, the reference
count (one tick in a thousand added or withheld while it drifts), the tick each die's energy slice counts (R460), the tokens credited up to twice a tick's credit, less what pays for beats of work in progress,
a shortfall of more than 1 µs counted once a dip, an undervoltage recorded and its die reset.
Model's choices: logs 13, 33. -/
def Obligations.RatesAndTicks : Prop :=
  ∀ (s : State) (die : BitVec 11) (m : BitVec 3) (rate : BitVec 16) (temp : BitVec 8) (pkg : BitVec 8) (mv us : Nat),
    let d := die.toNat
    let p := pkg.toNat
    let r := s.monitor d m.toNat
    let k := s.pkg p
    (s.dieUp d = true →
      (r.last + 100 ≤ (s.pkg (d / 8)).tick → ∃ u, exec (.monitorMeasure die m rate temp) s = .next u ∧ Kept s u ∧ u.monitor d m.toNat =
        ⟨if rate.toNat < r.rateMin.toNat then rate else r.rateMin, rate, temp, false, (s.pkg (d / 8)).tick⟩) ∧
      (r.last + 1000 ≤ (s.pkg (d / 8)).tick → ∃ u, exec (.monitorStale die m) s = .next u ∧ Kept s u ∧ u.monitor d m.toNat = { r with stale := true }) ∧
      (∀ t, (s.pkg (d / 8)).fixedRate ≠ 0 → s.liveRate d < (s.pkg (d / 8)).fixedRate → (s.die d).belowSince = some t →
        ∃ u, exec (.rateShortfall die) s = .next u ∧ Kept s u ∧ (u.die d).shortfalls.toNat =
          if (s.die d).dipCounted = false ∧ t + 101 ≤ (s.pkg (d / 8)).tick then min ((s.die d).shortfalls.toNat + 1) 65535
          else (s.die d).shortfalls.toNat) ∧
      ((s.pkg (d / 8)).fixedRate ≤ s.liveRate d → ∃ u, exec (.rateShortfall die) s = .next u ∧ Kept s u ∧
        (u.die d).shortfalls = (s.die d).shortfalls ∧ (u.die d).belowSince = none) ∧
      (mv < 500 → 1 < us → (s.die d).subst.st = .on → ∃ u, exec (.coreUndervoltage die mv us) s = .next u ∧ (fltCoreUv, [d, mv, us]) ∈ (u.die d).otherFaults ∧
        (u.die d).epoch = (s.die d).epoch + 1 ∧ (u.die d).st = .resetting)) ∧
    (k.phase ≠ .off → ∃ u, exec (.governorTick pkg) s = .next u ∧ Kept s u ∧
      (∀ i, i < 8 → (u.die (p * 8 + i)).slice.num = (s.die (p * 8 + i)).slice.num + 1) ∧
      (u.pkg p).tick = (if k.driftCount + 1 < 1000 then k.tick + 1 else if 0 < k.drift then k.tick + 2 else if k.drift < 0 then k.tick else k.tick + 1) ∧
      ∀ i l, i < 8 → s.dieUp (p * 8 + i) = true → (s.die (p * 8 + i)).limit.isSome = true → rateLimit k.fixedRate (s.die (p * 8 + i)) = some l →
        (u.die (p * 8 + i)).limit = some l ∧ ∀ c, c < 140 →
          let bank := min (tget (s.die (p * 8 + i)).banks c 0 + creditOf c l) (2 * creditOf c l)
          tget (u.die (p * 8 + i)).banks c 0 = bank - min (tget (s.die (p * 8 + i)).debt c 0) (bank / 32768) * 32768)

/-- Substations and slews (R41, R53, R423, R425 to R432): the fused table's voltages and rates; a start, d × 250 µs after power-good for die d
(R533), a checkpoint passed 250 µs times its number
after the start, the eighth passed, a short before and at the third attempt, a retry after 100 ms, an overcurrent, a voltage command clipped to the
ceiling with its safe rate, and a slew that settles when the output has moved at 5 mV/µs and stood for 1 µs.
Model's choices: logs 13, 82. -/
def Obligations.SubstationsAndVoltage : Prop :=
  (∀ n i : Nat, i < 16 → 550 ≤ opVolt n i ∧ opVolt n i ≤ 900 ∧ minRate (opVolt n i) ≤ opRate n i ∧ 1843 ≤ opRate n i ∧ fuseEntry n i < 2 ^ 23 ∧
    (i < 15 → opVolt n i < opVolt n (i + 1))) ∧
  ∀ (s : State) (die : BitVec 11) (op : BitVec 4) (mv ocUs amps us : Nat),
    let d := die.toNat
    let x := s.die d
    let b := x.subst
    let now := (s.pkg (d / 8)).tick
    let leaves (c : Instr) (f : Subst → Prop) : Prop := ∃ u, exec c s = .next u ∧ Kept s u ∧ f (u.die d).subst
    let ramps (y : Subst) : Prop := y = { ({} : Subst) with st := .ramping, attempts := b.attempts + 1, since := now }
    let due := b.since + (b.checkpoint + 1) * 25000
    let v := opVolt d b.targetOp
    let settles := b.since + ((b.mv - v + (v - b.mv) - 5 + 4) / 5 + 1) * 100
    ((s.pkg (d / 8)).phase ≠ .off → (s.pkg (d / 8)).phase ≠ .beacon →
      (b.st = .off → d % 8 * 25000 ≤ now → leaves (.substationStart die) ramps) ∧
      (b.st = .shutDown → b.since + 10000000 ≤ now → leaves (.softStartRetry die) ramps) ∧
      (b.st = .ramping → ocUs < 20 → now < due → exec (.softStartCheckpoint die mv ocUs) s = .next s) ∧
      (b.st = .ramping → opVolt d 0 * (b.checkpoint + 1) ≤ 16 * mv → ocUs < 20 → due ≤ now →
        (b.checkpoint < 7 → leaves (.softStartCheckpoint die mv ocUs) (fun y => y = { b with checkpoint := b.checkpoint + 1, mv := mv })) ∧
        (7 ≤ b.checkpoint → leaves (.softStartCheckpoint die mv ocUs) (fun y => y.st = .on ∧ y.mv = opVolt d 0))) ∧
      (b.st = .ramping → (16 * mv < opVolt d 0 * (b.checkpoint + 1) ∧ due ≤ now) ∨ 20 ≤ ocUs →
        leaves (.softStartCheckpoint die mv ocUs) (fun y => y.mv = 0 ∧ y.st = if 3 ≤ b.attempts then .latchedOff else .shutDown)) ∧
      (s.dieUp d = false → b.st = .on → 200 ≤ amps → 20 ≤ us → ∃ u, exec (.substationOvercurrent die amps us) s = .next u ∧ Kept s u ∧
        (u.die d).epoch = x.epoch + 1 ∧ (u.die d).subst.st = .off)) ∧
    (s.dieUp d = true → b.st = .on →
      (200 ≤ amps → 20 ≤ us → ∃ u, exec (.substationOvercurrent die amps us) s = .next u ∧ (u.die d).st = .resetting ∧
        (u.die d).epoch = x.epoch + 1 ∧ (u.die d).subst.st = .off) ∧
      (∃ u, exec (.voltageCommand die op) s = .next u ∧ Kept s u ∧ (u.die d).subst =
        { b with mv := presentMv d b now, targetOp := min op.toNat x.ceiling, since := now, slewing := true } ∧
        (u.die d).safeRate = some (safeRateFor d (min (presentMv d b now) (opVolt d (min op.toNat x.ceiling))))) ∧
      (b.slewing = true → now < settles → exec (.slewSettled die mv) s = .next s) ∧
      (b.slewing = true → settles ≤ now → mv ≤ v + 5 → v ≤ mv + 5 → ∃ u, exec (.slewSettled die mv) s = .next u ∧ Kept s u ∧
        (u.die d).subst = { b with slewing := false, mv := v } ∧ (u.die d).safeRate = none))

/-- The power budget (R433, R434, R437): whatever floors, demands, hints and order, the grants of the 24 domains never exceed the cap less 30 W; and after a
1 ms boundary, which comes no sooner, the cap in force is the lower of the two caps and the dies' grants keep within it (no core
of the package swapping, R559). -/
def Obligations.GrantsWithinCap : Prop :=
  (∀ (cap : Nat) (floors demands hinted order : List Nat), (grantsFor cap floors demands hinted order).sum ≤ (cap - 30) * 10) ∧
  (∀ (s : State) (pkg : BitVec 8) (proj : PowerProj), (s.pkg pkg.toNat).phase = .run →
    (s.pkg pkg.toNat).lastInterval + 100000 ≤ (s.pkg pkg.toNat).tick → (∀ i, i < 8 → (s.die (pkg.toNat * 8 + i)).swapping = none) →
    let k := s.pkg pkg.toNat
    ∃ u, exec (.powerInterval pkg proj) s = .next u ∧ u.threads = s.threads ∧ (u.pkg pkg.toNat).capForce = min k.hostCap k.trayCap ∧
      (u.pkg pkg.toNat).proj = some proj ∧ (u.pkg pkg.toNat).lastInterval = k.tick ∧
      (((List.range 8).map (fun i => (u.die (pkg.toNat * 8 + i)).grants.sum)).sum ≤ (min k.hostCap k.trayCap - 30) * 10))

/-- Measures, the hard limit, watermarks and energy (R424, R445, R452, R453, R460, R461): what they leave in the package and its dies, 1 µs after
the last measure or comparison, 1 ms after the last slice.
Model's choices: logs 13, 30. -/
def Obligations.PowerMeasuresAndLimits : Prop :=
  ∀ (s : State) (pkg : BitVec 8) (input : Nat) (doms : List Nat) (n : BitVec 4),
    let p := pkg.toNat
    let k := s.pkg p
    k.phase = .run →
    (k.lastMeasure + 100 ≤ k.tick → ∃ u, exec (.powerMeasure pkg input doms) s = .next u ∧ Kept s u ∧ (u.pkg p).inputNow = input ∧ (u.pkg p).inputSum = k.inputSum + input ∧
      (u.pkg p).inputNum = k.inputNum + 1 ∧ ∀ i j, i < 8 → j < 3 → (u.die (p * 8 + i)).powerNow.getD j 0 = doms.getD (3 * i + j) 0) ∧
    (k.hardThrottle = false → k.inputWin.length = 10 → 150000 < k.inputWin.sum → ∃ u, exec (.hardLimitTrip pkg) s = .next u ∧ Kept s u ∧
      (u.pkg p).hardThrottle = true ∧ (u.pkg p).freightGated = true ∧ ∀ i, i < 8 → (u.die (p * 8 + i)).paceHard = true) ∧
    (∀ t, k.hardThrottle = true → k.calmSince = some t → t + 10000 ≤ k.tick → ∃ u, exec (.hardThrottleRelease pkg) s = .next u ∧ Kept s u ∧
      (u.pkg p).hardThrottle = false ∧ ∀ i, i < 8 → (u.die (p * 8 + i)).paceHard = false) ∧
    (let w := tget k.watermarks n.toNat {}
     let level := s.level p w
     w.enabled = true → w.armed = true → w.last + 100 ≤ k.tick → (if w.falling then level < w.mark.toNat else w.mark.toNat < level) →
      ∃ u, exec (.watermarkCompare pkg n) s = .next u ∧ Kept s u ∧
        let y := tget (u.pkg p).watermarks n.toNat {}
        y.armed = false ∧ y.count.toNat = min (w.count.toNat + 1) 255 ∧ y.level.toNat = min level 65535) ∧
    (k.lastSlice + 100000 ≤ k.tick → ∃ u, exec (.energySlice pkg) s = .next u ∧ Kept s u ∧
      (∀ i, i < 8 → (u.die (p * 8 + i)).activity = [] ∧ (u.die (p * 8 + i)).slice = {}) ∧
      ((∀ i, i < 8 → (s.die (p * 8 + i)).activity = [] ∧ (sliceMv (s.die (p * 8 + i))).1 = 0) → k.energyUnFj < 1000000000 →
        (u.pkg p).energyUn = k.energyUn + 30000 ∧ (u.pkg p).energyUnFj = k.energyUnFj))

/-- Heat and hints (R448 to R450, R455 to R458): the thermal limits of a die, its stack and its package; the windows that HINT_PHASE opens and closes
on the dies of its mask (but for one out of service, R458), their start and end, the voltage command of a window at its start less the slew time, and SET_OP's preferences.
Model's choices: logs 29, 102. -/
def Obligations.HeatAndHints : Prop :=
  (∀ (s : State) (die : BitVec 11) (m : BitVec 3) (temp : BitVec 8),
    let d := die.toNat
    let p := d / 8
    let x := s.die d
    let now := (s.pkg p).tick
    (∀ h, hottest x = some h → s.dieUp d = true → x.paceHot = false → 145 ≤ h → ∃ u, exec (.thermalHard die) s = .next u ∧ Kept s u ∧ (u.die d).paceHot = true) ∧
    (∀ t, x.coolSince = some t → s.dieUp d = true → x.paceHot = true → t + 10000 ≤ now →
      exec (.thermalHardRelease die) s = .next (s.setDie d { x with paceHot := false })) ∧
    ((s.pkg p).phase = .run →
      (∀ t, tget? x.tripSince m.toNat = some t → t + 10000 ≤ now → ∃ u, exec (.thermalTrip die m) s = .next u ∧ Kept s u ∧
        (u.pkg p).phase = .beacon ∧ (u.pkg p).beacon = 0x11 ∧ ∀ i, i < 8 → (u.die (p * 8 + i)).st = .outOfService ∧ (u.die (p * 8 + i)).subst.st = .shutDown) ∧
      (temp.toNat < 145 → x.stackLast + 100 ≤ now → ∃ u, exec (.stackTempReport die temp) s = .next u ∧ Kept s u ∧ (u.die d).stackTemp = temp ∧
        (u.die d).refresh2x = decide (125 < temp.toNat) ∧ (u.die d).bwHeat = decide (135 < temp.toNat)) ∧
      (∀ t, 145 ≤ temp.toNat → x.stackHotSince = some t → t + 10000 ≤ now → x.stackLast + 100 ≤ now → ∃ u, exec (.stackTempReport die temp) s = .next u ∧
        (u.pkg p).phase = .beacon ∧ (u.pkg p).beacon = 0x12))) ∧
  (∀ (s : State) (cmd : CmdRef) (k : RCmd), Memory.wf s.hostMem = true →
    let f := bits (k.word 2) 0 2
    (Starts s cmd k 10 → f ≠ 3 → ∃ u start, exec (.hintPhase cmd) s = .next u ∧ Completed s u cmd k 0 0 ∧ u.threads = s.threads ∧
      ∀ d ∈ k.dies, (s.die (cmd.p * 8 + d)).st ≠ .outOfService →
        ∃ led, ⟨cmd.v, k.cls, k.deadline, f, start, start + bits (k.word 4) 0 32 * 100, false, led⟩ ∈ (u.die (cmd.p * 8 + d)).hints) ∧
    (Starts s cmd k 10 → f = 3 → ∃ u, exec (.hintPhaseEnd cmd) s = .next u ∧ Completed s u cmd k 0 0 ∧ u.threads = s.threads ∧
      ∀ d ∈ k.dies, ∀ h ∈ (u.die (cmd.p * 8 + d)).hints, h.vi ≠ cmd.v) ∧
    (Starts s cmd k 11 → ∃ u, exec (.setOp cmd) s = .next u ∧ Completed s u cmd k 0 0 ∧ u.threads = s.threads ∧
      ∀ d ∈ k.dies, prefOf (u.die (cmd.p * 8 + d)) cmd.v f = bits (k.word 2) 4 4)) ∧
  (∀ (s : State) (die : BitVec 11) (h : Hint),
    let d := die.toNat
    let now := (s.pkg (d / 8)).tick
    s.dieUp d = true → (s.die d).hints = [h] →
    (h.begun = false → h.start ≤ now → ∃ u, exec (.hintWindowStart die) s = .next u ∧ u.threads = s.threads ∧
      (u.die d).hints = [{ h with begun := true }] ∧ (u.die d).governs = some { h with begun := true }) ∧
    (h.begun = true → h.stop ≤ now → ∃ u, exec (.hintWindowEnd die) s = .next u ∧ u.threads = s.threads ∧
      (u.die d).hints = [] ∧ (u.die d).governs = none) ∧
    (h.begun = false → h.led = false → h.start ≤ now + s.slewTicks d (s.targetIn d (some h)) → (s.die d).subst.st = .on →
      let u := s.leadHints d
      (u.die d).hints = [{ h with led := true }] ∧ u.threads = s.threads ∧ u.mem = s.mem ∧
      (s.targetIn d (some h) ≠ (s.die d).subst.targetOp → (u.die d).subst.targetOp = s.targetIn d (some h) ∧ (u.die d).subst.slewing = true)))

/-- DRAM and the books (R153, R413, R418 to R421, R440, R589): a refresh closes its row, an idle pseudo-channel powers down, a scrub records an uncorrectable
word; a ledger that agrees with its ground truth is left, one that does not is reloaded and recorded; a scan notes its time.
Model's choices: logs 58, 96. -/
def Obligations.DramAndAudits : Prop :=
  ∀ (s : State) (die : BitVec 11) (pc : BitVec 5) (bank : Nat) (yard : Bool) (off : BitVec 37) (led : LedgerUnit) (l : BitVec 4),
    let d := die.toNat
    let x := s.die d
    let now := (s.pkg (d / 8)).tick
    ((s.pkg (d / 8)).phase = .run →
      (∃ u, exec (.dramRefresh die pc bank) s = .next u ∧ Kept s u ∧ tget? (u.die d).openRow (pc.toNat * 1024 + bank % 1024) = none ∧
        (u.die d).refreshes = x.refreshes + 1) ∧
      (x.pdLever = true → x.pdown.contains pc.toNat = false → tget x.lastAccess pc.toNat 0 + 10 ≤ now →
        exec (.pseudoChannelPowerDown die pc) s = .next (s.setDie d { x with pdown := pc.toNat :: x.pdown }))) ∧
    (s.dieUp d = true →
      (let pa := b2n yard * 2 ^ 48 + d * 2 ^ 37 + off.toNat / 8 * 8
       paPopulated pa = true → s.poisonIn pa 8 = none →
        (∃ u, exec (.patrolScrub die yard off .clean) s = .next u ∧ Kept s u ∧ (u.die d).memFaults = x.memFaults) ∧
        (∃ u, exec (.patrolScrub die yard off .uncorrectable) s = .next u ∧ u.mem = s.mem ∧ u.threads = s.threads ∧ pa / 8 ∈ u.poison ∧
          (x.memFaults.length < 64 → (u.die d).memFaults.length = x.memFaults.length + 1))) ∧
      (s.inReset (d / 8) = false →
        let c := (unitPlace d led).1
        let n := (unitPlace d led).2.1
        let sub := (unitPlace d led).2.2
        let truth := s.freeTruth c n sub
        let last := tget? (s.cluster c).mismatch (n * 256 + sub)
        let audits (cmd : Instr) : Prop := ∃ u, exec cmd s = .next u ∧ Kept s u ∧ freeCount (u.cluster c) n sub = truth ∧
          tget? (u.cluster c).audited (n * 256 + sub) = some now ∧
          (x.ledgerFaults.length < 16 → (u.die d).ledgerFaults.length = x.ledgerFaults.length + if freeCount (s.cluster c) n sub = truth then 0 else 1)
        last = none → (∀ j vc, led ≠ .junction j vc) → audits (.hardwareLedgerAudit die led) ∧
          ((tget? (s.cluster c).audited (n * 256 + sub)).getD x.upSince + 100000 ≤ now → audits (.forcedLedgerAudit die led))) ∧
      (∀ (j : BitVec 2) (vc : BitVec 3), s.inReset (d / 8) = false → vc.toNat < 7 → s.jOpen d j.toNat = true →
        tget? (s.junction d j.toNat).mismatch vc.toNat = none →
        let adopts (cmd : Instr) : Prop := ∃ u, exec cmd s = .next u ∧ Kept s u ∧
          (u.junction d j.toNat).credits.getD vc.toNat 0 = (s.junctionTruth d j.toNat vc.toNat).1
        (s.junctionQuiet d j.toNat vc.toNat = true → adopts (.hardwareLedgerAudit die (.junction j vc))) ∧
        (s.junctionQuiet d j.toNat vc.toNat = false → exec (.hardwareLedgerAudit die (.junction j vc)) s = .next s) ∧
        ((tget? (s.cluster (d * 32)).audited (256 + j.toNat * 8 + vc.toNat)).getD x.upSince + 100000 ≤ now →
          adopts (.forcedLedgerAudit die (.junction j vc)))) ∧
      (l.toNat = 4 ∨ l.toNat = 5 → x.swapping = none → tget? x.shareAudit l.toNat = none → (∀ v, v < 32 → (s.share l.toNat d v).withdraw = 0) →
        s.inReset (d / 8) = false →
        ∃ u, exec (.shareLedgerAudit die l) s = .next u ∧ Kept s u ∧
          ∀ v, v < 32 → (u.share l.toNat d v).held = s.heldTruth l.toNat d v ∧ s.heldTruth l.toNat d v ≤ (u.share l.toNat d v).share) ∧
      (x.scanMs ≠ 0 → x.lastScan + x.scanMs * 100000 ≤ now → ∃ u, exec (.blockSectionScan die) s = .next u ∧ Kept s u ∧ (u.die d).lastScan = now))

/-! ### Engines -/

/-- The Shunter (R175, R185 to R200): SHUNT joins the commands in progress, or is refused for its descriptor; a cluster starts the row that is next,
and a row that has been read writes its sum, an empty or malformed row what the rules say; the records of a row are taken in the order of their
columns; a hub row's next segment is dispatched while a slot is free, and its partials are combined in order; the command completes when every row is
done and acknowledged. Model's choices: logs 55, 80, 88 to 92. -/
def Obligations.ShunterCommands : Prop :=
  (∀ (s : State) (cmd : CmdRef) (k : RCmd) (desc : List Word), Memory.wf s.hostMem = true → Starts s cmd k 5 →
    (s.readWords (.cluster ((cmd.p * 8 + k.dies.headD 0) * 32)) (s.vi cmd.p cmd.v).tenant cmd.v k.desc 8).1 = .inl desc →
    ((walkOf desc).refused = true → ∃ u, exec (.shunt cmd) s = .next u ∧ u.threads = s.threads ∧ Completed s u cmd k 3 (BitVec.ofNat 64 (3 * 2 ^ 60))) ∧
    ((walkOf desc).refused = false → ∃ u rec_, exec (.shunt cmd) s = .next u ∧ Kept s u ∧ (u.rcmd? cmd).map (·.work) = some .shunt ∧
      (u.pkg cmd.p).shCmds = (s.pkg cmd.p).shCmds ++ [rec_] ∧ rec_.c = cmd ∧ rec_.desc = desc ∧ rec_.dies = k.dies ∧ rec_.cls = k.cls ∧ rec_.started = [] ∧
      rec_.bad = 0)) ∧
  (∀ (s : State) (cl : BitVec 16) (k : ShCmd) (streak n p h : Nat),
    let c := cl.toNat
    s.dieUp (clDie c) = true → s.unitRuns (clDie c) (clNo c) = true → s.shuntPick c = some (k, streak) → s.rowOf c k = some p →
    s.shuntPort c k = some n → s.shCmd? k.c = some k → homeNo k c = some h →
    ∃ u v : State, exec (.shunterRowStart cl) s = .next u ∧ u = v.walkStart c k.c k.vi p .row ∧ (v.cluster c).shuntStreak = streak ∧ Kept s u ∧
      (u.shCmd? k.c).map (·.started) = some (tset k.started h (tget k.started h 0 + 1))) ∧
  (∀ (s : State) (c fuel : Nat) (q : ShCmd) (k : WalkWork),
    let w := walkOf q.desc
    let x := s.walkEnd c
    (s.cluster c).work = some k → s.shCmd? k.c = some q → k.out = [] → walkWaits (s.cluster c) = false →
    (∀ i g l acc, planOf w k = .cols i g l → l.length ≤ k.placed → termsOf k.got w g 0 none l = some acc → k.part = .row →
      s.walkGo c (fuel + 1) = x.rowOut c q w k.pos (acc.map (finalCode w i.degree))) ∧
    (∀ i g l acc home n j y, planOf w k = .cols i g l → l.length ≤ k.placed → termsOf k.got w g 0 none l = some acc → k.part = .seg home n j y →
      s.walkGo c (fuel + 1) = x.sendPartial c home q w k n acc) ∧
    (∀ i g l, planOf w k = .cols i g l → k.placed < l.length → pqOpen (s.cluster c) (k.placed % 16) q.cls = false →
      ∃ u, s.walkGo c (fuel + 2) = u ∧ (u.cluster c).work = some k ∧ (u.cluster c).pqWait = (s.cluster c).pqWait ++
        [(k.placed % 16, { who := .walk k.placed, tenant := q.tenant, cls := q.cls, deadline := q.deadline })]) ∧
    (planOf w k = .empty → s.walkGo c (fuel + 1) = if w.empty = 2 then x else
      x.rowOut c q w k.pos (List.replicate w.w (if w.empty = 1 then identityCode w else outCode w .zero))) ∧
    (∀ r, planOf w k = .bad r → k.part = .row → s.walkGo c (fuel + 1) = x.badRow k.c k.pos r) ∧
    (∀ i, planOf w k = .hub i → ∃ h, ((s.walkGo c (fuel + 1)).cluster c).hubs = (s.cluster c).hubs ++ [h] ∧ h.c = k.c ∧ h.pos = k.pos ∧ h.info = i ∧
      h.dispatched = 0 ∧ h.combined = 0 ∧ ((s.walkGo c (fuel + 1)).cluster c).work = none)) ∧
  (∀ (got : Tab (Option (List Byte))) (w : Walk) (row g n : Nat) (prev : Option Nat) (cs : List Nat), recsFrom got w row prev g n = .ok cs →
    cs.length = n ∧ cs.Pairwise (· ≤ ·) ∧ (∀ a ∈ cs, a < w.ncol ∧ ∀ b, prev = some b → b ≤ a) ∧
    ∀ i, i < n → ∃ b, walkGet got 0 (w.edges + 8 * (g + i)) 8 = some b ∧ leNat b / 2 ^ 32 = row ∧ cs[i]? = some (leNat b % 2 ^ 32)) ∧
  (∀ (s : State) (cl : BitVec 16) (k : ShCmd) (h : Hub) (streak : Nat),
    let c := cl.toNat
    s.dieUp (clDie c) = true → s.unitRuns (clDie c) (clNo c) = true → s.shuntPick c = some (k, streak) →
    (∀ r n, s.segOf c k = some (h, .run r) → s.shuntPort r k = some n →
      h.bad = none ∧ 512 * h.dispatched < h.info.degree ∧ h.dispatched < h.combined + hubSlots (walkOf k.desc) ∧
      exec (.hubSegmentDispatch cl) s = .next ((s.shuntNote c streak r n).segStart c r k h) ∧
      Kept s ((s.shuntNote c streak r n).segStart c r k h)) ∧
    (∀ n, s.segOf c k = some (h, .scan) → s.shuntPort c k = some n →
      (walkOf k.desc).format = 1 ∧ h.atSeg ≠ h.dispatched ∧
      exec (.hubSegmentDispatch cl) s = .next ((s.shuntNote c streak c n).walkStart c k.c k.vi h.pos (.scan h.info h.start)) ∧
      Kept s ((s.shuntNote c streak c n).walkStart c k.c k.vi h.pos (.scan h.info h.start)))) ∧
  (∀ (s : State) (cl : BitVec 16) (h : Hub) (k : ShCmd),
    let c := cl.toNat
    let w := walkOf k.desc
    let pa := s.slotPa c w h.combined
    let read := (s.chargeMem k.tenant pa h.size).ceFoundAt pa
    let vals := (chunks (elemBytes w) w.w (s.readPa pa h.size)).map (elOfPartial w)
    let acc := if h.combined = 0 then vals else (h.acc.zip vals).map (fun e => joinEl w e.1 e.2)
    let mine : Hub → Bool := fun g => g.c == h.c && g.pos == h.pos
    (s.cluster c).hubs.find? Hub.ready = some h → s.shCmd? h.c = some k → s.dieUp (clDie c) = true →
    (s.poisonIn pa h.size = none → 512 * (h.combined + 1) < h.info.degree → ∃ u, exec (.partialCombine cl) s = .next u ∧ Kept s u ∧
      (u.cluster c).hubs = (s.cluster c).hubs.map (fun g => if mine g then
        { g with combined := g.combined + 1, arrived := terase g.arrived g.combined, acc := acc } else g)) ∧
    (s.poisonIn pa h.size = none → h.info.degree ≤ 512 * (h.combined + 1) → ∃ u, exec (.partialCombine cl) s = .next u ∧ Kept s u ∧
      (u.cluster c).hubs = (s.cluster c).hubs.filter (fun g => !mine g) ∧
      u = (read.modCluster c (fun x => { x with hubs := x.hubs.filter (fun g => !mine g) })).rowOut c k w h.pos (acc.map (finalCode w h.info.degree))) ∧
    (∀ a, s.poisonIn pa h.size = some a → ∃ u, exec (.partialCombine cl) s = .next u ∧ u.mem = s.mem ∧ u.threads = s.threads ∧
      ∀ g ∈ (u.cluster c).hubs, mine g = true → ∃ m r, g.bad = some (m, r) ∧ m ≤ h.combined)) ∧
  (∀ (s : State) (cmd : CmdRef) (k : ShCmd) (q : RCmd), Memory.wf s.hostMem = true → (s.pkg cmd.p).phase = .run → s.rcmd? cmd = some q → q.result = none →
    (s.pkg cmd.p).shCmds.find? (fun k => k.c == cmd) = some k → allStarted k (walkOf k.desc) = true →
    (∀ e ∈ s.clusters, (∀ h ∈ e.2.hubs, h.c ≠ cmd) ∧ (∀ k, e.2.work = some k → k.c ≠ cmd)) →
    (∀ i, i < 8 → s.cmdOut (cmd.p * 8 + i) cmd = 0) →
    let outcome := if k.bad = 0 then 0 else if (walkOf k.desc).badrow || k.err then 2 else 1
    let first := k.first.getD (0, 0)
    ∃ u, exec (.shuntComplete cmd) s = .next u ∧ u.threads = s.threads ∧ Completed s u cmd q outcome
      (BitVec.ofNat 64 (outcome * 2 ^ 60 + first.2 * 2 ^ 56 + min k.bad (2 ^ 24 - 1) * 2 ^ 32 + first.1)))

/-- Matrix units (R229, R231 to R233, R236, R252, R255): MU_RUN is refused or joins the commands in progress; a free unit takes the next entry, which
is malformed, empty or in progress, alone or as a chained pair; a tile, or a row block of a chained pair, fills the bank that the array fills with the
sums of products of its operand panels, or with the pair's rows; the command completes when its entries are done and its writes acknowledged.
Model's choices: logs 9, 32, 33, 84. -/
def Obligations.MatrixCommands : Prop :=
  (∀ (s : State) (cmd : CmdRef) (k : RCmd), Memory.wf s.hostMem = true → Starts s cmd k 3 →
    let s0 := s.modCmd cmd (fun k => { k with started := true })
    let d := s.cmdDie cmd k
    let mask := bits (k.word 3) 56 4
    let unit : XUnit := .mu d (((List.range 4).find? (bit mask)).getD 0)
    let t := (s.vi cmd.p cmd.v).tenant
    let refused : Prop := ∃ u, exec (.muRun cmd) s = .next u ∧ u.threads = s.threads ∧ Completed s u cmd k 3 (BitVec.ofNat 64 (4 * 2 ^ 60))
    (mask = 0 → refused) ∧
    (∀ desc s1, mask ≠ 0 → s0.readWords unit t cmd.v k.desc 8 = (.inl desc, s1) → muRefused (muDescOf desc) = true → refused) ∧
    (∀ desc profs chains s1 s2 s3, mask ≠ 0 → s0.readWords unit t cmd.v k.desc 8 = (.inl desc, s1) → muRefused (muDescOf desc) = false →
      s1.readWords unit t cmd.v (muDescOf desc).profiles 8 = (.inl profs, s2) → s2.readChains unit t cmd.v profs [0, 1, 2, 3] = (.inl chains, s3) →
      (profsBad profs chains = true → refused) ∧
      (profsBad profs chains = false → ∃ u rec_, exec (.muRun cmd) s = .next u ∧ Kept s u ∧ (u.rcmd? cmd).map (·.work) = some .mu ∧
        (u.die d).muCmds = (s.die d).muCmds ++ [rec_] ∧ rec_.c = cmd ∧ rec_.desc = desc ∧ rec_.profiles = profs ∧ rec_.chains = chains ∧ rec_.mask = mask ∧
        rec_.next = 0 ∧ rec_.cls = k.cls ∧ rec_.deadline = k.deadline))) ∧
  (∀ (s s1 : State) (die : BitVec 11) (mu : BitVec 2) (k : MuCmd) (w : List Word),
    let d := die.toNat
    let m := mu.toNat
    let en := muEntryOf w
    s.dieUp d = true → s.takers d m = [k] →
    (s.modMu d m (fun x => { x with hold := tset x.hold k.cls k.c })).readWords (.mu d m) k.tenant k.vi ((muDescOf k.desc).table + 64 * k.next) 8 = (.inl w, s1) →
    en.chain = false →
    let taken := s1.modMuCmd d k.c (fun k' => { k' with next := k.next + 1 })
    (en.m = 0 ∨ en.n = 0 → exec (.muTakeEntry die mu) s = .next taken) ∧
    (∀ ps s2, en.m ≠ 0 → en.n ≠ 0 → taken.groupProfs (.mu d m) k k.next ((en.n + 127) / 128) = (.inl ps, s2) →
      (entryBad en (ps.map (muProf k)) ≠ 0 →
        exec (.muTakeEntry die mu) s = .next (s2.modMuCmd d k.c (fun k' => muBadEntry k' k.next (entryBad en (ps.map (muProf k)))))) ∧
      (entryBad en (ps.map (muProf k)) = 0 → ∃ u, exec (.muTakeEntry die mu) s = .next u ∧ Kept s u ∧
        tget? (u.mu d m).item k.cls = some { c := k.c, entry := k.next, w := w, w2 := none, ps := ps }))) ∧
  (∀ (s s1 s2 : State) (die : BitVec 11) (mu : BitVec 2) (k : MuCmd) (w : List Word),
    let d := die.toNat
    let m := mu.toNat
    let en := muEntryOf w
    let q := muDescOf k.desc
    s.dieUp d = true → s.takers d m = [k] →
    (s.modMu d m (fun x => { x with hold := tset x.hold k.cls k.c })).readWords (.mu d m) k.tenant k.vi (q.table + 64 * k.next) 8 = (.inl w, s1) →
    en.chain = true →
    (q.count ≤ k.next + 1 → exec (.muTakeEntry die mu) s = .next (s1.modMuCmd d k.c (fun k' =>
      if en.m = 0 ∨ en.n = 0 then { k' with next := k.next + 1 } else muBadEntry { k' with next := k.next + 1 } k.next 2))) ∧
    (∀ w2, k.next + 1 < q.count → s1.readWords (.mu d m) k.tenant k.vi (q.table + 64 * (k.next + 1)) 8 = (.inl w2, s2) →
      let fn := muEntryOf w2
      let taken := s2.modMuCmd d k.c (fun k' => { k' with next := k.next + 2 })
      (en.m = 0 ∨ en.n = 0 ∨ fn.n = 0 → exec (.muTakeEntry die mu) s = .next taken) ∧
      (∀ ps s3, en.m ≠ 0 → en.n ≠ 0 → fn.n ≠ 0 → taken.groupProfs (.mu d m) k (k.next + 1) 1 = (.inl ps, s3) →
        let r := pairBad en fn (muProf k (ps.headD 0))
        (r ≠ 0 → exec (.muTakeEntry die mu) s = .next (s3.modMuCmd d k.c (fun k' => muBadEntry k' k.next r))) ∧
        (r = 0 → ∃ u, exec (.muTakeEntry die mu) s = .next u ∧ Kept s u ∧
          tget? (u.mu d m).item k.cls = some { c := k.c, entry := k.next, w := w, w2 := some w2, ps := ps })))) ∧
  (∀ (s s1 s2 : State) (die : BitVec 11) (mu : BitVec 2) (cand : MuCand) (streak cls : Nat) (k : MuCmd) (it : MuItem) (isInt : Bool) (num den : Nat)
      (a b : List (List Val)),
    let d := die.toNat
    let m := mu.toNat
    let v := s.grantTile d m cand streak
    let en := muEntryOf it.w
    let r0 := 128 * it.tr
    let c0 := 128 * it.tc
    s.muNext d m = some (cand, streak) → cand.consist = false → v.muCmd? d cand.c = some k → (v.mu d m).item.find? (fun e => e.2.c == cand.c) = some (cls, it) →
    it.w2 = none → operandPair en.afmt en.bfmt = some (isInt, num, den) →
    v.panel (.mu d m) k.tenant k.vi en.afmt en.a en.lda (!en.atrans) r0 (min 128 (en.m - r0)) en.k en.ascale = (.inl a, s1) →
    s1.panel (.mu d m) k.tenant k.vi en.bfmt en.b en.ldb en.btrans c0 (min 128 (en.n - c0)) en.k en.bscale = (.inl b, s2) →
    ∃ u, exec (.muTileStart die mu) s = .next u ∧ Kept s u ∧
      (if (s.mu d m).fill1 then (u.mu d m).bank1 else (u.mu d m).bank0) =
        (a.map (fun x => b.map (fun y => if isInt then (dotI x y).1 else ((dotF x y).1.toNat : Int)))).flatten) ∧
  (∀ (s s1 s2 s3 s4 : State) (die : BitVec 11) (mu : BitVec 2) (cand : MuCand) (streak cls : Nat) (k : MuCmd) (it : MuItem) (w2 : List Word)
      (a kt val : List (List Val)) (masks : List (List Byte)),
    let d := die.toNat
    let m := mu.toNat
    let v := s.grantTile d m cand streak
    let q := muDescOf k.desc
    let en := muEntryOf it.w
    let fn := muEntryOf w2
    let r0 := 128 * it.tr
    let nr := min 128 (en.m - r0)
    let mb := 8 * ((en.n + 63) / 64)
    s.muNext d m = some (cand, streak) → cand.consist = false → v.muCmd? d cand.c = some k → (v.mu d m).item.find? (fun e => e.2.c == cand.c) = some (cls, it) →
    it.w2 = some w2 →
    v.panel (.mu d m) k.tenant k.vi en.afmt en.a en.lda (!en.atrans) r0 nr en.k en.ascale = (.inl a, s1) →
    s1.panel (.mu d m) k.tenant k.vi en.bfmt en.b en.ldb en.btrans 0 en.n en.k en.bscale = (.inl kt, s2) →
    s2.panel (.mu d m) k.tenant k.vi fn.bfmt fn.b fn.ldb fn.btrans 0 fn.n fn.k fn.bscale = (.inl val, s3) →
    s3.readRows (fun s i => if bit q.cfunc 1 then s.readBytes (.mu d m) k.tenant k.vi (en.c + i * mb) mb else (.inl [], s)) ((List.range nr).map (r0 + ·)) =
      (.inl masks, s4) →
    ∃ u, exec (.muTileStart die mu) s = .next u ∧ Kept s u ∧
      (if (s.mu d m).fill1 then (u.mu d m).bank1 else (u.mu d m).bank0) =
        ((a.zip masks).zipIdx.map (fun x => ((attnRow q (muRounding k (muProf k (it.ps.headD 0))) fn.bfmt (it.entry + 1) (r0 + x.2) en.n fn.n x.1.2 x.1.1 kt
          val).o.map (fun b => (b.toNat : Int))))).flatten) ∧
  (∀ (s : State) (cmd : CmdRef) (i : Nat) (k : MuCmd) (q : RCmd), Memory.wf s.hostMem = true → i < 8 →
    let d := cmd.p * 8 + i
    s.muCmd? d cmd = some k → (∀ j, j < i → s.muCmd? (cmd.p * 8 + j) cmd = none) → s.dieUp d = true → s.muDone d k = true → s.cmdOut d cmd = 0 →
    s.rcmd? cmd = some q → q.result = none → (muDescOf k.desc).status = 0 ∨ k.statusSent = true →
    ∃ u, exec (.muRunComplete cmd) s = .next u ∧ u.threads = s.threads ∧
      Completed s u cmd q (if k.err then 2 else if k.bad || k.flagged then 1 else 0) (muResult k) ∧ ∀ e ∈ (u.die d).muCmds, e.c ≠ cmd)

/-- The instruction of a Consist is done: the next one, or the next iteration. -/
def CsNext (k k' : CsCmd) : Prop :=
  if k.prog.length ≤ k.ip + 1 then k'.running = false ∧ k'.iter = k.iter + 1 ∧ k'.ip = 0 else k'.running = k.running ∧ k'.iter = k.iter ∧ k'.ip = k.ip + 1

/-- Consists (R270, R273 to R280, R282 to R284): CONSIST_RUN joins its unit; a CHAIN pass and a SINGLE iteration start; each instruction's effect on
the tile registers, the predicate plane, the counts and the slots, and the failure of its lowest element; and completion.
Model's choices: logs 9, 34, 85, 86. -/
def Obligations.ConsistCommands : Prop :=
  (∀ (s s1 s2 s3 : State) (cmd : CmdRef) (k : RCmd) (desc prog : List Word) (slots : List (List Word)), Starts s cmd k 4 →
    let d := s.cmdDie cmd k
    let m := bits (k.word 3) 56 2
    let unit : XUnit := .mu d m
    let t := (s.vi cmd.p cmd.v).tenant
    let r := runOf desc
    (∀ e ∈ (s.mu d m).csWait, e.c ≠ cmd) →
    (s.modCmd cmd (fun k => { k with started := true })).spanWords unit t cmd.v k.desc 8 = (.inl desc, s1) → runRefused r = false →
    s1.spanWords unit t cmd.v r.prog (if r.single then r.len else 16) = (.inl prog, s2) → progBad r prog = false →
    (∀ i ∈ usedSlots r prog, r.slots.getD i 0 ≠ 0 ∧ (tensorOf (slots.getD i [])).bad = false) →
    s2.readSlotDescs unit t cmd.v r (usedSlots r prog) [0, 1, 2, 3] = (.inl slots, s3) →
    ∃ u rec_, exec (.consistRun cmd) s = .next u ∧ Kept s u ∧ (u.rcmd? cmd).map (·.work) = some .consist ∧
      (rec_ ∈ (u.mu d m).csWait ∨ ∃ n, (n, rec_) ∈ (u.mu d m).cs) ∧ rec_.c = cmd ∧ rec_.desc = desc ∧ rec_.prog = prog ∧ rec_.slots = slots ∧ rec_.iter = 0 ∧
      rec_.cnt = [0, 0, 0, 0]) ∧
  (∀ (s s1 s2 : State) (cmd : CmdRef) (k : RCmd) (desc prog : List Word) (a : Nat), Memory.wf s.hostMem = true → Starts s cmd k 4 →
    let unit : XUnit := .mu (s.cmdDie cmd k) (bits (k.word 3) 56 2)
    let t := (s.vi cmd.p cmd.v).tenant
    let s0 := s.modCmd cmd (fun k => { k with started := true })
    let r := runOf desc
    let ends (status outcome reason addr : Nat) : Prop := ∃ u, exec (.consistRun cmd) s = .next u ∧ u.threads = s.threads ∧
      Completed s u cmd k status (BitVec.ofNat 64 (outcome * 2 ^ 60 + reason * 2 ^ 56 + addr % 2 ^ 48))
    (s0.spanWords unit t cmd.v k.desc 8 = (.inr a, s1) → ends 2 1 1 a) ∧
    (s0.spanWords unit t cmd.v k.desc 8 = (.inl desc, s1) → runRefused r = true → ends 3 2 0 0) ∧
    (s0.spanWords unit t cmd.v k.desc 8 = (.inl desc, s1) → runRefused r = false →
      s1.spanWords unit t cmd.v r.prog (if r.single then r.len else 16) = (.inl prog, s2) →
      (progBad r prog = true → ends 3 2 3 0) ∧
      (progBad r prog = false → (∃ i ∈ usedSlots r prog, r.slots.getD i 0 = 0) → ends 3 2 0 0))) ∧
  (∀ (s s1 s2 s3 s4 : State) (die : BitVec 11) (mu : BitVec 2) (cand : MuCand) (streak n : Nat) (q : CsCmd) (xs ys : Tab (BitVec 32)) (f0 f1 g : FpFlags)
      (bad0 bad1 badW : Option (Nat × Nat)) (cd : ChainData),
    let d := die.toNat
    let m := mu.toNat
    let s' := s.admitMu d m
    let v := s'.grantTile d m cand streak
    s'.muNext d m = some (cand, streak) → (s'.mu d m).cs.find? (fun e => e.2.c == cand.c) = some (n, q) → tget? (s'.mu d m).cs q.cls = some q → q.reason = 0 →
    ((runOf q.desc).single = true → q.saved = false → (s'.mu d m).loaded = none ∨ (s'.mu d m).loaded = some q.c →
      ∃ u, exec (.consistIterationStart die mu) s = .next u ∧ Kept s u ∧ (u.mu d m).loaded = some q.c ∧
        tget? (u.mu d m).cs q.cls = some { q with
          running := true
          ip := 0
          pred := List.replicate 16384 true }) ∧
    ((runOf q.desc).single = false →
      let r := (runOf q.desc).rounding
      let ch := chainOf q.prog
      let t0 := csTensor q 0
      let t1 := csTensor q 1
      let t2 := csTensor q 2
      let c00 := tileStart t0 q.iter
      let at_ (l : List Nat) : List (Nat × Coord) := l.map (fun i => (i, q.coord i))
      (v.chargeConsist d m q.tenant ch.beats).readSlots (.mu d m) q t0 (at_ (q.inTile 0)) = ((xs, f0, bad0), s1) →
      s1.chainData (.mu d m) q.tenant q.vi ch c00.2.1 (min 128 (t0.e 1 - c00.2.1)) c00.1 (min 128 (t0.e 0 - c00.1)) false = (cd, s2) →
      s2.readSlots (.mu d m) q t1 (at_ (if ch.uses 6 then (xs.map (·.1)).filter (fun i => t1.inside (q.coord i)) else [])) = ((ys, f1, bad1), s3) →
      let got := passOperand q cd ys bad1
      let bad := (xs.findSome? (fun e => (ch.failed (got e.1)).map (fun a => (e.1, a)))).or bad0
      let outs := (xs.filter (fun e => ∀ b, bad = some b → e.1 < b.1)).map (fun e =>
        (e.1, ch.run r (fun src => (got e.1 src).value) e.2 (t2.ordinal (q.coord e.1))))
      s3.writeSlot (.mu d m) q r t2 ((outs.filter (fun e => t2.inside (q.coord e.1))).map (fun e =>
        { i := e.1, c := q.coord e.1, x := f32Val e.2.1, st := ch.nstages - 1 })) = ((g, badW), s4) →
      let flags := q.flags ||| outs.foldl (fun a e => a ||| e.2.2) (f0 ||| f1) ||| g
      ∃ u, exec (.consistTilePass die mu) s = .next u ∧ Kept s u ∧ tget? (u.mu d m).cs q.cls = some (match badW.or bad with
        | none => { q with
            iter := q.iter + 1
            flags := flags }
        | some (i, a) => { q with
            flags := flags
            reason := 1
            addr := a
            errKey := q.iter * 16384 + i
            running := false }))) ∧
  (∀ (s s1 : State) (die : BitVec 11) (mu : BitVec 2) (k : CsCmd) (i : CsInstr) (xs : Tab (BitVec 32)) (f : FpFlags),
    let d := die.toNat
    let m := mu.toNat
    let r := (runOf k.desc).rounding
    s.csRunning d m = some (k, i) → tget? (s.mu d m).cs k.cls = some k → k.reason = 0 →
    let after (c : Instr) (p : CsCmd → Prop) : Prop := ∃ u k', exec c s = .next u ∧ Kept s u ∧ tget? (u.mu d m).cs k.cls = some k' ∧ p k'
    let others (k' : CsCmd) : Prop := ∀ n, n ≠ i.d → tbGet k' n = tbGet k n
    let at_ (l : List Nat) : List (Nat × Coord) := l.map (fun e => (e, k.coord e))
    let on (e : Nat) : Bool := k.pred.getD e false
    let fails (c : Instr) (a : Nat) : Prop := after c (fun k' => k'.reason = 1 ∧ k'.addr = a ∧ k'.running = false ∧ k'.iter = k.iter ∧ k'.tb = k.tb ∧
      k'.pred = k.pred ∧ k'.cnt = k.cnt ∧ k'.flags = k.flags ||| f)
    (i.op = 1 → (∀ e a, s.readSlots (.mu d m) k (csTensor k i.a) (at_ ((k.inTile i.a).filter on)) = ((xs, f, some (e, a)), s1) → fails (.consistLd die mu) a) ∧
      (s.readSlots (.mu d m) k (csTensor k i.a) (at_ ((k.inTile i.a).filter on)) = ((xs, f, none), s1) →
        after (.consistLd die mu) (fun k' => CsNext k k' ∧ others k' ∧ k'.pred = k.pred ∧ k'.cnt = k.cnt ∧ k'.flags = k.flags ||| f ∧
          ∀ e, e < 16384 → tget? (tbGet k' i.d) e = if on e then tget? xs e else tget? (tbGet k i.d) e))) ∧
    (let l : List SlotWrite := ((k.active i.a).filter (fun e => (csTensor k i.d).inside (k.coord e.1))).map
        (fun e => { i := e.1, c := k.coord e.1, x := f32Val e.2, st := 0 })
     i.op = 2 → (∀ e a, s.writeSlot (.mu d m) k r (csTensor k i.d) l = ((f, some (e, a)), s1) → fails (.consistSt die mu) a) ∧
      (s.writeSlot (.mu d m) k r (csTensor k i.d) l = ((f, none), s1) →
        after (.consistSt die mu) (fun k' => CsNext k k' ∧ k'.tb = k.tb ∧ k'.pred = k.pred ∧ k'.cnt = k.cnt ∧ k'.flags = k.flags ||| f))) ∧
    (i.op = 3 → after (.consistFn die mu) (fun k' => CsNext k k' ∧ others k' ∧ k'.cnt = k.cnt ∧ (fnPred i.fn = false → k'.pred = k.pred) ∧
      ∀ e, e < 16384 → tget? (tbGet k' i.d) e = match tget? (k.active i.a) e with
        | some x => some (menuFn i.fn x (csOperand k i e) i.imm).1
        | none => tget? (tbGet k i.d) e)) ∧
    (i.op = 4 → after (.consistRed die mu) (fun k' => CsNext k k' ∧ others k' ∧ k'.pred = k.pred ∧ k'.cnt = k.cnt ∧
      ∀ n, n < 128 → let cols := i.imm.getLsbD 0
        let line := ((k.active i.a).filter (fun e => (if cols then e.1 % 128 else e.1 / 128) == n)).map (·.2)
        tget? (tbGet k' i.d) (if cols then n else 128 * n) = some ((reduce (redOp i.fn) line).1.getD (redIdentity i.fn)))) ∧
    (let t := csTensor k i.d
     let have_ := k.cnt.getD i.d 0
     let act := k.active i.a
     let fit := act.take (t.capacity - have_)
     i.op = 5 → i.d < k.cnt.length → s.writeSlot (.mu d m) k r t (fit.zipIdx.map (fun e =>
        { i := e.1.1, c := t.coordOf (have_ + e.2), x := f32Val e.1.2, st := 0 })) = ((f, none), s1) →
      (act.length ≤ t.capacity - have_ → after (.consistCst die mu) (fun k' => CsNext k k' ∧ k'.tb = k.tb ∧ k'.pred = k.pred ∧
        k'.cnt = k.cnt.set i.d (have_ + act.length) ∧ k'.flags = k.flags ||| f)) ∧
      (t.capacity - have_ < act.length → after (.consistCst die mu) (fun k' => k'.reason = 2 ∧ k'.running = false ∧
        k'.addr = (t.addr (t.coordOf (have_ + (t.capacity - have_)))).1 ∧ k'.cnt = k.cnt.set i.d (have_ + (t.capacity - have_))))) ∧
    (let t := csTensor k i.a
     let have_ := k.cnt.getD i.a 0
     let want := (k.inTile i.b).filter on
     i.op = 6 → i.a < k.cnt.length → s.readSlots (.mu d m) k t ((want.take (t.capacity - have_)).zipIdx.map (fun e => (e.1, t.coordOf (have_ + e.2)))) =
        ((xs, f, none), s1) →
      (want.length ≤ t.capacity - have_ → after (.consistXld die mu) (fun k' => CsNext k k' ∧ others k' ∧ k'.pred = k.pred ∧
        k'.cnt = k.cnt.set i.a (have_ + want.length) ∧
        ∀ e, e < 16384 → tget? (tbGet k' i.d) e = if e ∈ k.inTile i.b then some (tget xs e i.imm) else tget? (tbGet k i.d) e)) ∧
      (t.capacity - have_ < want.length → after (.consistXld die mu) (fun k' => k'.reason = 2 ∧ k'.running = false))) ∧
    (let want := (k.inTile i.a).filter on
     i.op = 7 → s.readSlots (.mu d m) k (csTensor k i.a) (at_ want) = ((xs, f, none), s1) →
      after (.consistLdp die mu) (fun k' => CsNext k k' ∧ k'.tb = k.tb ∧ k'.cnt = k.cnt ∧
        k'.pred = (List.range 16384).map (fun e => (xs.filter (fun y => !(f32Val y.2).isZero)).any (fun y => y.1 == e)))) ∧
    (i.op = 8 → s.writeSlot (.mu d m) k r (csTensor k i.d) ((k.inTile i.d).map (fun e =>
        { i := e, c := k.coord e, x := .fin false (b2n (k.pred.getD e false)) 0, st := 0 })) = ((f, none), s1) →
      after (.consistStp die mu) (fun k' => CsNext k k' ∧ k'.tb = k.tb ∧ k'.pred = k.pred ∧ k'.cnt = k.cnt ∧ k'.flags = k.flags ||| f))) ∧
  (∀ (s : State) (cmd : CmdRef) (d m : Nat) (k : CsCmd) (q : RCmd), Memory.wf s.hostMem = true → s.csFind cmd = some (d, m, k) → s.dieUp d = true →
    k.running = false → k.reason ≠ 0 ∨ consistIters k ≤ k.iter → s.cmdOut d cmd = 0 → (runOf k.desc).counts = 0 ∨ k.countsSent = true →
    s.rcmd? cmd = some q → q.result = none →
    ∃ u, exec (.consistRunComplete cmd) s = .next u ∧ u.threads = s.threads ∧
      Completed s u cmd q (if k.reason = 0 then 0 else 2) (consistResult (if k.reason = 0 then 0 else 1) k.reason k.flags.toNat k.addr))

/-- The Points (R286 to R308): a ROUTE is refused by its descriptor or its table, waits for a command of its class, or joins the commands in progress;
its blocks start in order and their writes follow, or a read in error ends it; experts choose eligible tokens within their capacities and tokens keep
at most K; DISPATCH copies the rows of 128 positions, with their tags; the command completes and its counts join the histograms; and a revision
recomputes replica counts and halves histograms.
Model's choices: logs 9, 35. -/
def Obligations.PointsCommands : Prop :=
  (∀ (s s1 : State) (cmd : CmdRef) (k : RCmd) (w : List Word), Memory.wf s.hostMem = true → Starts s cmd k 6 →
    let s0 := s.modCmd cmd (fun k => { k with started := true })
    let d := s.cmdDie cmd k
    let t := (s.vi cmd.p cmd.v).tenant
    let q := routeDescOf w
    let route : Instr := if q.op = 1 then .routeDispatch cmd else if q.op = 2 then .routeCombine cmd else .routeSelect cmd
    (s.readWords (.points d) t cmd.v k.desc 16).1 = .inl w → s0.readWords (.points d) t cmd.v k.desc 16 = (.inl w, s1) →
    let ends (status : Nat) (r : Word) : Prop := ∃ u, exec route s = .next u ∧ u.threads = s.threads ∧ Completed s u cmd k status r
    ((∃ e ∈ (s.die d).ptCmds, e.cls = k.cls) → exec route s = .next s) ∧
    ((∀ e ∈ (s.die d).ptCmds, e.cls ≠ k.cls) →
      (q.refused = true ∨ (s.rtable d q.rtable).vi ≠ some cmd.v → ends 3 (BitVec.ofNat 64 (4 * 2 ^ 60))) ∧
      (∀ e s2, q.refused = false → (s.rtable d q.rtable).vi = some cmd.v → s1.ptCaps d t cmd.v q = (.inr e, s2) →
        ends 2 (BitVec.ofNat 64 (3 * 2 ^ 60 + 2 ^ 56))) ∧
      (∀ caps s2, q.refused = false → (s.rtable d q.rtable).vi = some cmd.v → s1.ptCaps d t cmd.v q = (.inl caps, s2) →
        (2 ^ 24 ≤ capSum q caps → ends 3 (BitVec.ofNat 64 (4 * 2 ^ 60))) ∧
        (capSum q caps < 2 ^ 24 → ∃ u rec_, exec route s = .next u ∧ Kept s u ∧ (u.rcmd? cmd).map (·.work) = some .route ∧
          (u.die d).ptCmds = (s.die d).ptCmds ++ [rec_] ∧ rec_.c = cmd ∧ rec_.desc = w ∧ rec_.caps = caps ∧ rec_.block = 0 ∧ rec_.done = false ∧
          rec_.err = false ∧ rec_.reps = (List.range q.e).map (fun e => ((s.rtable d q.rtable).expert e).reps))))) ∧
  (∀ (s s1 : State) (die : BitVec 11) (k : PtCmd) (streak : Nat),
    let d := die.toNat
    let x := s.die d
    let v := s.modDie d (fun x => { x with ptStreak := streak })
    s.dieUp d = true → x.gate.getLsbD 0x38 = true → k ∈ s.ptCands d →
    arbitrate (·.cls) (fun a b => workLt (ptKey a) (ptKey b)) (fun a b => decide (a.order < b.order)) x.ptStreak (s.ptCands d) = some (k, streak) →
    (∀ ws k', v.ptBlock d k = (.inl (ws, k'), s1) → ∃ u, exec (.pointsBlockStart die) s = .next u ∧ Kept s u ∧
      u = (s1.modPt d k.c (fun _ => k')).ptWrites d k' ws ∧ k'.c = k.c ∧ k'.caps = k.caps ∧ k.block ≤ k'.block) ∧
    (∀ e, v.ptBlock d k = (.inr e, s1) → ∃ u, exec (.pointsBlockStart die) s = .next u ∧ Kept s u ∧
      ∀ y ∈ (u.die d).ptCmds, y.c = k.c → y.err = true)) ∧
  (∀ (sc : Scores) (elig : Nat → Nat → Bool) (k t : Nat) (caps : List Nat),
    let z := expertChoice sc elig t caps
    (∀ e l, z.held[e]? = some l → l.length ≤ caps.getD e 0 ∧ ∀ x ∈ l, x < t ∧ elig x e = true) ∧
    (k ≠ 0 → ∀ x, x < t → ((tokenLimit sc k t z).picks x).length ≤ k ∧ ∀ e ∈ (tokenLimit sc k t z).picks x, e ∈ z.picks x)) ∧
  (∀ (s s1 : State) (d : Nat) (q : RouteDesc) (k : PtCmd) (r : RouteRead) (rows : List (List Byte)),
    let lo := 128 * k.block
    k.route = some r → s.ptRows d k.tenant k.vi q.rowbytes (((r.perm.drop lo).take 128).map (fun p => q.x + p.1 * q.xstride)) = (.inl rows, s1) →
    ∃ ws k', s.dispatchBlock d q k = (.inl (ws, k'), s1) ∧ k'.block = k.block + 1 ∧ (k'.done = true ↔ r.perm.length ≤ lo + 128) ∧
      ∀ i row, rows[i]? = some row → (q.disp + (lo + i) * q.rowbytes, wholeBytes row) ∈ ws ∧
        (q.tagsMode = true → (q.tags + 16 * (lo + i), wholeBytes (tagBytes (r.perm.getD (lo + i) (0, 0)).1 (r.expert.getD (lo + i) 0)
          (r.perm.getD (lo + i) (0, 0)).2)) ∈ ws)) ∧
  (∀ (s : State) (cmd : CmdRef) (i : Nat) (k : PtCmd) (q : RCmd), Memory.wf s.hostMem = true → i < 8 →
    let d := cmd.p * 8 + i
    (s.die d).ptCmds.find? (fun e => e.c == cmd) = some k → (∀ j, j < i → ∀ e ∈ (s.die (cmd.p * 8 + j)).ptCmds, e.c ≠ cmd) → s.dieUp d = true →
    k.err = true ∨ k.done = true → s.cmdOut d cmd = 0 → s.rcmd? cmd = some q → q.result = none →
    ∃ u, exec (.routeComplete cmd) s = .next u ∧ u.threads = s.threads ∧ (∀ e ∈ (u.die d).ptCmds, e.c ≠ cmd) ∧
      (∀ n counts r, k.err = false → k.hist = some (n, counts) → tget? (s.die d).rtables n = some r →
        tget? (u.die d).rtables n = some (addHist r counts)) ∧
      (if k.err then Completed s u cmd q 2 (BitVec.ofNat 64 (3 * 2 ^ 60 + 2 ^ 56))
       else Completed s u cmd q (if bits k.result.toNat 60 4 = 0 then 0 else 1) k.result)) ∧
  (∀ (s : State) (pkg : BitVec 8),
    let p := pkg.toNat
    let k := s.pkg p
    k.phase = .run → k.revMs ≠ 0 → k.lastRev + k.revMs * 100000 ≤ k.tick →
    ∃ u, exec (.routeTableRevision pkg) s = .next u ∧ Kept s u ∧ (u.pkg p).lastRev = k.tick ∧
      ∀ i n r, i < 8 → s.dieUp (p * 8 + i) = true → tget? (s.die (p * 8 + i)).rtables n = some r → r.vi.isSome = true →
        ∃ r', tget? (u.die (p * 8 + i)).rtables n = some r' ∧ r'.vi = r.vi ∧ r'.rmax = r.rmax ∧
          let top := r.ex.foldl (fun m e => max m e.2.hist.toNat) 0
          ∀ e x, tget? r.ex e = some x → ∃ y, tget? r'.ex e = some y ∧ y.hist = x.hist / 2 ∧ y.pinned = x.pinned ∧
            y.reps = if x.pinned then x.reps else if top = 0 then 1 else min r.rmax (max 1 ((r.rmax * x.hist.toNat + top - 1) / top)))

/-- DMA chains (R383 to R386, R391, R396 to R399): a command without a share is refused, one for which a token is free holds it and waits in the die's queue, one
without waits for a token; a chain starts on an engine; a descriptor starts or ends the chain; a block is chosen; a descriptor's signal leaves after
its writes, those to host memory covered by a read; the chain completes.
Model's choices: log 36. -/
def Obligations.DmaChains : Prop :=
  (∀ (s : State) (cmd : CmdRef) (k : RCmd), Memory.wf s.hostMem = true →
    let d := s.cmdDie cmd k
    let x := s.share 4 d cmd.v
    let refused (c : Instr) : Prop := ∃ u, exec c s = .next u ∧ u.threads = s.threads ∧ Completed s u cmd k 3 (BitVec.ofNat 64 (2 * 2 ^ 60))
    let accepted (c : Instr) : Prop := ∃ u ch, exec c s = .next u ∧ Kept s u ∧ (u.rcmd? cmd).map (·.work) = some .dmaChain ∧
      u.share 4 d cmd.v = { x with held := x.held + 1 } ∧ (u.die d).dmaQueue = (s.die d).dmaQueue ++ [ch] ∧ ch.c = cmd ∧ ch.va = k.desc ∧
      ch.engine = bits (k.word 3) 56 4 ∧ ch.idx = 0
    (Starts s cmd k 7 → (x.share = 0 → refused (.dma cmd)) ∧ (x.held < x.share → x.withdraw = 0 → accepted (.dma cmd)) ∧
      (x.share ≠ 0 → x.share ≤ x.held ∨ x.withdraw ≠ 0 → ∃ u, exec (.dma cmd) s = .next u ∧ Kept s u ∧ (u.rcmd? cmd).map (·.work) = some .dmaWait ∧
        u.dies = s.dies)) ∧
    (s.rcmd? cmd = some k → k.work = .dmaWait → k.result = none → s.dieUp d = true → (x.share = 0 → refused (.dmaChainAccept cmd)) ∧
      (x.held < x.share → x.withdraw = 0 → accepted (.dmaChainAccept cmd)))) ∧
  (∀ (s s1 : State) (die : BitVec 11) (eng : BitVec 3) (k : Chain) (w : List Word),
    let d := die.toNat
    let e := eng.toNat
    let q := dmaDescOf w
    s.dieUp d = true →
    (∀ n, (s.die d).dmaQueue = [k] → s.engineFor d k = some n → ∃ u, exec (.dmaChainStart die) s = .next u ∧ Kept s u ∧ (u.die d).dmaQueue = [] ∧
      (u.eng d n).chains = (s.eng d n).chains ++ [{ k with
        engine := n
        seq := (s.eng d n).nextSeq + 1 }] ∧ (u.eng d n).nextSeq = (s.eng d n).nextSeq + 1) ∧
    ((s.die d).gate.getLsbD (0x28 + e) = true → wantsDesc (s.eng d e) = [k] → (∀ f ∈ (s.eng d e).chains, f.c = k.c → f = k) →
      s.readWords (.dma d e) k.tenant k.vi k.va 16 = (.inl w, s1) → (q.ordered = true → s.chainOut d k.c k.idx = 0) →
      ((q.ordered = true → k.hostOut = []) →
        ∃ u, exec (.dmaDescriptorStart die eng) s = .next u ∧ Kept s u ∧ ∀ f ∈ (u.eng d e).chains, f.c = k.c →
          f = if q.bad k.va k.idx then { k with reason := 5, failed := k.idx } else if q.total = 0 then endDesc k q
            else { k with desc := some w, pos := 0, ordinal := q.edgeBase, mapWord := q.mapstart }) ∧
      (q.ordered = true → k.hostOut ≠ [] → s.linkUp (diePkg d) k.vi = true →
        ∃ u, exec (.dmaDescriptorStart die eng) s = .next u ∧ Kept s u ∧ ∀ f ∈ (u.eng d e).chains, f.c = k.c → f = { k with hostOut := [] })) ∧
    (∀ er, (s.die d).gate.getLsbD (0x28 + e) = true → wantsDesc (s.eng d e) = [k] → (∀ f ∈ (s.eng d e).chains, f.c = k.c → f = k) →
      s.readWords (.dma d e) k.tenant k.vi k.va 16 = (.inr er, s1) →
      ∃ u, exec (.dmaDescriptorStart die eng) s = .next u ∧ Kept s u ∧ ∀ f ∈ (u.eng d e).chains, f.c = k.c →
        f = { k with reason := accReason er, failed := k.idx }) ∧
    ((s.die d).gate.getLsbD (0x28 + e) = true → (s.eng d e).cur = none → hasToken (s.die d) (132 + e) = true → s.dmaCands d e = [k] →
      ∃ u, exec (.dmaBlockStart die eng) s = .next u ∧ Kept s u ∧ (u.eng d e).cur = some k.c ∧ (u.eng d e).last = k.seq ∧
        (u.eng d e).chains = (s.eng d e).chains) ∧
    (∀ g rest, (s.eng d e).chains = [k] → k.sigs = g :: rest → k.reason = 0 ∨ g.desc < k.failed → s.chainOut d k.c g.desc = 0 →
      ((∃ i ∈ k.hostOut, i ≤ g.desc) → s.linkUp (diePkg d) k.vi = true → ∃ u, exec (.dmaDescriptorSignal die eng) s = .next u ∧ Kept s u ∧
        ∀ f ∈ (u.eng d e).chains, f.c = k.c → f = { k with hostOut := [] }) ∧
      ((∀ i ∈ k.hostOut, g.desc < i) → ∃ u, exec (.dmaDescriptorSignal die eng) s = .next u ∧ Kept s u ∧
        (∀ f ∈ (u.eng d e).chains, f.c = k.c → f.sigs = rest ∧ f.lastSig = some g.handle) ∧
        Requests u d (.sigPost 2 (BitVec.ofNat 23 (d * 4096 + e)) g.handle) (.sig (BitVec.ofNat 52 (2 * 2 ^ 48 + hDie g.handle * 2 ^ 37 + slotOff (hKey g.handle)))
          (if g.set then .set else .add) g.value 2 (BitVec.ofNat 23 (d * 4096 + e)) (BitVec.ofNat 64 k.deadline) (BitVec.ofNat 5 k.vi))))) ∧
  (∀ (s : State) (cmd : CmdRef) (d e : Nat) (k : Chain) (q : RCmd), Memory.wf s.hostMem = true → s.chainFind cmd = some (d, e, k) → s.dieUp d = true →
    k.reason ≠ 0 ∨ k.finished = true → (∀ g ∈ k.sigs, k.reason ≠ 0 ∧ k.failed ≤ g.desc) → s.cmdOut d cmd = 0 → s.sigQueued d e k = false → k.hostOut = [] →
    s.rcmd? cmd = some q → q.result = none →
    ∃ u, exec (.dmaChainComplete cmd) s = .next u ∧ u.threads = s.threads ∧ Completed s u cmd q (if k.reason = 0 then 0 else 2) (dmaResult k) ∧
      (∀ f ∈ (u.eng d e).chains, f.c ≠ cmd) ∧
      ((s.share 4 d cmd.v).withdraw = 0 → (u.share 4 d cmd.v).held = (s.share 4 d cmd.v).held - 1))

/-- The blocks of the five DMA modes (R176, R178, R180, R386, R388 to R395, R400): what each of at most 4 KiB reads or writes, and where the chain stands
after it; a block whose access fails ends the chain with its REASON; PRUNE keeps of each group the KEEP elements that rank highest, but zeros.
Model's choices: logs 9, 36, 47, 89. -/
def Obligations.DmaBlocks : Prop :=
  (∀ (s s1 s2 : State) (die : BitVec 11) (eng : BitVec 3) (k0 : Chain) (q : DmaDesc),
    let d := die.toNat
    let e := eng.toNat
    let k := noteHost k0 q
    s.dieUp d = true → s.dmaCur d e = some (k0, q) → (∀ f ∈ (s.eng d e).chains, f.c = k0.c → f = k0) → k0.reason = 0 →
    let ends (c : Instr) (k' : Chain) : Prop := ∃ u, exec c s = .next u ∧ u.threads = s.threads ∧ u.mem = s.mem ∧ u.poison = s.poison ∧ (u.eng d e).cur = none ∧
      ∀ f ∈ (u.eng d e).chains, f.c = k.c → f = k'
    let fails (c : Instr) (k' : Chain) (reason : Nat) : Prop := ends c { k' with reason := reason, failed := k.idx }
    let hi := min (k.pos + 4096) q.total
    let parts := rowParts q.rowbytes k.pos hi (hi - k.pos)
    let moved (ws : List (Nat × List (Bool × Byte))) : Chain := afterBytes { k with count := k.count + (ws.map (fun w => w.2.length)).sum } q hi
    (q.mode = 0 →
      (∀ ws k1, s.copyReads d e k q parts = (.inl ws, s1) → s1.dmaMoves d e k q.dkind ws = (none, k1, s2) → ends (.dmaCopy die eng) (moved ws)) ∧
      (∀ ws k1 reason, s.copyReads d e k q parts = (.inl ws, s1) → s1.dmaMoves d e k q.dkind ws = (some reason, k1, s2) →
        fails (.dmaCopy die eng) k1 reason) ∧
      (∀ reason, s.copyReads d e k q parts = (.inr reason, s1) → fails (.dmaCopy die eng) k reason)) ∧
    (q.mode = 1 →
      let ws := parts.map (fun r =>
        let a := (q.dst + r.1 * q.dstride + r.2.1) % 2 ^ 64
        (a, (List.range r.2.2).map (fun i => (true, BitVec.ofNat 8 (q.pattern / 2 ^ (8 * ((a + i) % 4))) ))))
      (∀ k1, s.dmaMoves d e k q.dkind ws = (none, k1, s2) → ends (.dmaFill die eng) (moved ws)) ∧
      (∀ k1 reason, s.dmaMoves d e k q.dkind ws = (some reason, k1, s2) → fails (.dmaFill die eng) k1 reason)) ∧
    (let c : Instr := if q.mode = 2 then .dmaPrune die eng else .dmaCompress die eng
     let n := min 4096 (q.rowbytes * q.eb - k.rowPos)
     let src := (q.src + k.pos * q.sstride + k.rowPos) % 2 ^ 64
     q.mode = 2 ∨ q.mode = 3 → k.emit = [] →
      (∀ reason, s.dmaRead d e k q.skind src n = (.inr reason, s1) → fails c k reason) ∧
      (∀ b, s.dmaRead d e k q.skind src n = (.inl b, s1) →
        let edges := k.buf ++ rowEdges q (k.rowPos / q.eb) ((chunks q.eb (n / q.eb) b).map leNat)
        let row := (q.firstrow + k.pos) % 2 ^ 32
        let recs := if q.bitmap then (q.dst + 8 * k.mapWord, wordBytes (bitmapUnits row (edges.map (·.1))))
          else (q.dst + 8 * k.ordinal, wordBytes (edges.map (fun x => row * 2 ^ 32 + x.1)))
        let ws := [recs, (q.values + k.ordinal * q.eb, (edges.map (fun x => leBytes q.eb x.2)).flatten),
          (q.index + 16 * row, wordBytes [k.ordinal, edges.length * 2 ^ 32 + (if q.bitmap then k.mapWord else 0)])]
        let k' : Chain := { k with
          rowPos := k.rowPos + n
          buf := edges }
        (k.rowPos + n < q.rowbytes * q.eb → ends c k') ∧
        (q.rowbytes * q.eb ≤ k.rowPos + n →
          (2 ^ 64 ≤ k.ordinal ∨ 2 ^ 64 < k.ordinal + edges.length ∨ (q.bitmap = true ∧ 2 ^ 32 ≤ k.mapWord) → fails c k' 6) ∧
          (k.ordinal < 2 ^ 64 → k.ordinal + edges.length ≤ 2 ^ 64 → (q.bitmap = true → k.mapWord < 2 ^ 32) →
            ends c { k' with emit := ws.filter (fun w => !w.2.isEmpty) })))) ∧
    (let n := min 4096 (16 * q.rows - k.rowPos)
     let src := (q.src + 16 * q.firstrow + k.rowPos) % 2 ^ 64
     q.mode = 4 → k.emit = [] →
      (∀ reason, s.dmaRead d e k q.skind src n = (.inr reason, s1) → fails (.dmaBin die eng) k reason) ∧
      (∀ b, s.dmaRead d e k q.skind src n = (.inl b, s1) →
        let degs := k.buf ++ (chunks 16 (n / 16) b).zipIdx.map (fun x => ((q.firstrow + k.rowPos / 16 + x.2) % 2 ^ 32, binOf (bits (wordAt x.1 1) 32 32)))
        let order := if q.descending then (List.range 33).reverse else List.range 33
        let rowsOf (n : Nat) : List Nat := (degs.filter (fun x => x.2 == n)).map (·.1)
        let k' : Chain := { k with
          rowPos := k.rowPos + n
          buf := degs }
        ends (.dmaBin die eng) (if k.rowPos + n < 16 * q.rows then k' else { k' with
          emit := [(q.dst, wordBytes (order.map (fun n => (rowsOf n).length)) ++ ((order.map rowsOf).flatten.map (leBytes 4)).flatten)] }))) ∧
    (let ws := splitWrites 4096 k.emit
     let bytes := ws.1.map (fun w => (w.1 % 2 ^ 64, w.2.map (fun x => (true, x))))
     k.emit ≠ [] →
      (∀ reason, s.dmaWrites d e k q.dkind bytes = (some reason, s1) →
        (q.mode = 2 → fails (.dmaPrune die eng) k reason) ∧ (q.mode = 3 → fails (.dmaCompress die eng) k reason) ∧
        (q.mode = 4 → fails (.dmaBin die eng) k reason)) ∧
      (s.dmaWrites d e k q.dkind bytes = (none, s1) →
        let k' : Chain := { k with emit := ws.2 }
        (q.mode = 2 → ends (.dmaPrune die eng) (if ws.2 = [] then afterRow q k' else k')) ∧
        (q.mode = 3 → ends (.dmaCompress die eng) (if ws.2 = [] then afterRow q k' else k')) ∧
        (q.mode = 4 → ends (.dmaBin die eng) (if ws.2 = [] then endDesc { k' with count := k.count + q.rows } q else k'))))) ∧
  (∀ ws : List (Nat × List Byte), (((splitWrites 4096 ws).1.map (·.2)).flatten).length ≤ 4096 ∧
    ((splitWrites 4096 ws).1.map (·.2)).flatten ++ ((splitWrites 4096 ws).2.map (·.2)).flatten = (ws.map (·.2)).flatten) ∧
  (∀ (efmt keep : Nat) (g : List (Nat × Nat)), (g.map (·.1)).Nodup →
    let out := pruneGroup efmt keep g
    out.Sublist g ∧ out.length ≤ keep ∧ (∀ x ∈ out, edgeZero efmt x.2 = false) ∧
    (out.length < keep → ∀ y ∈ g, y ∉ out → edgeZero efmt y.2 = true) ∧
    ∀ x ∈ out, ∀ y ∈ g, y ∉ out → edgeZero efmt y.2 = true ∨ pruneAbove efmt x y = true)

/-! ### The host side -/

/-- Registers, doorbells, the ring fetcher and the mailbox doors (R469 to R474, R485, R487, R499, R502): a TAIL write in range, and one out of range;
a register write of the request buffer and of the doorbells; a fetch accepts up to eight commands; the coalescing time; GO, DROPPED and the
management bus.
Model's choices: logs 4, 62. -/
def Obligations.RingsAndRegisters : Prop :=
  (∀ (s : State) (pkg : BitVec 8) (vi : BitVec 5) (ring : BitVec 4) (tail : BitVec 32),
    let p := pkg.toNat
    let v := vi.toNat
    let r := ring.toNat
    let g := s.ring p v r
    ((s.pkg p).phase = .run → (s.vi p v).st = .bound → g.st ≠ .disabled →
      ((tail - g.head).toNat ≤ g.size → (g.tail - g.head).toNat ≤ (tail - g.head).toNat →
        ∃ u, exec (.ringDoorbellWrite pkg vi ring tail) s = .next u ∧ Kept s u ∧ u.dies = s.dies ∧ u.ring p v r = { g with tail := tail }) ∧
      (g.size < (tail - g.head).toNat → ∃ u, exec (.ringDoorbellWrite pkg vi ring tail) s = .next u ∧ Kept s u ∧ u.ring p v r = g)) ∧
    (s.linkUp p v = true → 0 < g.unsignalled → g.firstUnsig + g.ctime * 100 ≤ (s.pkg p).tick →
      ∃ u, exec (.coalesceTimer pkg vi ring) s = .next u ∧ Kept s u ∧ u.ring p v r = { g with unsignalled := 0 } ∧
        (msixMasked (s.vi p v) (2 + r) = false → tget (u.vi p v).msix (2 + r) 0 = tget (s.vi p v).msix (2 + r) 0 + 1))) ∧
  (∀ (s : State) (pkg : BitVec 8) (vi : BitVec 5) (off : BitVec 14) (size : Nat) (val : BitVec 64),
    let p := pkg.toNat
    let v := vi.toNat
    let o := off.toNat
    let write := exec (.registerWrite pkg vi off size val) s
    ((size ≠ 4 ∧ size ≠ 8) ∨ o % size ≠ 0 → write = .next s) ∧
    (size = 4 ∨ size = 8 → o % size = 0 → (s.pkg p).phase ≠ .beacon → (s.vi p v).st ≠ .disabled →
      (0x400 ≤ o → o < 0x500 → s.mbPresent p v = true →
        ((s.mb p v).owned = false → (s.mb p v).req.length = 256 → ∃ u, write = .next u ∧ Kept s u ∧ u.dies = s.dies ∧
          (∀ i, i < size → (u.mb p v).req.getD (o - 0x400 + i) 0 = val.extractLsb' (8 * i) 8) ∧
          ∀ i, i < o - 0x400 ∨ o - 0x400 + size ≤ i → (u.mb p v).req.getD i 0 = (s.mb p v).req.getD i 0) ∧
        ((s.mb p v).owned = true → ∃ u, write = .next u ∧ Kept s u ∧ (u.mb p v).req = (s.mb p v).req ∧ (u.mb p v).dropped = true)) ∧
      (∀ r : BitVec 4, o = 0x1000 + 8 * r.toNat → write = exec (.ringDoorbellWrite pkg vi r (val.truncate 32)) s) ∧
      (o = 0x108 → write = if val.getLsbD 0 then exec (.mailboxGo pkg vi) s else .next s) ∧
      (o = 0x100 → write = if val.getLsbD 2 then exec (.droppedClear pkg vi) s else .next s))) ∧
  (∀ (s : State) (pkg : BitVec 8) (pdie : Bool) (v r : Nat),
    let p := pkg.toNat
    let g := s.ring p v r
    s.dieUp (p * 8 + if pdie then 4 else 0) = true → (if pdie then (s.pkg p).link4 else (s.pkg p).link0) = true → s.fetchPick p pdie = some (v, r, g) →
    g.st = .running →
    let n := min (8 - g.held.length) (g.tail - g.fetch).toNat
    ∃ u cmds, exec (.ringFetch pkg pdie) s = .next u ∧ Kept s u ∧ u.dies = s.dies ∧ cmds.length = n ∧
      u.ring p v r = { g with held := g.held ++ cmds, fetch := g.fetch + BitVec.ofNat 32 n } ∧
      ∀ i k, cmds[i]? = some k → k.idx = g.fetch + BitVec.ofNat 32 i ∧ k.started = false ∧ k.result = none ∧ (s.vi p v).ceiling ≤ k.cls ∧
        k.w = wordsOf (s.hostRead p (g.cmdBase.toNat + 64 * (k.idx.toNat % g.size)) 64) 8) ∧
  (∀ (s : State) (pkg : BitVec 8) (vi : BitVec 5) (k : BitVec 3) (bytes : List (BitVec 8)),
    let p := pkg.toNat
    let door (go clear : Instr) (b : Nat) : Prop := s.mbPresent p b = true →
      let m := s.mb p b
      (∀ n, m.owned = false → (s.die (p * 8)).swapping = none → (b < 32 → (s.vi p b).st ≠ .resetting) → (s.pkg p).image.isSome = true →
        m.stored.find? (fun e => e.seq.toNat == m.seq) = none → bodyNeed m.cls m.code = some n → 16 + n ≤ m.len → m.len ≤ 256 →
        ∃ u, exec go s = .next u ∧ Kept s u ∧ (u.pkg p).goQueue = (s.pkg p).goQueue ++ [b] ∧ (u.mb p b).owned = true ∧ (u.mb p b).done = false) ∧
      (m.owned = true → ∃ u, exec go s = .next u ∧ Kept s u ∧ u.mb p b = { m with dropped := true } ∧ (u.pkg p).goQueue = (s.pkg p).goQueue) ∧
      (∃ u, exec clear s = .next u ∧ Kept s u ∧ u.mb p b = { m with dropped := false })
    door (.mailboxGo pkg vi) (.droppedClear pkg vi) vi.toNat ∧ door (.smbusGo pkg) (.smbusClearDropped pkg) 32 ∧
    ((s.pkg p).phase = .run → bytes.length = 32 → (s.mb p 32).req.length = 256 →
      ((s.mb p 32).owned = false → ∃ u, exec (.smbusBlockWrite pkg k bytes true) s = .next u ∧ Kept s u ∧ (u.mb p 32).req.length = 256 ∧
        ∀ i, (u.mb p 32).req.getD i 0 = if 32 * k.toNat ≤ i ∧ i < 32 * k.toNat + 32 then bytes.getD (i - 32 * k.toNat) 0 else (s.mb p 32).req.getD i 0) ∧
      (∃ u, exec (.smbusBlockWrite pkg k bytes false) s = .next u ∧ Kept s u ∧ u.mb p 32 = { s.mb p 32 with dropped := true })))

/-- Window B (R131, R467, R479 to R481): a read returns the bytes of memory, or all ones with a record where it does not translate, and two
where its home refuses it; a write reaches memory and
nothing beside it; FetchAdd and CAS return the old value; a section in yard SRAM, Swap and a 128-bit CAS are answered Unsupported Request.
Model's choices: log 61. -/
def Obligations.WindowAccesses : Prop :=
  ∀ (s s1 : State) (pkg : BitVec 8) (vi : BitVec 5) (woff : BitVec 36) (w : WinB),
    let p := pkg.toNat
    let v := vi.toNat
    (∀ len, s.winB p v woff.toNat len = none → ∃ u, exec (.windowBRead pkg vi woff len) s = .next u ∧ Kept s u ∧
      (u.pkg p).rdData = List.replicate len 0xFF) ∧
    (∀ bytes : List (BitVec 8), s.winB p v woff.toNat bytes.length = none → exec (.windowBWrite pkg vi woff bytes) s = .next s) ∧
    (∀ len parts, s.winB p v woff.toNat len = some w → s.checkVa w.unit w.tenant v false w.va len (len / 128 + 2) = (.inl parts, s1) →
      s1.partsRefused w.unit.die w.tenant parts = none → (∀ e ∈ parts, s.poisonIn e.1 e.2 = none) →
      ∃ u, exec (.windowBRead pkg vi woff len) s = .next u ∧ Kept s u ∧ (u.pkg p).rdPoison = false ∧
        (u.pkg p).rdData = (parts.map (fun e => s.readPa e.1 e.2)).flatten) ∧
    (∀ len cause, s.winB p v woff.toNat len = some w → s.checkVa w.unit w.tenant v false w.va len (len / 128 + 2) = (.inr cause, s1) →
      ∃ u, exec (.windowBRead pkg vi woff len) s = .next u ∧ Kept s u ∧ (u.pkg p).rdData = List.replicate len 0xFF ∧
        ((s1.die w.unit.die).memFaults.length < 64 → (u.die w.unit.die).memFaults.length = (s1.die w.unit.die).memFaults.length + 1)) ∧
    (∀ len parts e fl, s.winB p v woff.toNat len = some w → s.checkVa w.unit w.tenant v false w.va len (len / 128 + 2) = (.inl parts, s1) →
      s1.partsRefused w.unit.die w.tenant parts = some (e, some fl) →
      ∃ u, exec (.windowBRead pkg vi woff len) s = .next u ∧ Kept s u ∧ (u.pkg p).rdData = List.replicate len 0xFF ∧
        ((s1.die w.unit.die).memFaults.length < 63 → (u.die w.unit.die).memFaults.length = (s1.die w.unit.die).memFaults.length + 2)) ∧
    (∀ (bytes : List (BitVec 8)) parts e fl, s.winB p v woff.toNat bytes.length = some w →
      s.checkVa w.unit w.tenant v true w.va bytes.length (bytes.length / 128 + 2) = (.inl parts, s1) →
      s1.partsRefused w.unit.die w.tenant parts = some (e, fl) → ∃ u, exec (.windowBWrite pkg vi woff bytes) s = .next u ∧ Kept s u) ∧
    (∀ (bytes : List (BitVec 8)) (parts : List (Nat × Nat)), Memory.wf s.mem = true → s.winB p v woff.toNat bytes.length = some w →
      s.checkVa w.unit w.tenant v true w.va bytes.length (bytes.length / 128 + 2) = (.inl parts, s1) → s1.partsRefused w.unit.die w.tenant parts = none →
      ∃ u, exec (.windowBWrite pkg vi woff bytes) s = .next u ∧ u.threads = s.threads ∧ u.hostMem = s.hostMem ∧
        (∀ a, (∀ e ∈ parts, a < e.1 ∨ e.1 + e.2 ≤ a) → memGet u.mem a = memGet s.mem a) ∧
        (∀ pa, parts = [(pa, bytes.length)] → u.readPa pa bytes.length = bytes)) ∧
    (∀ wide x, s.winB p v woff.toNat (if wide then 8 else 4) = some w → s.xlat w.unit w.tenant v w.va = (some x, s1) →
      let n := if wide then 8 else 4
      (∀ val cmp : BitVec 64, paSpace x.pa = 1 → (∃ u, exec (.atomicFetchadd pkg vi woff wide val) s = .next u ∧ Kept s u ∧ (u.pkg p).unsupported = (s.pkg p).unsupported + 1) ∧
        ∃ u, exec (.atomicCas pkg vi woff wide cmp val) s = .next u ∧ Kept s u ∧ (u.pkg p).unsupported = (s.pkg p).unsupported + 1) ∧
      (∀ val cmp : BitVec 64, Memory.wf s.mem = true → paSpace x.pa = 0 → entryWr x.entry = true → s1.homeCheck w.unit.die w.tenant x.pa = none →
        s1.homeRefuses w.tenant x.pa = none → x.pa % n = 0 → s.poisonIn x.pa n = none →
        let old := leNat (s.readPa x.pa n)
        (∃ u, exec (.atomicFetchadd pkg vi woff wide val) s = .next u ∧ u.threads = s.threads ∧ (u.pkg p).rdData = leBytes n old ∧
          leNat (u.readPa x.pa n) = (old + val.toNat) % 2 ^ (8 * n) ∧ SameOutside s u x.pa n) ∧
        (∃ u, exec (.atomicCas pkg vi woff wide cmp val) s = .next u ∧ u.threads = s.threads ∧ (u.pkg p).rdData = leBytes n old ∧
          leNat (u.readPa x.pa n) = (if old = cmp.toNat % 2 ^ (8 * n) then val.toNat % 2 ^ (8 * n) else old) ∧ SameOutside s u x.pa n))) ∧
    (∀ kind, ∃ u, exec (.atomicUnsupported pkg vi woff kind) s = .next u ∧ Kept s u ∧ (u.pkg p).unsupported = (s.pkg p).unsupported + 1)

/-- Ring commands that need no engine (R326, R327, R488, R489, R492, R593): NOP, an unassigned opcode, LAUNCH, TRAVEL_POLICY, SIG_SET, SIG_WAIT and FENCE.
Model's choices: log 22. -/
def Obligations.RingCommands : Prop :=
  ∀ (s : State) (cmd : CmdRef) (k : RCmd), Memory.wf s.hostMem = true →
    let done (c : Instr) (status : Nat) (result : Word) : Prop := ∃ u, exec c s = .next u ∧ u.threads = s.threads ∧ Completed s u cmd k status result
    let h := k.signal
    let addr := BitVec.ofNat 52 (2 * 2 ^ 48 + hDie h * 2 ^ 37 + slotOff (hKey h))
    let writer := BitVec.ofNat 23 (cmd.p * 2 ^ 15 + cmd.v * 16 + cmd.r)
    (Starts s cmd k 0 → done (.nopCommand cmd) 0 0) ∧
    (s.rcmd? cmd = some k → s.canStart cmd = true → 12 < k.opcode → done (.nopCommand cmd) 3 (BitVec.ofNat 64 (3 * 2 ^ 60))) ∧
    (Starts s cmd k 1 →
      (k.launchCount = 0 → done (.launch cmd) 0 0) ∧
      (∀ i, i < k.launchCount → (k.launchMode ≠ 2 ∧ i = 0) ∨ (k.launchMode = 2 ∧ (s.ownerDie cmd k i).isSome = true ∧ ∀ j, j < i → s.ownerDie cmd k j = none) →
        ∃ u, exec (.launch cmd) s = .next u ∧ Kept s u ∧ u.dies = s.dies ∧ (u.rcmd? cmd).map (·.work) = some (.launch k.launchCount i 0 0 0 i)) ∧
      (k.launchCount ≠ 0 → k.launchMode = 2 → (∀ i, i < k.launchCount → s.ownerDie cmd k i = none) →
        done (.launch cmd) 1 (BitVec.ofNat 64 (2 ^ 60 + k.launchCount)))) ∧
    (Starts s cmd k 2 → ∃ u, exec (.travelPolicy cmd) s = .next u ∧ u.threads = s.threads ∧ Completed s u cmd k 0 0 ∧
      ∀ d ∈ k.dies, tget? (u.die (cmd.p * 8 + d)).qLimit cmd.v = some (min (bits (k.word 2) 0 5) 16)) ∧
    (Starts s cmd k 8 → s.before cmd = [] → ∃ u, exec (.sigSetCommand cmd) s = .next u ∧ Kept s u ∧ (u.rcmd? cmd).map (·.work) = some .sigSet ∧
      Requests u (s.cmdDie cmd k) (.sigSetCmd cmd) (.sig addr (if k.sigop then .set else .add) (BitVec.ofNat 32 k.sigval) 3 writer
        (BitVec.ofNat 64 k.deadline) (BitVec.ofNat 5 cmd.v))) ∧
    (Starts s cmd k 9 →
      let us := waitUs (s.vi cmd.p cmd.v).timeoutUs k.swTimeout
      ∃ u, exec (.sigWaitCommand cmd) s = .next u ∧ Kept s u ∧ (u.rcmd? cmd).map (·.work) = some (.sigWait ((s.pkg cmd.p).tick + us * 100) us none) ∧
        Requests u (s.cmdDie cmd k) (.sigWait (.cmd cmd)) (.sig addr (if k.take then .take else .wait) (BitVec.ofNat 32 k.sigval) 3 writer
          (BitVec.ofNat 64 k.deadline) (BitVec.ofNat 5 cmd.v))) ∧
    (Starts s cmd k 12 → (s.fencePassed cmd k = true → done (.fenceCommand cmd) 0 0) ∧
      (s.fencePassed cmd k = false → exec (.fenceCommand cmd) s = .next s))

/-! ### Tenants -/

/-- Virtual instances (R401, R406 to R408, R410, R466): a reset ends the VI's threads and takes its rings; when nothing of it is outstanding, or after
2 ms by force, it goes on to its scrub or returns BOUND, or FREE after an unbind; quarantined tags return; VF Enable; the reset of a function.
The scrub is an engine's FILL of zeros.
Model's choices: logs 24, 49. -/
def Obligations.ViResets : Prop :=
  (∀ (s : State) (pkg : BitVec 8) (vi : BitVec 5) (scrub : BitVec 2),
    let p := pkg.toNat
    let v := vi.toNat
    let x := s.vi p v
    (s.pkg p).phase = .run →
    let resets (c : Instr) (sc : Bool) : Prop := ∃ u, exec c s = .next u ∧ u.mem = s.mem ∧ (u.vi p v).st = .resetting ∧ (u.vi p v).rings = [] ∧
      (u.vi p v).rStep = 6 ∧ (u.vi p v).rScrub = sc ∧ (u.vi p v).rUnbind = false ∧ (u.vi p v).rStart = (s.pkg p).tick ∧
      ∀ n, n / 32768 = p → (s.thread n).vi = v → (s.thread n).tenant = x.tenant → (u.thread n).st = .free
    let returned (y : Vi) : Prop := if x.rScrub then y.st = .resetting ∧ y.rStep = 8 else y.rStep = 0 ∧
      if x.rUnbind then y.tenant = 0 ∧ y.st = (if x.rDisable then .disabled else .free) else y.tenant = x.tenant ∧ y.st = .bound
    (x.st = .bound → resets (.viReset pkg vi scrub) (if scrub.toNat = 0 then x.scrub else scrub.toNat == 1)) ∧
    (x.st = .bound → resets (.functionLevelReset pkg vi) x.scrub) ∧
    (∀ c, x.st = .bound → v = 0 → c = .viReset pkg vi scrub ∨ c = .functionLevelReset pkg vi → ∃ u, exec c s = .next u ∧ (u.pkg p).vfEnable = false ∧
      ∀ y ∈ s.vfsOf p false, ((s.vi p y).st = .free → (u.vi p y).st = .disabled) ∧
        ((s.vi p y).st = .bound → (u.vi p y).st = .resetting ∧ (u.vi p y).rUnbind = true ∧ (u.vi p y).rDisable = true)) ∧
    (x.st = .resetting → x.rStep = 6 → s.viOut p v = 0 → ∃ u, exec (.viResetZeroOutstanding pkg vi) s = .next u ∧ returned (u.vi p v)) ∧
    (x.st = .resetting → x.rStep = 6 → s.viOut p v ≠ 0 → x.rStart + 200000 ≤ (s.pkg p).tick → ∃ u, exec (.viResetForceTimer pkg vi) s = .next u ∧
      returned (u.vi p v) ∧ ∀ i tag o, i < 8 → tget? (s.die (p * 8 + i)).outst tag = some o → o.tenant = x.tenant → o.vi = v →
        tget? (u.die (p * 8 + i)).quarantine tag = some (s.pkg p).tick) ∧
    (x.st = .resetting → x.rStep = 8 → s.scrubbed p v = false → exec (.viScrubComplete pkg vi) s = .next s) ∧
    (x.st = .resetting → x.rStep = 8 → s.scrubbed p v = true → ∃ u, exec (.viScrubComplete pkg vi) s = .next u ∧ (u.vi p v).rStep = 0 ∧
      (∀ i e, i < 8 → ∀ k ∈ (u.eng (p * 8 + i) e).chains, k.vi = v → k.scrub = false) ∧ (x.rUnbind = false → (u.vi p v).st = .bound) ∧
      (x.rUnbind = true → (u.vi p v).st = if x.rDisable then .disabled else .free))) ∧
  (∀ lo n, lo < 2 ^ 64 → n < 2 ^ 32 → let q := dmaDescOf (scrubDesc lo n)
    q.mode = 1 ∧ q.dkind = 1 ∧ q.dst = lo ∧ q.rows = 1 ∧ q.rowbytes = n ∧ q.pattern = 0 ∧ q.nextv = false ∧ q.sigen = false) ∧
  (∀ (s : State) (pkg : BitVec 8) (pf16 : Bool) (die : BitVec 11) (tag : BitVec 12),
    let p := pkg.toNat
    (∀ since, tget? (s.die die.toNat).quarantine tag.toNat = some since → since + 10000000 ≤ (s.pkg (die.toNat / 8)).tick →
      ∃ u, exec (.tagQuarantineEnd die tag) s = .next u ∧ Kept s u ∧ (u.die die.toNat).quarantine = terase (s.die die.toNat).quarantine tag.toNat) ∧
    ((s.pkg p).phase = .run → pf16 = false ∨ s.x8x8 p = true →
      (∃ u, exec (.vfEnableSet pkg pf16) s = .next u ∧ Kept s u ∧ u.dies = s.dies ∧
        ∀ v, (u.vi p v).st = if v ∈ s.vfsOf p pf16 ∧ (s.vi p v).st = .disabled then .free else (s.vi p v).st) ∧
      (∃ u, exec (.vfEnableClear pkg pf16) s = .next u ∧ (if pf16 then (u.pkg p).vfEnable16 else (u.pkg p).vfEnable) = false ∧
        ∀ v ∈ s.vfsOf p pf16, ((s.vi p v).st = .free → (u.vi p v).st = .disabled) ∧
          ((s.vi p v).st = .bound → (u.vi p v).st = .resetting ∧ (u.vi p v).rUnbind = true ∧ (u.vi p v).rDisable = true))))

/-! ### Messages -/

/-- The ID, VI, SECTION and RING classes (R132, R133, R402 to R406, R410, R415, R479, R483, R495, R518 to R522): what each message does and answers once it
passes the tests of R508.
Model's choices: logs 24, 64, 66, 67, 94. -/
def Obligations.TenancyMessages : Prop :=
  ∀ (s : State) (pkg : BitVec 8) (mb : BitVec 6),
    let p := pkg.toNat
    let b := mb.toNat
    let v := popped s pkg
    let k := v.pkg p
    let x := asker s pkg mb
    let n (off size : Nat) : Nat := fld x.body off size
    let m := s.mb p b
    let ok (c : Instr) (t : State) (l : List (Nat × Nat)) : Prop := exec c s = .next (t.answerMb p b 0 0 (packBody l) false)
    (Asked s msgIdentify pkg mb → ok (.identify pkg mb) v ([(8, if b = 32 then v.idReg p 7 0 else v.idReg p (v.kindOf p b) b),
      (1, mkPkg k.rack k.tray k.slot), (1, if b = 32 then 0xFF else viCode (v.vi p b).st), (1, b2n k.lead), (1, (k.image.map (·.racks)).getD 0),
      (2, if b = 32 then 0 else (v.vi p b).tenant), (1, (v.upDies p).foldl (fun m i => m + 2 ^ i) 0), (2, k.epoch.toNat),
      (2, (k.image.map (·.machine.toNat)).getD 0), (1, k.central.getD 0xFF)] ++ (List.range 8).map (fun i => (1, (v.die (p * 8 + i)).epoch.toNat)))) ∧
    (Asked s msgPosition pkg mb → ok (.position pkg mb) v [(1, k.rack), (1, k.tray), (1, k.slot), (1, b2n k.clean), (1, b2n k.boot), (1, b2n (v.x8x8 p))]) ∧
    (Asked s msgBind pkg mb → k.central = some p →
      (k.bindings.contains (p * 4096 + n 4 2) = true → ∃ u, exec (.viBind pkg mb) s = .next u ∧ Replied u m p b 3 0 [] ∧ (u.vi p (n 0 1)).st = .free) ∧
      (k.bindings.contains (p * 4096 + n 4 2) = false → v.lacks p (bindReq x) = false → ∃ u, exec (.viBind pkg mb) s = .next u ∧ Replied u m p b 0 0 [] ∧
        (u.vi p (n 0 1)).st = .bound ∧ (u.vi p (n 0 1)).tenant = n 4 2 ∧ (u.vi p (n 0 1)).ceiling = min (n 1 1) 2 ∧ (u.vi p (n 0 1)).wbBase = 0 ∧
        (u.vi p (n 0 1)).trapPc = 0 ∧ (p * 4096 + n 4 2) ∈ (u.pkg p).bindings ∧
        ∀ i, i < 8 → (u.share 4 (p * 8 + i) (n 0 1)).share = (s.share 4 (p * 8 + i) (n 0 1)).share + n 6 2 ∧
          (u.share 5 (p * 8 + i) (n 0 1)).share = (s.share 5 (p * 8 + i) (n 0 1)).share + n 8 2)) ∧
    (Asked s msgUnbind pkg mb → n 0 1 ≠ b → ∃ u, exec (.viUnbind pkg mb) s = .next u ∧ (u.vi p (n 0 1)).st = .resetting ∧ (u.vi p (n 0 1)).rUnbind = true ∧
      (u.mb p b).wait = .viReturn (n 0 1) ∧ (n 0 1 = 0 → (u.pkg p).vfEnable = false)) ∧
    (Asked s msgReset pkg mb → (s.vi p (n 0 1)).st = .bound → ∃ u, exec (.viResetMessage pkg mb) s = .next u ∧ (u.vi p (n 0 1)).st = .resetting ∧
      (u.vi p (n 0 1)).rUnbind = false ∧ (n 0 1 = 0 → (u.pkg p).vfEnable = false) ∧ (if n 0 1 = b then (u.mb p b).owned = false ∧ (u.mb p b).done = false else (u.mb p b).wait = .viReturn (n 0 1))) ∧
    (Asked s msgMove pkg mb → ∃ u, exec (.viMove pkg mb) s = .next u ∧ Replied u m p b 0 0 [] ∧
      let l := n 0 1
      let units := n 4 2
      ∀ i, i < 8 → (n 1 1).testBit i = true → 0 < units →
        let d := p * 8 + i
        let from_ := s.share l d (n 2 1)
        (∀ g ∈ (s.die d).dueGrants, g.1 ≠ l) →
        (n 2 1 = 255 → (u.share l d (n 3 1)).share = (s.share l d (n 3 1)).share + units ∧ u.unalloc l d = s.unalloc l d - units) ∧
        (n 2 1 ≠ 255 → n 3 1 ≠ 255 → tget (s.die d).owed l 0 = 0 → from_.held + units ≤ from_.share →
          (u.share l d (n 2 1)).share = from_.share - units ∧ (u.share l d (n 3 1)).share = (s.share l d (n 3 1)).share + units ∧ u.unalloc l d = s.unalloc l d) ∧
        (n 2 1 ≠ 255 → from_.held ≤ from_.share → from_.share < from_.held + units →
          (u.share l d (n 2 1)).share = from_.held ∧ (u.share l d (n 2 1)).withdraw = units - (from_.share - from_.held))) ∧
    (Asked s msgCeiling pkg mb → ok (.viCeiling pkg mb) (v.modVi p (n 0 1) (fun y => { y with ceiling := min (n 1 1) 2 })) []) ∧
    (Asked s msgWindow pkg mb → ok (.viWindow pkg mb) (v.modVi p b (fun y => { y with wbBase := n 0 8 })) []) ∧
    (Asked s msgTrap pkg mb → ok (.viTrap pkg mb) (v.modVi p b (fun y => { y with trapPc := BitVec.ofNat 48 (n 0 8) })) []) ∧
    (Asked s msgQuery pkg mb → let y := v.vi p (n 0 1)
      let h := v.die (p * 8)
      y.st ≠ .disabled → ok (.viQuery pkg mb) v ([(1, viCode y.st), (1, y.ceiling), (1, b2n y.scrub), (2, y.tenant), (8, y.wbBase), (8, y.trapPc.toNat), (4, 0),
        (4, rhSize h), (4, yardTenantBase h)] ++ (List.range 8).map (fun i => (2, (v.share 4 (p * 8 + i) (n 0 1)).share)) ++
        (List.range 8).map (fun i => (2, (v.share 5 (p * 8 + i) (n 0 1)).share)))) ∧
    (Asked s msgMap pkg mb →
      (240 < k.l2.length + (v.newTables p b x.secs).length → ∃ u, exec (.sectionMap pkg mb) s = .next u ∧ Replied u m p b 7 0 [] ∧
        (u.pkg p).sections = k.sections) ∧
      (k.l2.length + (v.newTables p b x.secs).length ≤ 240 → ∃ u, exec (.sectionMap pkg mb) s = .next u ∧
        (if v.oldEntries p b x.secs = [] then Replied u m p b 0 0 [] else ∃ rs tags, (u.mb p b).wait = .sections rs tags) ∧
        (∀ i, i < n 4 2 → tget? (u.pkg p).sections (b * 2 ^ 23 + n 0 4 + i) = some (mapEntry x i)) ∧
        (∀ i r, i < n 4 2 → r ∈ entryRanges (mapEntry x i) → tget? (u.die r.1).owner r.2 = some (v.vi p b).tenant))) ∧
    (Asked s msgUnmap pkg mb → ∃ u, exec (.sectionUnmap pkg mb) s = .next u ∧
      (if v.oldEntries p b x.secs = [] then Replied u m p b 0 0 [] else ∃ rs tags, (u.mb p b).wait = .sections rs tags) ∧
      ∀ i, i < n 4 2 → tget? (u.pkg p).sections (b * 2 ^ 23 + n 0 4 + i) = none) ∧
    (Asked s msgSecRead pkg mb → ok (.sectionRead pkg mb) v (x.secs.map (fun i => (8, (tget k.sections (b * 2 ^ 23 + i) 0).toNat)))) ∧
    (Asked s msgTables pkg mb → ok (.sectionTables pkg mb) v [(2, 240 - k.l2.length), (2, (k.l2.filter (fun e => e.1 / 2048 == b)).length)]) ∧
    (let r := n 0 1
     let g := v.ring p b r
     (Asked s msgConfigure pkg mb → ok (.ringConfigure pkg mb) (v.modRing p b r (fun _ => { ({} : Ring) with
        st := .running
        fetchCls := n 1 1
        ccount := n 2 1
        size := n 4 4
        ctime := n 8 4
        cmdBase := BitVec.ofNat 64 (n 16 8)
        cplBase := BitVec.ofNat 64 (n 24 8) })) []) ∧
     (Asked s msgResume pkg mb → ∃ u, exec (.ringResume pkg mb) s = .next u ∧ Replied u m p b 0 0 [] ∧
        u.ring p b r = if g.st = .stopped then { g with st := .running } else g) ∧
     (Asked s msgAbort pkg mb → (g.st = .disabled → ok (.ringAbort pkg mb) v []) ∧
        (g.st ≠ .disabled → ∃ u, exec (.ringAbort pkg mb) s = .next u ∧ (u.mb p b).wait = .abort r ∧ (u.ring p b r).st = .running ∧
          (u.ring p b r).fetch = g.tail ∧ ∀ c ∈ (u.ring p b r).held, c.started = true ∨ c.result.isSome = true)) ∧
     (Asked s msgDisable pkg mb → ok (.ringDisable pkg mb) (v.modRing p b r (fun g => { g with st := .disabled })) []) ∧
     (Asked s msgCoalesce pkg mb → ok (.ringCoalesce pkg mb) (v.modRing p b r (fun g => { g with ccount := n 1 1, ctime := n 4 4 })) []) ∧
     (Asked s msgRingQuery pkg mb → ok (.ringQuery pkg mb) v [(1, ringCode g.st), (1, g.held.length), (4, g.head.toNat), (4, g.tail.toNat), (4, g.fetch.toNat),
        (4, g.size), (8, g.cmdBase.toNat), (8, g.cplBase.toNat)]))

/-- The SIGNAL, POWER, BOOKS and FAULT classes (R35, R47, R54, R56, R76, R90, R154, R314, R315, R320, R331, R337, R339, R342, R416, R420, R433, R435, R452,
R454, R461, R514, R523 to R526, R548): what each message does and answers once it passes the tests of R508.
Model's choices: logs 67, 68. -/
def Obligations.BookkeepingMessages : Prop :=
  ∀ (s : State) (pkg : BitVec 8) (mb : BitVec 6),
    let p := pkg.toNat
    let b := mb.toNat
    let v := popped s pkg
    let k := v.pkg p
    let x := asker s pkg mb
    let n (off size : Nat) : Nat := fld x.body off size
    let m := s.mb p b
    let d := p * 8 + n 0 1 % 8
    let y := v.die d
    let ok (c : Instr) (t : State) (l : List (Nat × Nat)) : Prop := exec c s = .next (t.answerMb p b 0 0 (packBody l) false)
    let taken (q : List (List Word)) (pkgBit : Bool) : List (List Word) × List (List Word) := takeRecs (mayRead x 43 pkgBit) (n 1 1) q
    let records (c : Instr) (out : List (List Word)) (dropped : BitVec 16) (t : State) : Prop :=
      ok c t ([(1, out.length), (2, dropped.toNat)] ++ out.map (fun r => (32, recNat r)))
    (Asked s msgAlloc pkg mb →
      let sh := s.share 5 d b
      let free := freeSignals y (n 1 1)
      (sh.withdraw ≠ 0 ∨ sh.share < sh.held + n 1 1 ∨ free.length < n 1 1 → exec (.signalAlloc pkg mb) s = .next (v.answerMb p b 7 0 [] false)) ∧
      (sh.withdraw = 0 → sh.held + n 1 1 ≤ sh.share → free.length = n 1 1 → ∃ u, exec (.signalAlloc pkg mb) s = .next u ∧
        Replied u m p b 0 0 (packBody (free.map (fun i => (8, (mkHandle 1 y.epoch.toNat d i).toNat)))) ∧ u.share 5 d b = { sh with held := sh.held + n 1 1 } ∧
        ∀ i ∈ free, u.signal d i = { ({} : Signal) with owner := (v.vi p b).tenant })) ∧
    (Asked s msgFree pkg mb → ∀ h, n 0 1 = 1 → h = BitVec.ofNat 64 (n 8 8) →
      (v.ownsSignal p b h = false → ok (.signalFree pkg mb) v [(1, 0)]) ∧
      (v.ownsSignal p b h = true → ∃ u, exec (.signalFree pkg mb) s = .next u ∧ Replied u m p b 0 0 (packBody [(1, 1)]) ∧
        tget? (u.die (hDie h)).signals (hKey h) = none)) ∧
    (Asked s msgTimeout pkg mb → ok (.signalTimeout pkg mb) (v.modVi p b (fun y => { y with timeoutUs := n 0 4 })) []) ∧
    (Asked s msgSigEvents pkg mb → records (.signalEvents pkg mb) (taken y.sigEvents false).1 y.sigDropped (v.setDie d { y with sigEvents := (taken y.sigEvents false).2 })) ∧
    (Asked s msgReports pkg mb → let r := takeRecs (mayRead x 47 false) 1 y.reports
      ok (.signalReports pkg mb) (v.setDie d { y with reports := r.2 }) ([(1, r.1.length), (2, y.repDropped.toNat)] ++
        (if r.1.isEmpty then [[]] else r.1).map (fun r => (128, recNat r)))) ∧
    (Asked s msgScan pkg mb → ∃ u, exec (.signalScan pkg mb) s = .next u ∧ Replied u m p b 0 0 [] ∧ u.threads = s.threads ∧
      ∀ i, i < 8 → (n 0 1).testBit i = true → (u.die (p * 8 + i)).scanMs = n 4 4 ∧ (u.die (p * 8 + i)).lastScan = k.tick) ∧
    (Asked s msgSigStatus pkg mb → let g := s.signal (hDie x.handle) (hKey x.handle)
      ok (.signalStatus pkg mb) v [(4, g.count.toNat), (8, g.owner % 4096 * 2 ^ 52 + b2n g.sat * 2 ^ 51 + g.waiters.length % 2 ^ 13 * 2 ^ 32 +
        g.lwSource.toNat * 2 ^ 24 + g.lastWriter.toNat)]) ∧
    (Asked s msgCap pkg mb → ∃ u, exec (.powerCap pkg mb) s = .next u ∧ (u.mb p b).wait = .cap (b == 32) false 0 ∧ u.dies = s.dies ∧ u.threads = s.threads ∧
      (u.pkg p).trayCap = (if b = 32 then n 0 2 else k.trayCap) ∧ (u.pkg p).hostCap = if b = 32 then k.hostCap else n 0 2) ∧
    (Asked s msgPin pkg mb → ∃ u, exec (.powerPin pkg mb) s = .next u ∧ u.threads = s.threads ∧
      (∀ i, i < 8 → (n 0 1).testBit i = true → (u.die (p * 8 + i)).pinned = if n 1 1 = 255 then none else some (n 1 1)) ∧
      (if n 1 1 = 255 then Replied u m p b 0 0 [] else (u.mb p b).wait = .pin ((List.range 8).filter (fun i => bit (n 0 1) i)))) ∧
    (Asked s msgPriority pkg mb → ok (.powerPriority pkg mb)
      (v.modPkg p (fun k => { k with priority := [n 0 1 % 4, n 0 1 / 4 % 4, n 0 1 / 16 % 4], minWidth := n 1 1 })) []) ∧
    (Asked s msgFixed pkg mb → ok (.powerFixed pkg mb) (v.modPkg p (fun k => { k with fixedRate := n 0 2 })) []) ∧
    (Asked s msgWatermark pkg mb → ∃ u, exec (.powerWatermark pkg mb) s = .next u ∧ Replied u m p b 0 0 [] ∧ u.dies = s.dies ∧
      let w := tget (u.pkg p).watermarks (n 0 1) {}
      w.enabled = decide (n 1 1 ≠ 255) ∧ w.armed = decide (n 1 1 ≠ 255) ∧ (n 1 1 ≠ 255 → w.quantity = n 1 1) ∧ w.falling = (n 3 1 == 1) ∧
      w.mark = BitVec.ofNat 16 (n 4 2) ∧ w.hyst = BitVec.ofNat 16 (n 6 2) ∧ w.tc = (b == 32) ∧ w.count = 0) ∧
    (Asked s msgNotices pkg mb → ok (.powerNotices pkg mb) v ((List.range 16).map (fun i => (8, v.notice p i)))) ∧
    (Asked s msgAck pkg mb → ∃ u own, exec (.powerAck pkg mb) s = .next u ∧ Replied u m p b 0 0 (packBody [(2, own)]) ∧ u.dies = s.dies ∧
      ∀ i, i < 16 → let w := tget k.watermarks i {}
        let mine := (n 0 2).testBit i && w.enabled && w.tc == (b == 32)
        own.testBit i = mine ∧ tget (u.pkg p).watermarks i {} = if mine then { w with count := 0, latch := 0 } else w) ∧
    (Asked s msgReadings pkg mb → let dies := (List.range 8).map (fun i => v.die (p * 8 + i))
      ok (.powerReadings pkg mb) v ([(2, k.inputMean), (2, 10 * k.capForce), (2, 15000), (1, k.levers % 16 + b2n k.hardThrottle * 16 + b2n k.capPending * 32),
        (4, k.hardCount.toNat)] ++ (dies.map (fun y => [(2, y.power.getD 2 0), (2, y.power.getD 1 0), (2, y.power.getD 0 0)])).flatten ++
        dies.map (fun y => (1, y.ceiling)) ++ dies.map (fun y => (1, y.subst.targetOp)))) ∧
    (Asked s msgMonitors pkg mb → ∃ u, exec (.powerMonitors pkg mb) s = .next u ∧
      Replied u m p b 0 0 (packBody ((List.range 8).map (fun i => (8, monitorWord d i (v.monitor d i))) ++ [(2, y.shortfalls.toNat)])) ∧ u.threads = s.threads ∧
      (u.die d).shortArmed = true ∧ ∀ i, i < 8 → u.monitor d i = { v.monitor d i with rateMin := 0xFFFF }) ∧
    (Asked s msgFuses pkg mb → ok (.powerFuses pkg mb) v ((List.range 16).map (fun op => (4, fuseEntry d op)) ++
      [(4, Config.fuseL70 d)] ++ (List.range 10).map (fun i => (4, Config.fuseCoeff d i)))) ∧
    (Asked s msgEnergy pkg mb →
      (b = 0 → ok (.powerEnergy pkg mb) v ((List.range 16).map (fun i => (8, (v.vi p (16 * n 0 1 + i)).energy.toNat)) ++ [(8, k.energyUn.toNat)])) ∧
      (b ≠ 0 → ok (.powerEnergy pkg mb) v [(8, (v.vi p b).energy.toNat)])) ∧
    (Asked s msgLedger pkg mb → let die := p * 8 + n 1 1 % 8
      let three (i : Nat) : List (Nat × Nat) := [(2, (v.share (n 0 1) die i).share), (2, (v.share (n 0 1) die i).held), (2, (v.share (n 0 1) die i).withdraw)]
      ok (.booksLedger pkg mb) v ((2, v.unalloc (n 0 1) die) :: if b = 0 then ((List.range 32).map three).flatten else three b)) ∧
    (Asked s msgBooksFaults pkg mb → records (.booksFaults pkg mb) (taken y.ledgerFaults false).1 y.ledDropped
      (v.setDie d { y with ledgerFaults := (taken y.ledgerFaults false).2 })) ∧
    (Asked s msgDeadlines pkg mb → ok (.booksDeadlines pkg mb) v ((List.range 3).map (fun i => (8, (v.vi p (n 0 1)).missed.getD i 0)))) ∧
    (Asked s msgEvents pkg mb →
      let entry (e : Word × Word) : Nat × Nat := (16, recNat [e.1, e.2])
      (b = 32 → ok (.faultEvents pkg mb) (v.setPkg p { k with tcEvents := k.tcEvents.drop (n 0 1) })
        ([(1, (k.tcEvents.take (n 0 1)).length), (2, k.tcDropped.toNat)] ++ (k.tcEvents.take (n 0 1)).map entry)) ∧
      (b ≠ 32 → let w := v.vi p b
        ok (.faultEvents pkg mb) (v.setVi p b { w with events := w.events.drop (n 0 1) })
          ([(1, (w.events.take (n 0 1)).length), (2, w.evDropped.toNat)] ++ (w.events.take (n 0 1)).map entry))) ∧
    (Asked s msgThreads pkg mb → records (.faultThreads pkg mb) (taken y.threadFaults false).1 y.threadDropped
      (v.setDie d { y with threadFaults := (taken y.threadFaults false).2 })) ∧
    (Asked s msgMemory pkg mb → records (.faultMemory pkg mb) (taken y.memFaults true).1 y.memDropped
      (v.setDie d { y with memFaults := (taken y.memFaults true).2 })) ∧
    (Asked s msgRelease pkg mb → ∃ u, exec (.faultRelease pkg mb) s = .next u ∧ Replied u m p b 0 0 [] ∧ (u.thread (n 0 4)).st = .free) ∧
    (Asked s msgPackage pkg mb → let dies := (List.range 8).map (fun i => v.die (p * 8 + i))
      ok (.faultPackage pkg mb) v ([(1, k.beacon.toNat), (1, (dies.zipIdx.filter (fun e => e.1.st != .inService)).foldl (fun m e => m + 2 ^ e.2) 0)] ++
        dies.map (fun y => (1, y.causeCode)))) ∧
    (Asked s msgResetPackage pkg mb → k.phase = .run → ∃ u, exec (.resetPackage pkg mb) s = .next u ∧ (u.pkg p).phase = .resetting ∧
      (u.pkg p).preserve = (n 0 1 == 1) ∧ (u.pkg p).epoch = k.epoch + 1 ∧ (u.mb p b).owned = false)

/-- The FIRMWARE, LINK, POINTS and DIAG classes and the swaps of a live update (R154, R302, R303, R348, R350, R368, R371, R501, R527 to R530, R532, R556,
R558, R559): what each message does and answers once it passes the tests of R508; a core whose new image starts, and one that resumes its earlier one.
Model's choices: logs 40, 65, 70. -/
def Obligations.MaintenanceMessages : Prop :=
  (∀ (s : State) (pkg : BitVec 8) (mb : BitVec 6) (chk : ImageCheck),
    let p := pkg.toNat
    let b := mb.toNat
    let v := popped s pkg
    let k := v.pkg p
    let x := asker s pkg mb
    let n (off size : Nat) : Nat := fld x.body off size
    let d := p * 8 + n 0 1 % 8
    let y := v.die d
    let ok (c : Instr) (t : State) (l : List (Nat × Nat)) : Prop := exec c s = .next (t.answerMb p b 0 0 (packBody l) false)
    let waits (c : Instr) (u : State) (w : MbWait) : Prop := exec c s = .next u ∧ (u.mb p b).wait = w ∧ u.threads = s.threads ∧ SameBytes s u
    (Asked s msgFwQuery pkg mb → ok (.firmwareQuery pkg mb) v ([(2, Config.romRevision.toNat)] ++ (List.range 8).map (fun i => (2, (v.die (p * 8 + i)).rev.toNat)) ++
      [(2, match k.stagedImage with | some i => (imageRev (some i)).toNat | none => 0), (4, k.staged.length), (1, fwCode k.fwState)])) ∧
    (Asked s msgStage pkg mb → ok (.firmwareStage pkg mb) (v.modPkg p (fun k => { k with
      staged := k.staged ++ (x.body.drop 6).take (n 4 2)
      fwState := .staging
      stagedBy := b
      stagedImage := none })) []) ∧
    (Asked s msgStageHost pkg mb → ∃ u, waits (.firmwareStageHost pkg mb) u .hostRead ∧ (u.pkg p).fwState = .staging ∧ (u.pkg p).stagedBy = b) ∧
    (Asked s (msgCommit chk) pkg mb → ∃ u, waits (.firmwareCommit pkg mb chk) u .commit ∧
      (∀ i r, swapOrder (n 0 1) = i :: r → (u.pkg p).fwState = .swapping ∧ (u.pkg p).stagedImage = some chk.info ∧ (u.pkg p).swapQueue = i :: r ∧
        (u.die (p * 8 + i)).swapping = some k.tick)) ∧
    (Asked s msgDiscard pkg mb → ok (.firmwareDiscard pkg mb) (v.modPkg p (fun k => { k with
      fwState := .idle
      staged := []
      stagedImage := none })) []) ∧
    (let q := v.port d (n 1 1)
     let far (f : PosRec → Nat) : Nat := (q.far.map f).getD 0
     Asked s msgPort pkg mb → ok (.linkPort pkg mb) v [(1, portCode q.st), (1, q.width), (1, q.usable.toNat), (1, q.fenced.toNat), (1, q.isOpen.toNat),
      (1, far (·.pkg.toNat)), (1, far (·.die.toNat)), (1, far (·.port.toNat)), (2, far (·.pepoch.toNat)), (4, q.replays.toNat), (4, q.retrains.toNat),
      (4, y.badPkt.toNat), (4, y.staleRsp.toNat), (4, y.routeLost.toNat)]) ∧
    (Asked s msgRetrain pkg mb → v.neverTrains p (n 0 1 % 8) (n 1 1) = false → ∃ u, waits (.linkRetrain pkg mb) u (.retrain (d * 4 + n 1 1)) ∧
      ((s.port d (n 1 1)).st ≠ .fenced → (u.port d (n 1 1)).st = .training)) ∧
    (Asked s msgUnfence pkg mb →
      (n 2 2 < 0x34 → let q := n 2 2 - 0x30
        ∃ u, waits (.linkUnfence pkg mb) u (.retrain (d * 4 + q)) ∧ (u.port d q).fenced = (s.port d q).fenced &&& ~~~(BitVec.ofNat 4 (n 4 1))) ∧
      (0x34 ≤ n 2 2 → let j := n 2 2 - 0x34
        ∃ u, exec (.linkUnfence pkg mb) s = .next u ∧ u.threads = s.threads ∧ (u.mb p b).done = true ∧
          (u.junction d j).fence = if s.dieUp (p * 8 + jAcross (dieNo d) j) then .none else .neighbour)) ∧
    (Asked s msgRoutes pkg mb → ok (.linkRoutes pkg mb) v ((4, y.map.version.toNat) :: (List.range 128).map (fun i =>
      (1, if 128 * n 1 1 + i = p then 0xFE else tget y.routes (128 * n 1 1 + i) 0xFF)))) ∧
    (Asked s msgJunctions pkg mb → let js := (List.range 3).map (fun j => v.junction d j)
      ok (.linkJunctions pkg mb) v (js.map (fun j => (1, b2n (j.fence == .none))) ++ js.map (fun j => (4, j.replays.toNat)))) ∧
    (let r := tget y.rtables (n 1 1) {}
     let set (f : RTable) : State := v.setDie d { y with rtables := tset y.rtables (n 1 1) f }
     let e := tget r.ex (n 2 2) {}
     (Asked s msgPtGrant pkg mb → ok (.pointsGrant pkg mb) (set (if n 3 1 = 0 then {} else { vi := some (n 2 1), rmax := n 3 1, ex := [] })) []) ∧
     (Asked s msgPtInterval pkg mb → ok (.pointsInterval pkg mb) (v.modPkg p (fun k => { k with revMs := n 0 4, lastRev := k.tick })) []) ∧
     (Asked s msgPtPin pkg mb → ok (.pointsPin pkg mb) (set { r with
       ex := tset r.ex (n 2 2) (if n 4 1 = 0 then { e with pinned := false } else { e with reps := n 4 1, pinned := true }) }) []) ∧
     (Asked s msgPtRead pkg mb → let num := min 40 (4096 - n 2 2)
      let ex (i : Nat) : Expert := if i < num then tget r.ex (n 2 2 + i) {} else { hist := 0, reps := 0 }
      ok (.pointsRead pkg mb) v ([(1, if r.vi.isSome then r.rmax else 0), (1, num)] ++ (List.range 40).map (fun i => (4, (ex i).hist.toNat)) ++
        (List.range 40).map (fun i => (1, (ex i).reps)))) ∧
     (Asked s msgPtClear pkg mb → ok (.pointsClear pkg mb) (set { r with ex := tmap r.ex (fun _ e => { e with hist := 0 }) }) [])) ∧
    (Asked s msgCounters pkg mb → ok (.diagCounters pkg mb) v ((List.range 7).map (fun i => (4, (y.counters.getD i 0).toNat)))) ∧
    (Asked s msgUnits pkg mb → ok (.diagUnits pkg mb) v [(8, (v.gates d).toNat), (8, y.table.toNat)]) ∧
    (Asked s msgSetUnit pkg mb → let u := n 2 2
      (n 4 1 = 0 → ok (.diagSetUnit pkg mb) (v.setDie d { y with table := y.table &&& ~~~(BitVec.ofNat 64 (2 ^ u)) }) []) ∧
      (n 4 1 = 1 → (v.unitOpen d u = true → ok (.diagSetUnit pkg mb) v []) ∧
        (v.unitOpen d u = false → ∃ t, waits (.diagSetUnit pkg mb) t (.unitIn d u) ∧ u ∈ (t.die d).returns))) ∧
    (Asked s msgEcho pkg mb → exec (.diagEcho pkg mb) s = .next (v.answerMb p b 0 0 (x.body.take 224) false))) ∧
  (∀ (s : State) (die : BitVec 11) (since : Nat),
    let d := die.toNat
    let p := d / 8
    let k := s.pkg p
    s.dieUp d = true → (s.die d).swapping = some since →
    (∀ i, k.stagedImage = some i → k.tick ≤ since + 2000000 → ∃ u, exec (.turjaSwapDone die) s = .next u ∧ u.threads = s.threads ∧ SameBytes s u ∧
      (u.die d).rev = i.major ++ i.minor ∧ (u.die d).heldEvents = [] ∧ (k.swapQueue = [d % 8] → (u.die d).swapping = none ∧
        (u.pkg p).fwState = if k.swapFailed = [] then .idle else .checked)) ∧
    (since + 2000000 ≤ k.tick → ∃ u, exec (.turjaSwapTimeout die) s = .next u ∧ u.threads = s.threads ∧ SameBytes s u ∧ (u.die d).rev = (s.die d).rev ∧
      (k.swapQueue = [d % 8] → (u.die d).swapping = none ∧ (u.pkg p).fwState = .checked ∧ (d % 8) ∈ (u.pkg p).swapFailed)))

/-- Repeats, the door of a message and the ends of waits (R138, R475, R504, R506, R508 to R512): a repeat of the last SEQ is answered from the store with its REPEAT
bit; an unassigned class or code, or a body too short, is BAD_ARG; a waited message is answered when its wait ends.
Model's choices: logs 42, 59. -/
def Obligations.RepeatsAndWaits : Prop :=
  (∀ (s : State) (pkg : BitVec 8) (vi : BitVec 5),
    let p := pkg.toNat
    let b := vi.toNat
    let m := s.mb p b
    s.mbPresent p b = true → m.owned = false → (s.die (p * 8)).swapping = none → (s.vi p b).st ≠ .resetting → (s.pkg p).image.isSome = true →
    (∀ e, m.stored.find? (fun e => e.seq.toNat == m.seq) = some e → e.cls.toNat = m.cls → e.code.toNat = m.code →
      ∃ u, exec (.mailboxGo pkg vi) s = .next u ∧ Kept s u ∧ u.dies = s.dies ∧ (u.mb p b).done = true ∧ (u.mb p b).stored = m.stored ∧
        (u.pkg p).goQueue = (s.pkg p).goQueue ∧ ∀ i, i < e.rsp.length → (u.mb p b).rsp.getD i 0 = if i = 7 then e.rsp.getD 7 0 ||| 2 else e.rsp.getD i 0) ∧
    (m.stored.find? (fun e => e.seq.toNat == m.seq) = none →
      (bodyNeed m.cls m.code = none ∨ 256 < m.len ∨ ∃ n, bodyNeed m.cls m.code = some n ∧ m.len < 16 + n) →
      ∃ u, exec (.mailboxGo pkg vi) s = .next u ∧ Kept s u ∧ u.dies = s.dies ∧ Replied u m p b 2 0xFFFFFFFF [] ∧ (u.pkg p).goQueue = (s.pkg p).goQueue)) ∧
  (∀ (s : State) (pkg : BitVec 8) (mb : BitVec 6),
    let p := pkg.toNat
    let b := mb.toNat
    let m := s.mb p b
    s.mbPresent p b = true → m.owned = true → (s.die (p * 8)).swapping = none →
    let replies (status detail : Nat) (body : List Byte) : Prop := exec (.waitedMessageReply pkg mb) s = .next (s.answerMb p b status detail body false)
    (∀ v, m.wait = .viReturn v → (s.vi p v).st ≠ .resetting → replies 0 0 []) ∧
    (∀ dies, m.wait = .pin dies → (∀ i ∈ dies, (s.die (p * 8 + i)).subst.slewing = false) → replies 0 0 []) ∧
    (∀ r, m.wait = .abort r → (∀ c ∈ (s.ring p b r).held, c.result = none) → replies 0 0 []) ∧
    (m.wait = .commit → (s.pkg p).fwState ≠ .swapping → if (s.pkg p).swapFailed = [] then replies 0 0 [] else replies 7 (maskOf (s.pkg p).swapFailed) []) ∧
    (∀ d u, m.wait = .unitIn d u → s.dieUp d = true → u ∉ (s.die d).returns → if s.unitOpen d u then replies 0 0 [] else replies 7 0 []) ∧
    (∀ n, m.wait = .retrain n → s.dieUp (n / 4) = true → (s.port (n / 4) (n % 4)).st = .up → replies 0 0 (packBody [(1, (s.port (n / 4) (n % 4)).width)])) ∧
    (∀ rs tags, m.wait = .sections rs tags → s.oldRequests p b rs tags = false → ∃ u, exec (.waitedMessageReply pkg mb) s = .next u ∧
      Replied u m p b 0 0 [] ∧ u.threads = s.threads ∧ u.hostMem = s.hostMem) ∧
    (∀ rs tags, m.wait = .sections rs tags → s.oldRequests p b rs tags = true → exec (.waitedMessageReply pkg mb) s = .next s) ∧
    (∀ st det body, m.wait = .answer st det body → replies st det body))

/-! ### Start-up and resets -/

/-- Power-good, straps, the image, the station pins, the beacon and PERST# (R533 to R538, R568 to R573, R577, R578, R582).
Model's choices: logs 43, 71, 72. -/
def Obligations.Bringup : Prop :=
  ∀ (s : State) (pkg : BitVec 8),
    let p := pkg.toNat
    let k := s.pkg p
    let rail := (s.die (p * 8)).subst.st
    let becomes (c : Instr) (f : Pkg → Prop) : Prop := ∃ u, exec c s = .next u ∧ f (u.pkg p)
    let keeps (c : Instr) (f : Pkg → Prop) : Prop := ∃ u, exec c s = .next u ∧ Kept s u ∧ u.dies = s.dies ∧ f (u.pkg p)
    (k.phase = .off → ∃ u, exec (.powerGood pkg) s = .next u ∧ (u.pkg p).phase = .strap ∧ (u.pkg p).epoch ≠ 0 ∧ (u.pkg p).tick = 0 ∧
      (u.vi p 0).st = .free ∧ (∀ v, v ≠ 0 → (u.vi p v).st = .disabled) ∧
      ∀ i, i < 8 → (u.die (p * 8 + i)).epoch ≠ 0 ∧ (u.die (p * 8 + i)).rev = Config.romRevision ∧ (u.die (p * 8 + i)).subst.st = .off ∧
        ∀ off, off < 2 ^ 37 → memGet u.mem ((p * 8 + i) * 2 ^ 37 + off) = 0) ∧
    (k.phase ≠ .off → ∃ u, exec (.powerGoodLoss pkg) s = .next u ∧ u.pkg p = { ({} : Pkg) with perst0 := k.perst0, perst1 := k.perst1 } ∧
      (∀ q, q ≠ p → u.pkg q = { s.pkg q with shCmds := (u.pkg q).shCmds }) ∧ (∀ n, n / 32768 = p → (u.thread n).st = .free) ∧ ∀ n, n / 32768 ≠ p → u.thread n = s.thread n) ∧
    (∀ mv us, s.powered p = true → k.phase ≠ .beacon → k.phase ≠ .off → 13500 < mv → 10 ≤ us → ∃ u, exec (.vinOvervoltage pkg mv us) s = .next u ∧
      (u.pkg p).phase = .beacon ∧ (u.pkg p).beacon = 0x41 ∧ ∀ i, i < 8 → (u.die (p * 8 + i)).subst.st = .shutDown) ∧
    (k.phase = .strap →
      (∀ levels, k.samples.length < 5 → [1, 3, 8, 9, 10].getD k.samples.length 0 * 100000 ≤ k.tick → keeps (.strapSample pkg levels) (fun y =>
        y = { k with samples := k.samples ++ [levels], strapFault := k.strapFault || levels.contains .mid })) ∧
      (∀ (pin : BitVec 4) shift crosses, 2 ≤ pin.toNat → pin.toNat ≤ 11 → k.tested.length + 2 = pin.toNat → 500000 + (pin.toNat - 2) * 20000 ≤ k.tick →
        keeps (.strapTest pkg pin shift crosses) (fun y =>
          y = { k with tested := k.tested ++ [pin.toNat], strapFault := k.strapFault || decide (shift < 50) || crosses })) ∧
      (k.samples.length = 5 → k.tested.length = 10 → 1000000 ≤ k.tick →
        let l := k.samples.headD []
        let level (i : Nat) : Nat := b2n (l.getD (i - 2) .low == .high)
        let good := !k.strapFault && k.samples.all (fun x => x == l)
        (good = true → level 3 = 0 → keeps (.strapLatch pkg) (fun y => y.phase = .load ∧ y.pulses = 1 ∧ y.clean = true ∧ y.lead = (level 2 == 1) ∧ y.boot = false ∧
          y.slot = level 4 + 2 * level 5 ∧ y.tray = level 6 + 2 * level 7 + 4 * level 8 + 8 * level 9 ∧ y.rack = level 10 + 2 * level 11 ∧ y.link0 = (k.perst0 && rail == .on))) ∧
        (good = false → keeps (.strapLatch pkg) (fun y => y.phase = .load ∧ y.clean = false ∧ y.lead = false ∧ y.boot = false ∧ y.rack = 0 ∧ y.tray = 0 ∧
          y.slot = 0)) ∧
        (good = true → level 3 = 1 → rail = .on → becomes (.strapLatch pkg) (fun y => y.phase = .run ∧ y.boot = true ∧ y.image = k.image)))) ∧
    (∀ (pin : BitVec 4) shift crosses, pin.toNat < 2 ∨ 11 < pin.toNat → exec (.strapTest pkg pin shift crosses) s = .fault .noSuchUnit) ∧
    (∀ img, k.phase = .load → rail = .on → becomes (.imageLoaded pkg img) (fun y => y.phase = .run ∧ y.pulses = 2 ∧
      y.image = if img.ok = true ∧ k.boot = false then some img else k.image)) ∧
    (k.phase = .run → k.beatAt ≤ k.tick → k.tick ≤ k.checkin + 200000000 → keeps (.heartbeatToggle pkg) (fun y => y.heartbeat = true ∧
      y.stn3 = (!k.heartbeat || !k.stn3) ∧ y.beatAt = k.tick + 50000000)) ∧
    (k.phase = .beacon → k.quarterAt ≤ k.tick → keeps (.beaconQuarter pkg) (fun y => y.quarter = (if k.quarter = 4 then 0 else (k.quarter + 1) % 4) ∧
      y.quarterAt = k.tick + 25000000)) ∧
    (∀ us, k.perst0 = true → 100 ≤ us → k.phase = .run → becomes (.perst0Assert pkg us) (fun y => y.perst0 = false ∧ y.link0 = false ∧ y.phase = .resetting ∧
      y.preserve = false ∧ y.epoch = k.epoch + 1)) ∧
    (∀ us, k.perst0 = false ∨ us < 100 → keeps (.perst0Assert pkg us) (fun y => y = { k with perst0 := false })) ∧
    keeps (.perst0Deassert pkg) (fun y => y.perst0 = true ∧ y.phase = k.phase ∧ (k.phase = .run → y.link0 = true)) ∧
    (∀ us, k.perst1 = true → 100 ≤ us → s.x8x8 p = true → becomes (.perst1Assert pkg us) (fun y => y.perst1 = false ∧ y.link4 = false ∧ y.phase = k.phase)) ∧
    (∀ us, k.perst1 = false ∨ us < 100 ∨ s.x8x8 p = false → keeps (.perst1Assert pkg us) (fun y => y = { k with perst1 := false })) ∧
    keeps (.perst1Deassert pkg) (fun y => y = { k with perst1 := true, link4 := k.link4 || s.x8x8 p })

/-- Resets of dies and packages, and reconciliation (R6, R81, R133, R345, R368, R545 to R549, R556 to R558): a die that resets leaves service with its next epoch and
ends its threads; it returns within 50 ms, with the section
tables in its yard SRAM, or is out of service; a package after its reset; a pass over the unit tables every 5 ms; a drained unit.
Model's choices: logs 27, 28, 50, 81. -/
def Obligations.ResetsAndReconciliation : Prop :=
  (∀ (s : State) (die : BitVec 11),
    let d := die.toNat
    let p := d / 8
    let x := s.die d
    let k := s.pkg p
    (s.dieUp d = true → d % 8 ≠ 0 → x.swapping = none → ∃ u, exec (.dieReset die) s = .next u ∧ (u.die d).st = .resetting ∧ (u.die d).epoch = x.epoch + 1 ∧
      (u.die d).resetAt = k.tick ∧ (u.die d).outst = [] ∧ (u.die d).signals = [] ∧ (u.die d).arrivals = [] ∧ (u.pkg p).phase = .run ∧
      ∀ n, n / 4096 = d → u.thread n = {}) ∧
    (s.dieUp d = true → d % 8 = 0 → ∃ u, exec (.dieReset die) s = .next u ∧ (u.pkg p).phase = .resetting ∧ (u.pkg p).preserve = true ∧
      (u.pkg p).epoch = k.epoch + 1 ∧ (u.die d).epoch = x.epoch + 1) ∧
    (k.phase = .run → x.st = .resetting →
      (x.resetAt + 5000000 ≤ k.tick → ∃ u, exec (.dieResetTimeout die) s = .next u ∧ u.threads = s.threads ∧ SameBytes s u ∧ (u.die d).st = .outOfService ∧
        (u.die d).cause = 3) ∧
      (x.subst.st = .on → Memory.wf s.mem = true → (∀ e ∈ k.l2, e.1 < 2 ^ 16 ∧ e.2 < 240) → ∃ u, exec (.dieResetComplete die) s = .next u ∧
        u.threads = s.threads ∧ u.hostMem = s.hostMem ∧ SameOutside s u (mkPa 1 d (tableArea x)) 0x800000 ∧ (u.die d).st = .inService ∧
        (u.die d).epoch = x.epoch ∧ (u.die d).cause = 0 ∧
        ∀ e n, tget? k.l2 e = some n → (k.l2.map (·.1)).Nodup → (k.l2.map (·.2)).Nodup →
          leNat (u.readPa (mkPa 1 d (level1Off x (e / 2048) (e % 2048))) 8) = 2 ^ 63 + n))) ∧
  (∀ (s : State) (pkg : BitVec 8),
    let p := pkg.toNat
    let k := s.pkg p
    k.phase = .resetting →
    ((s.die (p * 8)).subst.st = .on → ∃ u, exec (.packageResetComplete pkg) s = .next u ∧ u.threads = s.threads ∧ SameBytes s u ∧ (u.pkg p).phase = .run ∧
      (u.pkg p).pulses = 2 ∧ (u.pkg p).epoch = k.epoch ∧ ∀ i, i < 8 → (u.die (p * 8 + i)).st = if (s.die (p * 8 + i)).subst.st = .on then .inService else .outOfService) ∧
    (k.resetAt + 20000000 ≤ k.tick → ∃ u, exec (.packageResetTimeout pkg) s = .next u ∧ Kept s u ∧ u.dies = s.dies ∧ (u.pkg p).phase = .beacon ∧
      (u.pkg p).beacon = 0x31 ∧ (u.pkg p).pulses = 3)) ∧
  (∀ (s : State) (die : BitVec 11) (failed : List Nat) (unit : BitVec 9),
    let d := die.toNat
    let u := unit.toNat
    let x := s.die d
    let now := (s.pkg (d / 8)).tick
    s.dieUp d = true →
    (now < x.lastPass + 500000 → exec (.reconcilePass die failed) s = .next s) ∧
    (x.swapping = none → x.lastPass + 500000 ≤ now → ∃ t, exec (.reconcilePass die failed) s = .next t ∧ Kept s t ∧ (t.die d).returns = [] ∧ (t.die d).lastPass = now ∧ (d % 8 = 0 → (t.pkg (d / 8)).checkin = now) ∧
      ∀ n, n ∈ reconciled → let g := (x.gate.getLsbD n, x.table.getLsbD n)
        let back := x.returns.contains n && !failed.contains n
        (back = true → (t.die d).gate.getLsbD n = true ∧ (t.die d).table.getLsbD n = true) ∧
        (back = false → g = (true, true) ∨ g = (false, false) → ((t.die d).gate.getLsbD n, (t.die d).table.getLsbD n) = g) ∧
        (back = false → g = (false, true) → (t.die d).gate.getLsbD n = false ∧ (t.die d).table.getLsbD n = false) ∧
        (back = false → g = (true, false) → (t.die d).table.getLsbD n = false ∧ (t.die d).gate.getLsbD n = s.unitBusy d n)) ∧
    (∀ since, tget? x.drains u = some since → u < 64 →
      (s.unitBusy d u = false → exec (.drainTimeout die unit) s =
        .next (s.setDie d { x with gate := x.gate &&& ~~~(BitVec.ofNat 64 (2 ^ u)), drains := terase x.drains u })) ∧
      (since + 200000 ≤ now → ∃ t, exec (.drainTimeout die unit) s = .next t ∧ (t.die d).gate.getLsbD u = false ∧ tget? (t.die d).drains u = none)))
end

