-- ==== Sys2Proof/Laws/Memory.lean ====
section
/-! SUPPORT. Laws of the byte memories: reading after writing, and that every operation keeps the canonical form. -/
set_option Elab.async false
namespace Sys2Proof.Machine

/-- Every listed address lies above a bound. -/
def above (m : List Host.Cell) (k : Nat) : Prop := ∀ c ∈ m, k < c.1

theorem wf_cons (a : Nat) (b : Byte) (r : List Host.Cell) :
    Memory.wf ((a, b) :: r) = true ↔ b ≠ 0 ∧ above r a ∧ Memory.wf r = true := by
  induction r generalizing a b with
  | nil => simp [Memory.wf, above]
  | cons e r ih =>
    obtain ⟨a', b'⟩ := e
    simp only [Memory.wf, Bool.and_eq_true, bne_iff_ne, decide_eq_true_eq, and_assoc]
    constructor
    · rintro ⟨h1, h2, h3⟩
      refine ⟨h1, ?_, h3⟩
      have := (ih a' b').1 h3
      intro c hc
      rcases List.mem_cons.1 hc with rfl | hc
      · exact h2
      · exact Nat.lt_trans h2 (this.2.1 c hc)
    · rintro ⟨h1, h2, h3⟩
      exact ⟨h1, h2 (a', b') (by simp), h3⟩

theorem memGet_above {m : List Host.Cell} {k : Nat} (h : above m k) : memGet m k = 0 := by
  induction m with
  | nil => rfl
  | cons e r ih =>
    obtain ⟨a, b⟩ := e
    have h1 : k < a := h (a, b) (by simp)
    simp [memGet, Nat.ne_of_gt h1, ih (fun c hc => h c (List.mem_cons_of_mem _ hc))]

theorem above_memSet {m : List Host.Cell} {k a : Nat} (v : Byte) (h : above m a) (hk : a < k) : above (memSet m k v) a := by
  induction m with
  | nil => by_cases hv : v = 0 <;> simp [memSet, hv, above, hk]
  | cons e r ih =>
    obtain ⟨x, y⟩ := e
    have hr : above r a := fun c hc => h c (List.mem_cons_of_mem _ hc)
    have hx : a < x := h (x, y) (by simp)
    intro c hc
    by_cases h1 : k < x
    · by_cases hv : v = 0
      · simp only [memSet, h1, hv, if_true] at hc; exact h c hc
      · simp only [memSet, h1, hv, if_true, if_false] at hc
        rcases List.mem_cons.1 hc with rfl | hc
        · exact hk
        · exact h c hc
    · by_cases h2 : x = k
      · by_cases hv : v = 0
        · simp only [memSet, h2, hv, if_true] at hc; exact hr c (by simpa using hc)
        · simp only [memSet, h2, hv, if_true, if_false, Nat.lt_irrefl] at hc
          rcases List.mem_cons.1 hc with rfl | hc
          · exact hk
          · exact hr c hc
      · simp only [memSet, h1, h2, if_false] at hc
        rcases List.mem_cons.1 hc with rfl | hc
        · exact hx
        · exact ih hr c hc

theorem wf_memSet {m : List Host.Cell} (k : Nat) (v : Byte) (h : Memory.wf m = true) : Memory.wf (memSet m k v) = true := by
  induction m with
  | nil =>
    by_cases hv : v = 0
    · simp only [memSet, if_pos hv]; rfl
    · simp only [memSet, if_neg hv, Memory.wf]; exact bne_iff_ne.2 hv
  | cons e r ih =>
    obtain ⟨a, b⟩ := e
    obtain ⟨h1, h2, h3⟩ := (wf_cons a b r).1 h
    by_cases hk : k < a
    · by_cases hv : v = 0
      · simpa [memSet, hk, hv] using h
      · simp only [memSet, hk, hv, if_true, if_false]
        refine (wf_cons k v _).2 ⟨hv, ?_, h⟩
        intro c hc
        rcases List.mem_cons.1 hc with rfl | hc
        · exact hk
        · exact Nat.lt_trans hk (h2 c hc)
    · by_cases hak : a = k
      · by_cases hv : v = 0
        · simpa [memSet, hak, hv] using h3
        · simp only [memSet, hak, hv, if_true, if_false, Nat.lt_irrefl]
          exact (wf_cons k v r).2 ⟨hv, hak ▸ h2, h3⟩
      · simp only [memSet, hk, hak, if_false]
        exact (wf_cons a b _).2 ⟨h1, above_memSet v h2 (by omega), ih h3⟩

/-- What a byte reads as after one byte is written. -/
theorem memGet_memSet {m : List Host.Cell} (k j : Nat) (v : Byte) (h : Memory.wf m = true) :
    memGet (memSet m k v) j = if j = k then v else memGet m j := by
  induction m with
  | nil =>
    by_cases hv : v = 0
    · simp only [memSet, if_pos hv, memGet]; split
      · exact hv.symm
      · rfl
    · simp only [memSet, if_neg hv, memGet, eq_comm]
  | cons e r ih =>
    obtain ⟨a, b⟩ := e
    obtain ⟨h1, h2, h3⟩ := (wf_cons a b r).1 h
    by_cases hk : k < a
    · have hab : above ((a, b) :: r) k := by
        intro c hc
        rcases List.mem_cons.1 hc with rfl | hc
        · exact hk
        · exact Nat.lt_trans hk (h2 c hc)
      by_cases hv : v = 0
      · simp only [memSet, hk, hv, if_true]
        by_cases hj : j = k
        · rw [if_pos hj, hj]; exact memGet_above hab
        · rw [if_neg hj]
      · simp only [memSet, hk, hv, if_true, if_false, memGet]
        by_cases hj : j = k
        · simp [hj]
        · simp [hj, Ne.symm hj]
    · by_cases hak : a = k
      · subst hak
        by_cases hv : v = 0
        · simp only [memSet, hv, if_true, Nat.lt_irrefl, if_false, memGet]
          by_cases hj : j = a
          · rw [if_pos hj, hj]; exact memGet_above h2
          · simp [hj, Ne.symm hj]
        · simp only [memSet, hv, if_true, Nat.lt_irrefl, if_false, memGet]
          by_cases hj : j = a
          · simp [hj]
          · simp [hj, Ne.symm hj]
      · simp only [memSet, hk, hak, if_false, memGet]
        by_cases hj : a = j
        · subst hj; simp [hak]
        · simp only [hj, if_false, ih h3]

theorem wf_memWrite {m : List Host.Cell} (a : Nat) (b : List Byte) (h : Memory.wf m = true) : Memory.wf (memWrite m a b) = true := by
  induction b generalizing m a with
  | nil => exact h
  | cons x r ih => exact ih (a + 1) (wf_memSet a x h)

/-- A byte after bytes are written at an address. -/
theorem memGet_memWrite {m : List Host.Cell} (a j : Nat) (b : List Byte) (h : Memory.wf m = true) :
    memGet (memWrite m a b) j = if a ≤ j ∧ j < a + b.length then b.getD (j - a) 0 else memGet m j := by
  induction b generalizing m a with
  | nil =>
    have h0 : ¬ (a ≤ j ∧ j < a + ([] : List Byte).length) := by simp only [List.length_nil]; omega
    rw [if_neg h0]; rfl
  | cons x r ih =>
    simp only [memWrite, ih (a + 1) (wf_memSet a x h), memGet_memSet a j x h, List.length_cons]
    by_cases h1 : a + 1 ≤ j ∧ j < a + 1 + r.length
    · rw [if_pos h1, if_pos (by omega)]
      have : j - a = (j - (a + 1)) + 1 := by omega
      rw [this, List.getD_cons_succ]
    · rw [if_neg h1]
      by_cases h2 : j = a
      · subst h2; rw [if_pos rfl, if_pos (by omega)]; simp
      · rw [if_neg h2, if_neg (by omega)]

theorem wf_memWriteMasked {m : List Host.Cell} (a : Nat) (b : List (Bool × Byte)) (h : Memory.wf m = true) :
    Memory.wf (memWriteMasked m a b) = true := by
  induction b generalizing m a with
  | nil => exact h
  | cons x r ih =>
    obtain ⟨k, y⟩ := x
    cases k
    · exact ih (a + 1) h
    · exact ih (a + 1) (wf_memSet a y h)

/-- A byte after selected bytes are written. -/
theorem memGet_memWriteMasked {m : List Host.Cell} (a j : Nat) (b : List (Bool × Byte)) (h : Memory.wf m = true) :
    memGet (memWriteMasked m a b) j =
      if a ≤ j ∧ j < a + b.length ∧ (b.getD (j - a) (false, 0)).1 = true then (b.getD (j - a) (false, 0)).2 else memGet m j := by
  induction b generalizing m a with
  | nil => simp [memWriteMasked]
  | cons x r ih =>
    obtain ⟨k, y⟩ := x
    have hw : Memory.wf (if k then memSet m a y else m) = true := by cases k; exact h; exact wf_memSet a y h
    simp only [memWriteMasked, ih (a + 1) hw, List.length_cons]
    by_cases hj : a + 1 ≤ j
    · have e : j - a = (j - (a + 1)) + 1 := by omega
      rw [e, List.getD_cons_succ]
      have hm : memGet (if k then memSet m a y else m) j = memGet m j := by
        cases k
        · rfl
        · simp only [if_true]; rw [memGet_memSet a j y h, if_neg (by omega)]
      rw [hm]
      by_cases h2 : j < a + 1 + r.length ∧ (r.getD (j - (a + 1)) (false, 0)).1 = true
      · rw [if_pos ⟨hj, h2⟩, if_pos ⟨by omega, by omega, h2.2⟩]
      · rw [if_neg (fun x => h2 x.2), if_neg (fun x => h2 ⟨by omega, x.2.2⟩)]
    · rw [if_neg (fun x => hj x.1)]
      by_cases h2 : j = a
      · subst h2
        cases k
        · simp
        · simp [memGet_memSet j j y h]
      · have hm : memGet (if k then memSet m a y else m) j = memGet m j := by
          cases k
          · rfl
          · simp only [if_true]; rw [memGet_memSet a j y h, if_neg h2]
        rw [hm, if_neg (by omega)]

theorem above_filter {m : List Host.Cell} {a : Nat} (f : Host.Cell → Bool) (h : above m a) : above (m.filter f) a :=
  fun c hc => h c (List.mem_filter.1 hc).1

/-- Removing cells keeps the canonical form. -/
theorem wf_filter {m : List Host.Cell} (f : Host.Cell → Bool) (h : Memory.wf m = true) : Memory.wf (m.filter f) = true := by
  induction m with
  | nil => rfl
  | cons e r ih =>
    obtain ⟨a, b⟩ := e
    obtain ⟨h1, h2, h3⟩ := (wf_cons a b r).1 h
    by_cases hf : f (a, b) = true
    · rw [List.filter_cons_of_pos hf]; exact (wf_cons a b _).2 ⟨h1, above_filter f h2, ih h3⟩
    · rw [List.filter_cons_of_neg hf]; exact ih h3

theorem wf_memClear {m : List Host.Cell} (lo hi : Nat) (h : Memory.wf m = true) : Memory.wf (memClear m lo hi) = true := wf_filter _ h

theorem memGet_memClear (m : List Host.Cell) (lo hi a : Nat) : memGet (memClear m lo hi) a = if lo ≤ a ∧ a < hi then 0 else memGet m a := by
  induction m with
  | nil => simp [memClear, memGet]
  | cons e r ih =>
    obtain ⟨x, y⟩ := e
    unfold memClear at ih ⊢
    by_cases hx : x < lo ∨ hi ≤ x
    · rw [List.filter_cons_of_pos (by simpa using hx)]
      simp only [memGet, ih]
      by_cases hxa : x = a
      · subst hxa; simp only [if_true]; rw [if_neg (by omega)]
      · simp [hxa]
    · rw [List.filter_cons_of_neg (by simpa using hx), ih]
      by_cases hxa : x = a
      · subst hxa; rw [if_pos (by omega), if_pos (by omega)]
      · simp [memGet, hxa]

@[simp] theorem memRead_length (m : List Host.Cell) (a n : Nat) : (memRead m a n).length = n := by
  induction n generalizing a with
  | zero => rfl
  | succ n ih => simp [memRead, ih]

theorem memRead_getD (m : List Host.Cell) (a n i : Nat) (h : i < n) : (memRead m a n).getD i 0 = memGet m (a + i) := by
  induction n generalizing a i with
  | zero => omega
  | succ n ih =>
    cases i with
    | zero => simp [memRead]
    | succ i => simp only [memRead, List.getD_cons_succ]; rw [ih (a + 1) i (by omega)]; congr 1; omega

theorem memRead_congr {m m' : List Host.Cell} (a n : Nat) (h : ∀ i, i < n → memGet m (a + i) = memGet m' (a + i)) : memRead m a n = memRead m' a n := by
  induction n generalizing a with
  | zero => rfl
  | succ n ih =>
    simp only [memRead]
    rw [show memGet m a = memGet m' a from h 0 (by omega)]
    congr 1
    exact ih (a + 1) (fun i hi => by have := h (i + 1) (by omega); rwa [show a + (i + 1) = a + 1 + i by omega] at this)

/-- Bytes written are read back. -/
theorem memRead_memWrite {m : List Host.Cell} (a : Nat) (b : List Byte) (h : Memory.wf m = true) : memRead (memWrite m a b) a b.length = b := by
  apply List.ext_getElem
  · simp
  · intro i h1 h2
    have e := memRead_getD (memWrite m a b) a b.length i h2
    rw [memGet_memWrite a (a + i) b h, if_pos (by omega), Nat.add_sub_cancel_left] at e
    simpa [List.getD_eq_getElem?_getD, List.getElem?_eq_getElem, h1, h2] using e

/-! ### The operations of State keep the canonical form -/

theorem wf_writePa {s : State} (pa : Nat) (b : List Byte) (h : Memory.wf s.mem = true) : Memory.wf (s.writePa pa b).mem = true := wf_memWrite pa b h
theorem wf_writeMasked {s : State} (pa : Nat) (b : List (Bool × Byte)) (h : Memory.wf s.mem = true) : Memory.wf (s.writeMasked pa b).mem = true :=
  wf_memWriteMasked pa b h
theorem wf_writeMerged {s : State} (pa : Nat) (b : List (Bool × Byte)) (w : List Bool) (h : Memory.wf s.mem = true) : Memory.wf (s.writeMerged pa b w).mem = true :=
  wf_memWriteMasked pa b h
theorem wf_hostWrite {s : State} (p a : Nat) (b : List Byte) (h : Memory.wf s.hostMem = true) : Memory.wf (s.hostWrite p a b).hostMem = true :=
  wf_memWrite _ b h

end Sys2Proof.Machine
end

