-- ==== Sys2Proof/Laws/Tab.lean ====
section
/-! SUPPORT. Laws of tables and of little-endian numbers: reading after writing, elsewhere and after removing. -/
set_option Elab.async false
namespace Sys2Proof.Machine

variable {α : Type}

@[simp] theorem tget?_tset_same (t : Tab α) (k : Nat) (v : α) : tget? (tset t k v) k = some v := by
  induction t with
  | nil => simp [tset, tget?]
  | cons e r ih =>
    obtain ⟨a, b⟩ := e
    by_cases h1 : k < a
    · simp [tset, tget?, h1]
    · by_cases h2 : a = k
      · simp [tset, tget?, h2]
      · simp [tset, tget?, h1, h2, ih]

theorem tget?_tset_other (t : Tab α) {k j : Nat} (v : α) (h : j ≠ k) : tget? (tset t k v) j = tget? t j := by
  induction t with
  | nil => simp [tset, tget?, Ne.symm h]
  | cons e r ih =>
    obtain ⟨a, b⟩ := e
    by_cases h1 : k < a
    · simp [tset, tget?, h1, Ne.symm h]
    · by_cases h2 : a = k
      · subst h2; simp [tset, tget?, Ne.symm h]
      · simp [tset, tget?, h1, h2, ih]

theorem tget?_tset (t : Tab α) (k j : Nat) (v : α) : tget? (tset t k v) j = if j = k then some v else tget? t j := by
  by_cases h : j = k
  · simp [h]
  · simp [h, tget?_tset_other t v h]

theorem tget_tset (t : Tab α) (k j : Nat) (v d : α) : tget (tset t k v) j d = if j = k then v else tget t j d := by
  unfold tget; rw [tget?_tset]; split <;> rfl

@[simp] theorem tget_tset_same (t : Tab α) (k : Nat) (v d : α) : tget (tset t k v) k d = v := by simp [tget_tset]

theorem tget_tset_other (t : Tab α) {k j : Nat} (v d : α) (h : j ≠ k) : tget (tset t k v) j d = tget t j d := by simp [tget_tset, h]

theorem tget?_tmap (t : Tab α) (f : Nat → α → α) (k : Nat) : tget? (tmap t f) k = (tget? t k).map (f k) := by
  induction t with
  | nil => rfl
  | cons e r ih =>
    obtain ⟨a, b⟩ := e
    by_cases h : a = k
    · subst h; simp [tmap, tget?]
    · simp only [tmap, List.map_cons, tget?, h, if_false]; exact ih

@[simp] theorem tget?_terase_same (t : Tab α) (k : Nat) : tget? (terase t k) k = none := by
  induction t with
  | nil => rfl
  | cons e r ih =>
    obtain ⟨a, b⟩ := e
    by_cases h : a = k
    · subst h; simpa [terase] using ih
    · simpa [terase, h, tget?] using ih

theorem tget?_terase_other (t : Tab α) {k j : Nat} (h : j ≠ k) : tget? (terase t k) j = tget? t j := by
  induction t with
  | nil => rfl
  | cons e r ih =>
    obtain ⟨a, b⟩ := e
    by_cases h1 : a = k
    · subst h1; simpa [terase, tget?, Ne.symm h] using ih
    · by_cases h2 : a = j
      · subst h2; simp [terase, tget?, h1]
      · simpa [terase, tget?, h1, h2] using ih

theorem tget?_mem {t : Tab α} {k : Nat} {v : α} (h : tget? t k = some v) : (k, v) ∈ t := by
  induction t with
  | nil => simp [tget?] at h
  | cons e r ih =>
    obtain ⟨a, b⟩ := e
    by_cases h1 : a = k
    · simp [tget?, h1] at h; subst h; simp [h1]
    · simp [tget?, h1] at h; exact List.mem_cons_of_mem _ (ih h)

@[simp] theorem leBytes_length (k n : Nat) : (leBytes k n).length = k := by
  induction k generalizing n with
  | zero => rfl
  | succ k ih => simp [leBytes, ih]

theorem leNat_lt (b : List Byte) : leNat b < 256 ^ b.length := by
  induction b with
  | nil => simp [leNat]
  | cons a r ih =>
    have h1 := a.isLt
    simp only [leNat, List.length_cons, Nat.pow_succ]
    omega

theorem leNat_leBytes (k n : Nat) : leNat (leBytes k n) = n % 256 ^ k := by
  induction k generalizing n with
  | zero => simp [leBytes, leNat, Nat.mod_one]
  | succ k ih =>
    have h : n % 256 ^ (k + 1) = n % 256 + 256 * (n / 256 % 256 ^ k) := by
      rw [Nat.pow_succ, Nat.mul_comm, Nat.mod_mul]
    rw [h, leBytes, leNat, ih, BitVec.toNat_ofNat]

end Sys2Proof.Machine
end

