-- ==== Sys2Proof/Laws/State.lean ====
section
/-! SUPPORT. Laws of State: what each named update leaves as it was, field by field, and what each part reads as after
a part is written. -/
set_option Elab.async false
namespace Sys2Proof.Machine

variable (s : State)

/-! ### What an update leaves -/

@[simp] theorem State.setPkg_mem (p : Nat) (x : Pkg) : (s.setPkg p x).mem = s.mem := rfl
@[simp] theorem State.setPkg_poison (p : Nat) (x : Pkg) : (s.setPkg p x).poison = s.poison := rfl
@[simp] theorem State.setPkg_asRead (p : Nat) (x : Pkg) : (s.setPkg p x).asRead = s.asRead := rfl
@[simp] theorem State.setPkg_hostMem (p : Nat) (x : Pkg) : (s.setPkg p x).hostMem = s.hostMem := rfl
@[simp] theorem State.setPkg_dies (p : Nat) (x : Pkg) : (s.setPkg p x).dies = s.dies := rfl
@[simp] theorem State.setPkg_clusters (p : Nat) (x : Pkg) : (s.setPkg p x).clusters = s.clusters := rfl
@[simp] theorem State.setPkg_threads (p : Nat) (x : Pkg) : (s.setPkg p x).threads = s.threads := rfl
@[simp] theorem State.setPkg_net (p : Nat) (x : Pkg) : (s.setPkg p x).net = s.net := rfl
@[simp] theorem State.setPkg_lost (p : Nat) (x : Pkg) : (s.setPkg p x).lost = s.lost := rfl
@[simp] theorem State.setPkg_free (p : Nat) (x : Pkg) : (s.setPkg p x).free = s.free := rfl
@[simp] theorem State.setPkg_pending (p : Nat) (x : Pkg) : (s.setPkg p x).pending = s.pending := rfl
@[simp] theorem State.setPkg_die (p : Nat) (x : Pkg) (k : Nat) : (s.setPkg p x).die k = s.die k := rfl
@[simp] theorem State.setPkg_cluster (p : Nat) (x : Pkg) (k : Nat) : (s.setPkg p x).cluster k = s.cluster k := rfl
@[simp] theorem State.setPkg_thread (p : Nat) (x : Pkg) (k : Nat) : (s.setPkg p x).thread k = s.thread k := rfl

@[simp] theorem State.modPkg_mem (p : Nat) (f : Pkg → Pkg) : (s.modPkg p f).mem = s.mem := rfl
@[simp] theorem State.modPkg_poison (p : Nat) (f : Pkg → Pkg) : (s.modPkg p f).poison = s.poison := rfl
@[simp] theorem State.modPkg_asRead (p : Nat) (f : Pkg → Pkg) : (s.modPkg p f).asRead = s.asRead := rfl
@[simp] theorem State.modPkg_hostMem (p : Nat) (f : Pkg → Pkg) : (s.modPkg p f).hostMem = s.hostMem := rfl
@[simp] theorem State.modPkg_dies (p : Nat) (f : Pkg → Pkg) : (s.modPkg p f).dies = s.dies := rfl
@[simp] theorem State.modPkg_clusters (p : Nat) (f : Pkg → Pkg) : (s.modPkg p f).clusters = s.clusters := rfl
@[simp] theorem State.modPkg_threads (p : Nat) (f : Pkg → Pkg) : (s.modPkg p f).threads = s.threads := rfl
@[simp] theorem State.modPkg_net (p : Nat) (f : Pkg → Pkg) : (s.modPkg p f).net = s.net := rfl
@[simp] theorem State.modPkg_lost (p : Nat) (f : Pkg → Pkg) : (s.modPkg p f).lost = s.lost := rfl
@[simp] theorem State.modPkg_free (p : Nat) (f : Pkg → Pkg) : (s.modPkg p f).free = s.free := rfl
@[simp] theorem State.modPkg_pending (p : Nat) (f : Pkg → Pkg) : (s.modPkg p f).pending = s.pending := rfl
@[simp] theorem State.modPkg_die (p : Nat) (f : Pkg → Pkg) (k : Nat) : (s.modPkg p f).die k = s.die k := rfl
@[simp] theorem State.modPkg_cluster (p : Nat) (f : Pkg → Pkg) (k : Nat) : (s.modPkg p f).cluster k = s.cluster k := rfl
@[simp] theorem State.modPkg_thread (p : Nat) (f : Pkg → Pkg) (k : Nat) : (s.modPkg p f).thread k = s.thread k := rfl

@[simp] theorem State.setDie_mem (d : Nat) (x : Die) : (s.setDie d x).mem = s.mem := rfl
@[simp] theorem State.setDie_poison (d : Nat) (x : Die) : (s.setDie d x).poison = s.poison := rfl
@[simp] theorem State.setDie_asRead (d : Nat) (x : Die) : (s.setDie d x).asRead = s.asRead := rfl
@[simp] theorem State.setDie_hostMem (d : Nat) (x : Die) : (s.setDie d x).hostMem = s.hostMem := rfl
@[simp] theorem State.setDie_pkgs (d : Nat) (x : Die) : (s.setDie d x).pkgs = s.pkgs := rfl
@[simp] theorem State.setDie_clusters (d : Nat) (x : Die) : (s.setDie d x).clusters = s.clusters := rfl
@[simp] theorem State.setDie_threads (d : Nat) (x : Die) : (s.setDie d x).threads = s.threads := rfl
@[simp] theorem State.setDie_net (d : Nat) (x : Die) : (s.setDie d x).net = s.net := rfl
@[simp] theorem State.setDie_lost (d : Nat) (x : Die) : (s.setDie d x).lost = s.lost := rfl
@[simp] theorem State.setDie_free (d : Nat) (x : Die) : (s.setDie d x).free = s.free := rfl
@[simp] theorem State.setDie_pending (d : Nat) (x : Die) : (s.setDie d x).pending = s.pending := rfl
@[simp] theorem State.setDie_pkg (d : Nat) (x : Die) (k : Nat) : (s.setDie d x).pkg k = s.pkg k := rfl
@[simp] theorem State.setDie_cluster (d : Nat) (x : Die) (k : Nat) : (s.setDie d x).cluster k = s.cluster k := rfl
@[simp] theorem State.setDie_thread (d : Nat) (x : Die) (k : Nat) : (s.setDie d x).thread k = s.thread k := rfl

@[simp] theorem State.modDie_mem (d : Nat) (f : Die → Die) : (s.modDie d f).mem = s.mem := rfl
@[simp] theorem State.modDie_poison (d : Nat) (f : Die → Die) : (s.modDie d f).poison = s.poison := rfl
@[simp] theorem State.modDie_asRead (d : Nat) (f : Die → Die) : (s.modDie d f).asRead = s.asRead := rfl
@[simp] theorem State.modDie_hostMem (d : Nat) (f : Die → Die) : (s.modDie d f).hostMem = s.hostMem := rfl
@[simp] theorem State.modDie_pkgs (d : Nat) (f : Die → Die) : (s.modDie d f).pkgs = s.pkgs := rfl
@[simp] theorem State.modDie_clusters (d : Nat) (f : Die → Die) : (s.modDie d f).clusters = s.clusters := rfl
@[simp] theorem State.modDie_threads (d : Nat) (f : Die → Die) : (s.modDie d f).threads = s.threads := rfl
@[simp] theorem State.modDie_net (d : Nat) (f : Die → Die) : (s.modDie d f).net = s.net := rfl
@[simp] theorem State.modDie_lost (d : Nat) (f : Die → Die) : (s.modDie d f).lost = s.lost := rfl
@[simp] theorem State.modDie_free (d : Nat) (f : Die → Die) : (s.modDie d f).free = s.free := rfl
@[simp] theorem State.modDie_pending (d : Nat) (f : Die → Die) : (s.modDie d f).pending = s.pending := rfl
@[simp] theorem State.modDie_pkg (d : Nat) (f : Die → Die) (k : Nat) : (s.modDie d f).pkg k = s.pkg k := rfl
@[simp] theorem State.modDie_cluster (d : Nat) (f : Die → Die) (k : Nat) : (s.modDie d f).cluster k = s.cluster k := rfl
@[simp] theorem State.modDie_thread (d : Nat) (f : Die → Die) (k : Nat) : (s.modDie d f).thread k = s.thread k := rfl

@[simp] theorem State.setCluster_mem (c : Nat) (x : Cluster) : (s.setCluster c x).mem = s.mem := rfl
@[simp] theorem State.setCluster_poison (c : Nat) (x : Cluster) : (s.setCluster c x).poison = s.poison := rfl
@[simp] theorem State.setCluster_asRead (c : Nat) (x : Cluster) : (s.setCluster c x).asRead = s.asRead := rfl
@[simp] theorem State.setCluster_hostMem (c : Nat) (x : Cluster) : (s.setCluster c x).hostMem = s.hostMem := rfl
@[simp] theorem State.setCluster_pkgs (c : Nat) (x : Cluster) : (s.setCluster c x).pkgs = s.pkgs := rfl
@[simp] theorem State.setCluster_dies (c : Nat) (x : Cluster) : (s.setCluster c x).dies = s.dies := rfl
@[simp] theorem State.setCluster_threads (c : Nat) (x : Cluster) : (s.setCluster c x).threads = s.threads := rfl
@[simp] theorem State.setCluster_net (c : Nat) (x : Cluster) : (s.setCluster c x).net = s.net := rfl
@[simp] theorem State.setCluster_lost (c : Nat) (x : Cluster) : (s.setCluster c x).lost = s.lost := rfl
@[simp] theorem State.setCluster_free (c : Nat) (x : Cluster) : (s.setCluster c x).free = s.free := rfl
@[simp] theorem State.setCluster_pending (c : Nat) (x : Cluster) : (s.setCluster c x).pending = s.pending := rfl
@[simp] theorem State.setCluster_pkg (c : Nat) (x : Cluster) (k : Nat) : (s.setCluster c x).pkg k = s.pkg k := rfl
@[simp] theorem State.setCluster_die (c : Nat) (x : Cluster) (k : Nat) : (s.setCluster c x).die k = s.die k := rfl
@[simp] theorem State.setCluster_thread (c : Nat) (x : Cluster) (k : Nat) : (s.setCluster c x).thread k = s.thread k := rfl

@[simp] theorem State.modCluster_mem (c : Nat) (f : Cluster → Cluster) : (s.modCluster c f).mem = s.mem := rfl
@[simp] theorem State.modCluster_poison (c : Nat) (f : Cluster → Cluster) : (s.modCluster c f).poison = s.poison := rfl
@[simp] theorem State.modCluster_asRead (c : Nat) (f : Cluster → Cluster) : (s.modCluster c f).asRead = s.asRead := rfl
@[simp] theorem State.modCluster_hostMem (c : Nat) (f : Cluster → Cluster) : (s.modCluster c f).hostMem = s.hostMem := rfl
@[simp] theorem State.modCluster_pkgs (c : Nat) (f : Cluster → Cluster) : (s.modCluster c f).pkgs = s.pkgs := rfl
@[simp] theorem State.modCluster_dies (c : Nat) (f : Cluster → Cluster) : (s.modCluster c f).dies = s.dies := rfl
@[simp] theorem State.modCluster_threads (c : Nat) (f : Cluster → Cluster) : (s.modCluster c f).threads = s.threads := rfl
@[simp] theorem State.modCluster_net (c : Nat) (f : Cluster → Cluster) : (s.modCluster c f).net = s.net := rfl
@[simp] theorem State.modCluster_lost (c : Nat) (f : Cluster → Cluster) : (s.modCluster c f).lost = s.lost := rfl
@[simp] theorem State.modCluster_free (c : Nat) (f : Cluster → Cluster) : (s.modCluster c f).free = s.free := rfl
@[simp] theorem State.modCluster_pending (c : Nat) (f : Cluster → Cluster) : (s.modCluster c f).pending = s.pending := rfl
@[simp] theorem State.modCluster_pkg (c : Nat) (f : Cluster → Cluster) (k : Nat) : (s.modCluster c f).pkg k = s.pkg k := rfl
@[simp] theorem State.modCluster_die (c : Nat) (f : Cluster → Cluster) (k : Nat) : (s.modCluster c f).die k = s.die k := rfl
@[simp] theorem State.modCluster_thread (c : Nat) (f : Cluster → Cluster) (k : Nat) : (s.modCluster c f).thread k = s.thread k := rfl

@[simp] theorem State.setThread_mem (n : Nat) (x : Thread) : (s.setThread n x).mem = s.mem := rfl
@[simp] theorem State.setThread_poison (n : Nat) (x : Thread) : (s.setThread n x).poison = s.poison := rfl
@[simp] theorem State.setThread_asRead (n : Nat) (x : Thread) : (s.setThread n x).asRead = s.asRead := rfl
@[simp] theorem State.setThread_hostMem (n : Nat) (x : Thread) : (s.setThread n x).hostMem = s.hostMem := rfl
@[simp] theorem State.setThread_pkgs (n : Nat) (x : Thread) : (s.setThread n x).pkgs = s.pkgs := rfl
@[simp] theorem State.setThread_dies (n : Nat) (x : Thread) : (s.setThread n x).dies = s.dies := rfl
@[simp] theorem State.setThread_clusters (n : Nat) (x : Thread) : (s.setThread n x).clusters = s.clusters := rfl
@[simp] theorem State.setThread_net (n : Nat) (x : Thread) : (s.setThread n x).net = s.net := rfl
@[simp] theorem State.setThread_lost (n : Nat) (x : Thread) : (s.setThread n x).lost = s.lost := rfl
@[simp] theorem State.setThread_free (n : Nat) (x : Thread) : (s.setThread n x).free = s.free := rfl
@[simp] theorem State.setThread_pending (n : Nat) (x : Thread) : (s.setThread n x).pending = s.pending := rfl
@[simp] theorem State.setThread_pkg (n : Nat) (x : Thread) (k : Nat) : (s.setThread n x).pkg k = s.pkg k := rfl
@[simp] theorem State.setThread_die (n : Nat) (x : Thread) (k : Nat) : (s.setThread n x).die k = s.die k := rfl
@[simp] theorem State.setThread_cluster (n : Nat) (x : Thread) (k : Nat) : (s.setThread n x).cluster k = s.cluster k := rfl

@[simp] theorem State.modThread_mem (n : Nat) (f : Thread → Thread) : (s.modThread n f).mem = s.mem := rfl
@[simp] theorem State.modThread_poison (n : Nat) (f : Thread → Thread) : (s.modThread n f).poison = s.poison := rfl
@[simp] theorem State.modThread_asRead (n : Nat) (f : Thread → Thread) : (s.modThread n f).asRead = s.asRead := rfl
@[simp] theorem State.modThread_hostMem (n : Nat) (f : Thread → Thread) : (s.modThread n f).hostMem = s.hostMem := rfl
@[simp] theorem State.modThread_pkgs (n : Nat) (f : Thread → Thread) : (s.modThread n f).pkgs = s.pkgs := rfl
@[simp] theorem State.modThread_dies (n : Nat) (f : Thread → Thread) : (s.modThread n f).dies = s.dies := rfl
@[simp] theorem State.modThread_clusters (n : Nat) (f : Thread → Thread) : (s.modThread n f).clusters = s.clusters := rfl
@[simp] theorem State.modThread_net (n : Nat) (f : Thread → Thread) : (s.modThread n f).net = s.net := rfl
@[simp] theorem State.modThread_lost (n : Nat) (f : Thread → Thread) : (s.modThread n f).lost = s.lost := rfl
@[simp] theorem State.modThread_free (n : Nat) (f : Thread → Thread) : (s.modThread n f).free = s.free := rfl
@[simp] theorem State.modThread_pending (n : Nat) (f : Thread → Thread) : (s.modThread n f).pending = s.pending := rfl
@[simp] theorem State.modThread_pkg (n : Nat) (f : Thread → Thread) (k : Nat) : (s.modThread n f).pkg k = s.pkg k := rfl
@[simp] theorem State.modThread_die (n : Nat) (f : Thread → Thread) (k : Nat) : (s.modThread n f).die k = s.die k := rfl
@[simp] theorem State.modThread_cluster (n : Nat) (f : Thread → Thread) (k : Nat) : (s.modThread n f).cluster k = s.cluster k := rfl

@[simp] theorem State.setVi_mem (p v : Nat) (x : Vi) : (s.setVi p v x).mem = s.mem := rfl
@[simp] theorem State.setVi_poison (p v : Nat) (x : Vi) : (s.setVi p v x).poison = s.poison := rfl
@[simp] theorem State.setVi_asRead (p v : Nat) (x : Vi) : (s.setVi p v x).asRead = s.asRead := rfl
@[simp] theorem State.setVi_hostMem (p v : Nat) (x : Vi) : (s.setVi p v x).hostMem = s.hostMem := rfl
@[simp] theorem State.setVi_dies (p v : Nat) (x : Vi) : (s.setVi p v x).dies = s.dies := rfl
@[simp] theorem State.setVi_clusters (p v : Nat) (x : Vi) : (s.setVi p v x).clusters = s.clusters := rfl
@[simp] theorem State.setVi_threads (p v : Nat) (x : Vi) : (s.setVi p v x).threads = s.threads := rfl
@[simp] theorem State.setVi_net (p v : Nat) (x : Vi) : (s.setVi p v x).net = s.net := rfl
@[simp] theorem State.setVi_lost (p v : Nat) (x : Vi) : (s.setVi p v x).lost = s.lost := rfl
@[simp] theorem State.setVi_free (p v : Nat) (x : Vi) : (s.setVi p v x).free = s.free := rfl
@[simp] theorem State.setVi_pending (p v : Nat) (x : Vi) : (s.setVi p v x).pending = s.pending := rfl
@[simp] theorem State.setVi_die (p v : Nat) (x : Vi) (k : Nat) : (s.setVi p v x).die k = s.die k := rfl
@[simp] theorem State.setVi_cluster (p v : Nat) (x : Vi) (k : Nat) : (s.setVi p v x).cluster k = s.cluster k := rfl
@[simp] theorem State.setVi_thread (p v : Nat) (x : Vi) (k : Nat) : (s.setVi p v x).thread k = s.thread k := rfl

@[simp] theorem State.modVi_mem (p v : Nat) (f : Vi → Vi) : (s.modVi p v f).mem = s.mem := rfl
@[simp] theorem State.modVi_poison (p v : Nat) (f : Vi → Vi) : (s.modVi p v f).poison = s.poison := rfl
@[simp] theorem State.modVi_asRead (p v : Nat) (f : Vi → Vi) : (s.modVi p v f).asRead = s.asRead := rfl
@[simp] theorem State.modVi_hostMem (p v : Nat) (f : Vi → Vi) : (s.modVi p v f).hostMem = s.hostMem := rfl
@[simp] theorem State.modVi_dies (p v : Nat) (f : Vi → Vi) : (s.modVi p v f).dies = s.dies := rfl
@[simp] theorem State.modVi_clusters (p v : Nat) (f : Vi → Vi) : (s.modVi p v f).clusters = s.clusters := rfl
@[simp] theorem State.modVi_threads (p v : Nat) (f : Vi → Vi) : (s.modVi p v f).threads = s.threads := rfl
@[simp] theorem State.modVi_net (p v : Nat) (f : Vi → Vi) : (s.modVi p v f).net = s.net := rfl
@[simp] theorem State.modVi_lost (p v : Nat) (f : Vi → Vi) : (s.modVi p v f).lost = s.lost := rfl
@[simp] theorem State.modVi_free (p v : Nat) (f : Vi → Vi) : (s.modVi p v f).free = s.free := rfl
@[simp] theorem State.modVi_pending (p v : Nat) (f : Vi → Vi) : (s.modVi p v f).pending = s.pending := rfl
@[simp] theorem State.modVi_die (p v : Nat) (f : Vi → Vi) (k : Nat) : (s.modVi p v f).die k = s.die k := rfl
@[simp] theorem State.modVi_cluster (p v : Nat) (f : Vi → Vi) (k : Nat) : (s.modVi p v f).cluster k = s.cluster k := rfl
@[simp] theorem State.modVi_thread (p v : Nat) (f : Vi → Vi) (k : Nat) : (s.modVi p v f).thread k = s.thread k := rfl

@[simp] theorem State.modRing_mem (p v r : Nat) (f : Ring → Ring) : (s.modRing p v r f).mem = s.mem := rfl
@[simp] theorem State.modRing_poison (p v r : Nat) (f : Ring → Ring) : (s.modRing p v r f).poison = s.poison := rfl
@[simp] theorem State.modRing_asRead (p v r : Nat) (f : Ring → Ring) : (s.modRing p v r f).asRead = s.asRead := rfl
@[simp] theorem State.modRing_hostMem (p v r : Nat) (f : Ring → Ring) : (s.modRing p v r f).hostMem = s.hostMem := rfl
@[simp] theorem State.modRing_dies (p v r : Nat) (f : Ring → Ring) : (s.modRing p v r f).dies = s.dies := rfl
@[simp] theorem State.modRing_clusters (p v r : Nat) (f : Ring → Ring) : (s.modRing p v r f).clusters = s.clusters := rfl
@[simp] theorem State.modRing_threads (p v r : Nat) (f : Ring → Ring) : (s.modRing p v r f).threads = s.threads := rfl
@[simp] theorem State.modRing_net (p v r : Nat) (f : Ring → Ring) : (s.modRing p v r f).net = s.net := rfl
@[simp] theorem State.modRing_lost (p v r : Nat) (f : Ring → Ring) : (s.modRing p v r f).lost = s.lost := rfl
@[simp] theorem State.modRing_free (p v r : Nat) (f : Ring → Ring) : (s.modRing p v r f).free = s.free := rfl
@[simp] theorem State.modRing_pending (p v r : Nat) (f : Ring → Ring) : (s.modRing p v r f).pending = s.pending := rfl
@[simp] theorem State.modRing_die (p v r : Nat) (f : Ring → Ring) (k : Nat) : (s.modRing p v r f).die k = s.die k := rfl
@[simp] theorem State.modRing_cluster (p v r : Nat) (f : Ring → Ring) (k : Nat) : (s.modRing p v r f).cluster k = s.cluster k := rfl
@[simp] theorem State.modRing_thread (p v r : Nat) (f : Ring → Ring) (k : Nat) : (s.modRing p v r f).thread k = s.thread k := rfl

@[simp] theorem State.modCmd_mem (c : CmdRef) (f : RCmd → RCmd) : (s.modCmd c f).mem = s.mem := rfl
@[simp] theorem State.modCmd_poison (c : CmdRef) (f : RCmd → RCmd) : (s.modCmd c f).poison = s.poison := rfl
@[simp] theorem State.modCmd_asRead (c : CmdRef) (f : RCmd → RCmd) : (s.modCmd c f).asRead = s.asRead := rfl
@[simp] theorem State.modCmd_hostMem (c : CmdRef) (f : RCmd → RCmd) : (s.modCmd c f).hostMem = s.hostMem := rfl
@[simp] theorem State.modCmd_dies (c : CmdRef) (f : RCmd → RCmd) : (s.modCmd c f).dies = s.dies := rfl
@[simp] theorem State.modCmd_clusters (c : CmdRef) (f : RCmd → RCmd) : (s.modCmd c f).clusters = s.clusters := rfl
@[simp] theorem State.modCmd_threads (c : CmdRef) (f : RCmd → RCmd) : (s.modCmd c f).threads = s.threads := rfl
@[simp] theorem State.modCmd_net (c : CmdRef) (f : RCmd → RCmd) : (s.modCmd c f).net = s.net := rfl
@[simp] theorem State.modCmd_lost (c : CmdRef) (f : RCmd → RCmd) : (s.modCmd c f).lost = s.lost := rfl
@[simp] theorem State.modCmd_free (c : CmdRef) (f : RCmd → RCmd) : (s.modCmd c f).free = s.free := rfl
@[simp] theorem State.modCmd_pending (c : CmdRef) (f : RCmd → RCmd) : (s.modCmd c f).pending = s.pending := rfl
@[simp] theorem State.modCmd_die (c : CmdRef) (f : RCmd → RCmd) (k : Nat) : (s.modCmd c f).die k = s.die k := rfl
@[simp] theorem State.modCmd_cluster (c : CmdRef) (f : RCmd → RCmd) (k : Nat) : (s.modCmd c f).cluster k = s.cluster k := rfl
@[simp] theorem State.modCmd_thread (c : CmdRef) (f : RCmd → RCmd) (k : Nat) : (s.modCmd c f).thread k = s.thread k := rfl

@[simp] theorem State.setMu_mem (d m : Nat) (x : Mu) : (s.setMu d m x).mem = s.mem := rfl
@[simp] theorem State.setMu_poison (d m : Nat) (x : Mu) : (s.setMu d m x).poison = s.poison := rfl
@[simp] theorem State.setMu_asRead (d m : Nat) (x : Mu) : (s.setMu d m x).asRead = s.asRead := rfl
@[simp] theorem State.setMu_hostMem (d m : Nat) (x : Mu) : (s.setMu d m x).hostMem = s.hostMem := rfl
@[simp] theorem State.setMu_pkgs (d m : Nat) (x : Mu) : (s.setMu d m x).pkgs = s.pkgs := rfl
@[simp] theorem State.setMu_clusters (d m : Nat) (x : Mu) : (s.setMu d m x).clusters = s.clusters := rfl
@[simp] theorem State.setMu_threads (d m : Nat) (x : Mu) : (s.setMu d m x).threads = s.threads := rfl
@[simp] theorem State.setMu_net (d m : Nat) (x : Mu) : (s.setMu d m x).net = s.net := rfl
@[simp] theorem State.setMu_lost (d m : Nat) (x : Mu) : (s.setMu d m x).lost = s.lost := rfl
@[simp] theorem State.setMu_free (d m : Nat) (x : Mu) : (s.setMu d m x).free = s.free := rfl
@[simp] theorem State.setMu_pending (d m : Nat) (x : Mu) : (s.setMu d m x).pending = s.pending := rfl
@[simp] theorem State.setMu_pkg (d m : Nat) (x : Mu) (k : Nat) : (s.setMu d m x).pkg k = s.pkg k := rfl
@[simp] theorem State.setMu_cluster (d m : Nat) (x : Mu) (k : Nat) : (s.setMu d m x).cluster k = s.cluster k := rfl
@[simp] theorem State.setMu_thread (d m : Nat) (x : Mu) (k : Nat) : (s.setMu d m x).thread k = s.thread k := rfl

@[simp] theorem State.modMu_mem (d m : Nat) (f : Mu → Mu) : (s.modMu d m f).mem = s.mem := rfl
@[simp] theorem State.modMu_poison (d m : Nat) (f : Mu → Mu) : (s.modMu d m f).poison = s.poison := rfl
@[simp] theorem State.modMu_asRead (d m : Nat) (f : Mu → Mu) : (s.modMu d m f).asRead = s.asRead := rfl
@[simp] theorem State.modMu_hostMem (d m : Nat) (f : Mu → Mu) : (s.modMu d m f).hostMem = s.hostMem := rfl
@[simp] theorem State.modMu_pkgs (d m : Nat) (f : Mu → Mu) : (s.modMu d m f).pkgs = s.pkgs := rfl
@[simp] theorem State.modMu_clusters (d m : Nat) (f : Mu → Mu) : (s.modMu d m f).clusters = s.clusters := rfl
@[simp] theorem State.modMu_threads (d m : Nat) (f : Mu → Mu) : (s.modMu d m f).threads = s.threads := rfl
@[simp] theorem State.modMu_net (d m : Nat) (f : Mu → Mu) : (s.modMu d m f).net = s.net := rfl
@[simp] theorem State.modMu_lost (d m : Nat) (f : Mu → Mu) : (s.modMu d m f).lost = s.lost := rfl
@[simp] theorem State.modMu_free (d m : Nat) (f : Mu → Mu) : (s.modMu d m f).free = s.free := rfl
@[simp] theorem State.modMu_pending (d m : Nat) (f : Mu → Mu) : (s.modMu d m f).pending = s.pending := rfl
@[simp] theorem State.modMu_pkg (d m : Nat) (f : Mu → Mu) (k : Nat) : (s.modMu d m f).pkg k = s.pkg k := rfl
@[simp] theorem State.modMu_cluster (d m : Nat) (f : Mu → Mu) (k : Nat) : (s.modMu d m f).cluster k = s.cluster k := rfl
@[simp] theorem State.modMu_thread (d m : Nat) (f : Mu → Mu) (k : Nat) : (s.modMu d m f).thread k = s.thread k := rfl

@[simp] theorem State.setEng_mem (d e : Nat) (x : Engine) : (s.setEng d e x).mem = s.mem := rfl
@[simp] theorem State.setEng_poison (d e : Nat) (x : Engine) : (s.setEng d e x).poison = s.poison := rfl
@[simp] theorem State.setEng_asRead (d e : Nat) (x : Engine) : (s.setEng d e x).asRead = s.asRead := rfl
@[simp] theorem State.setEng_hostMem (d e : Nat) (x : Engine) : (s.setEng d e x).hostMem = s.hostMem := rfl
@[simp] theorem State.setEng_pkgs (d e : Nat) (x : Engine) : (s.setEng d e x).pkgs = s.pkgs := rfl
@[simp] theorem State.setEng_clusters (d e : Nat) (x : Engine) : (s.setEng d e x).clusters = s.clusters := rfl
@[simp] theorem State.setEng_threads (d e : Nat) (x : Engine) : (s.setEng d e x).threads = s.threads := rfl
@[simp] theorem State.setEng_net (d e : Nat) (x : Engine) : (s.setEng d e x).net = s.net := rfl
@[simp] theorem State.setEng_lost (d e : Nat) (x : Engine) : (s.setEng d e x).lost = s.lost := rfl
@[simp] theorem State.setEng_free (d e : Nat) (x : Engine) : (s.setEng d e x).free = s.free := rfl
@[simp] theorem State.setEng_pending (d e : Nat) (x : Engine) : (s.setEng d e x).pending = s.pending := rfl
@[simp] theorem State.setEng_pkg (d e : Nat) (x : Engine) (k : Nat) : (s.setEng d e x).pkg k = s.pkg k := rfl
@[simp] theorem State.setEng_cluster (d e : Nat) (x : Engine) (k : Nat) : (s.setEng d e x).cluster k = s.cluster k := rfl
@[simp] theorem State.setEng_thread (d e : Nat) (x : Engine) (k : Nat) : (s.setEng d e x).thread k = s.thread k := rfl

@[simp] theorem State.modEng_mem (d e : Nat) (f : Engine → Engine) : (s.modEng d e f).mem = s.mem := rfl
@[simp] theorem State.modEng_poison (d e : Nat) (f : Engine → Engine) : (s.modEng d e f).poison = s.poison := rfl
@[simp] theorem State.modEng_asRead (d e : Nat) (f : Engine → Engine) : (s.modEng d e f).asRead = s.asRead := rfl
@[simp] theorem State.modEng_hostMem (d e : Nat) (f : Engine → Engine) : (s.modEng d e f).hostMem = s.hostMem := rfl
@[simp] theorem State.modEng_pkgs (d e : Nat) (f : Engine → Engine) : (s.modEng d e f).pkgs = s.pkgs := rfl
@[simp] theorem State.modEng_clusters (d e : Nat) (f : Engine → Engine) : (s.modEng d e f).clusters = s.clusters := rfl
@[simp] theorem State.modEng_threads (d e : Nat) (f : Engine → Engine) : (s.modEng d e f).threads = s.threads := rfl
@[simp] theorem State.modEng_net (d e : Nat) (f : Engine → Engine) : (s.modEng d e f).net = s.net := rfl
@[simp] theorem State.modEng_lost (d e : Nat) (f : Engine → Engine) : (s.modEng d e f).lost = s.lost := rfl
@[simp] theorem State.modEng_free (d e : Nat) (f : Engine → Engine) : (s.modEng d e f).free = s.free := rfl
@[simp] theorem State.modEng_pending (d e : Nat) (f : Engine → Engine) : (s.modEng d e f).pending = s.pending := rfl
@[simp] theorem State.modEng_pkg (d e : Nat) (f : Engine → Engine) (k : Nat) : (s.modEng d e f).pkg k = s.pkg k := rfl
@[simp] theorem State.modEng_cluster (d e : Nat) (f : Engine → Engine) (k : Nat) : (s.modEng d e f).cluster k = s.cluster k := rfl
@[simp] theorem State.modEng_thread (d e : Nat) (f : Engine → Engine) (k : Nat) : (s.modEng d e f).thread k = s.thread k := rfl

@[simp] theorem State.modJunction_mem (d j : Nat) (f : Junction → Junction) : (s.modJunction d j f).mem = s.mem := rfl
@[simp] theorem State.modJunction_poison (d j : Nat) (f : Junction → Junction) : (s.modJunction d j f).poison = s.poison := rfl
@[simp] theorem State.modJunction_asRead (d j : Nat) (f : Junction → Junction) : (s.modJunction d j f).asRead = s.asRead := rfl
@[simp] theorem State.modJunction_hostMem (d j : Nat) (f : Junction → Junction) : (s.modJunction d j f).hostMem = s.hostMem := rfl
@[simp] theorem State.modJunction_pkgs (d j : Nat) (f : Junction → Junction) : (s.modJunction d j f).pkgs = s.pkgs := rfl
@[simp] theorem State.modJunction_clusters (d j : Nat) (f : Junction → Junction) : (s.modJunction d j f).clusters = s.clusters := rfl
@[simp] theorem State.modJunction_threads (d j : Nat) (f : Junction → Junction) : (s.modJunction d j f).threads = s.threads := rfl
@[simp] theorem State.modJunction_net (d j : Nat) (f : Junction → Junction) : (s.modJunction d j f).net = s.net := rfl
@[simp] theorem State.modJunction_lost (d j : Nat) (f : Junction → Junction) : (s.modJunction d j f).lost = s.lost := rfl
@[simp] theorem State.modJunction_free (d j : Nat) (f : Junction → Junction) : (s.modJunction d j f).free = s.free := rfl
@[simp] theorem State.modJunction_pending (d j : Nat) (f : Junction → Junction) : (s.modJunction d j f).pending = s.pending := rfl
@[simp] theorem State.modJunction_pkg (d j : Nat) (f : Junction → Junction) (k : Nat) : (s.modJunction d j f).pkg k = s.pkg k := rfl
@[simp] theorem State.modJunction_cluster (d j : Nat) (f : Junction → Junction) (k : Nat) : (s.modJunction d j f).cluster k = s.cluster k := rfl
@[simp] theorem State.modJunction_thread (d j : Nat) (f : Junction → Junction) (k : Nat) : (s.modJunction d j f).thread k = s.thread k := rfl

@[simp] theorem State.modPort_mem (d q : Nat) (f : Port → Port) : (s.modPort d q f).mem = s.mem := rfl
@[simp] theorem State.modPort_poison (d q : Nat) (f : Port → Port) : (s.modPort d q f).poison = s.poison := rfl
@[simp] theorem State.modPort_asRead (d q : Nat) (f : Port → Port) : (s.modPort d q f).asRead = s.asRead := rfl
@[simp] theorem State.modPort_hostMem (d q : Nat) (f : Port → Port) : (s.modPort d q f).hostMem = s.hostMem := rfl
@[simp] theorem State.modPort_pkgs (d q : Nat) (f : Port → Port) : (s.modPort d q f).pkgs = s.pkgs := rfl
@[simp] theorem State.modPort_clusters (d q : Nat) (f : Port → Port) : (s.modPort d q f).clusters = s.clusters := rfl
@[simp] theorem State.modPort_threads (d q : Nat) (f : Port → Port) : (s.modPort d q f).threads = s.threads := rfl
@[simp] theorem State.modPort_net (d q : Nat) (f : Port → Port) : (s.modPort d q f).net = s.net := rfl
@[simp] theorem State.modPort_lost (d q : Nat) (f : Port → Port) : (s.modPort d q f).lost = s.lost := rfl
@[simp] theorem State.modPort_free (d q : Nat) (f : Port → Port) : (s.modPort d q f).free = s.free := rfl
@[simp] theorem State.modPort_pending (d q : Nat) (f : Port → Port) : (s.modPort d q f).pending = s.pending := rfl
@[simp] theorem State.modPort_pkg (d q : Nat) (f : Port → Port) (k : Nat) : (s.modPort d q f).pkg k = s.pkg k := rfl
@[simp] theorem State.modPort_cluster (d q : Nat) (f : Port → Port) (k : Nat) : (s.modPort d q f).cluster k = s.cluster k := rfl
@[simp] theorem State.modPort_thread (d q : Nat) (f : Port → Port) (k : Nat) : (s.modPort d q f).thread k = s.thread k := rfl

@[simp] theorem State.setSignal_mem (d key : Nat) (g : Signal) : (s.setSignal d key g).mem = s.mem := rfl
@[simp] theorem State.setSignal_poison (d key : Nat) (g : Signal) : (s.setSignal d key g).poison = s.poison := rfl
@[simp] theorem State.setSignal_asRead (d key : Nat) (g : Signal) : (s.setSignal d key g).asRead = s.asRead := rfl
@[simp] theorem State.setSignal_hostMem (d key : Nat) (g : Signal) : (s.setSignal d key g).hostMem = s.hostMem := rfl
@[simp] theorem State.setSignal_pkgs (d key : Nat) (g : Signal) : (s.setSignal d key g).pkgs = s.pkgs := rfl
@[simp] theorem State.setSignal_clusters (d key : Nat) (g : Signal) : (s.setSignal d key g).clusters = s.clusters := rfl
@[simp] theorem State.setSignal_threads (d key : Nat) (g : Signal) : (s.setSignal d key g).threads = s.threads := rfl
@[simp] theorem State.setSignal_net (d key : Nat) (g : Signal) : (s.setSignal d key g).net = s.net := rfl
@[simp] theorem State.setSignal_lost (d key : Nat) (g : Signal) : (s.setSignal d key g).lost = s.lost := rfl
@[simp] theorem State.setSignal_free (d key : Nat) (g : Signal) : (s.setSignal d key g).free = s.free := rfl
@[simp] theorem State.setSignal_pending (d key : Nat) (g : Signal) : (s.setSignal d key g).pending = s.pending := rfl
@[simp] theorem State.setSignal_pkg (d key : Nat) (g : Signal) (k : Nat) : (s.setSignal d key g).pkg k = s.pkg k := rfl
@[simp] theorem State.setSignal_cluster (d key : Nat) (g : Signal) (k : Nat) : (s.setSignal d key g).cluster k = s.cluster k := rfl
@[simp] theorem State.setSignal_thread (d key : Nat) (g : Signal) (k : Nat) : (s.setSignal d key g).thread k = s.thread k := rfl

@[simp] theorem State.modMb_mem (p b : Nat) (f : Mailbox → Mailbox) : (s.modMb p b f).mem = s.mem := rfl
@[simp] theorem State.modMb_poison (p b : Nat) (f : Mailbox → Mailbox) : (s.modMb p b f).poison = s.poison := rfl
@[simp] theorem State.modMb_asRead (p b : Nat) (f : Mailbox → Mailbox) : (s.modMb p b f).asRead = s.asRead := rfl
@[simp] theorem State.modMb_hostMem (p b : Nat) (f : Mailbox → Mailbox) : (s.modMb p b f).hostMem = s.hostMem := rfl
@[simp] theorem State.modMb_dies (p b : Nat) (f : Mailbox → Mailbox) : (s.modMb p b f).dies = s.dies := rfl
@[simp] theorem State.modMb_clusters (p b : Nat) (f : Mailbox → Mailbox) : (s.modMb p b f).clusters = s.clusters := rfl
@[simp] theorem State.modMb_threads (p b : Nat) (f : Mailbox → Mailbox) : (s.modMb p b f).threads = s.threads := rfl
@[simp] theorem State.modMb_net (p b : Nat) (f : Mailbox → Mailbox) : (s.modMb p b f).net = s.net := rfl
@[simp] theorem State.modMb_lost (p b : Nat) (f : Mailbox → Mailbox) : (s.modMb p b f).lost = s.lost := rfl
@[simp] theorem State.modMb_free (p b : Nat) (f : Mailbox → Mailbox) : (s.modMb p b f).free = s.free := rfl
@[simp] theorem State.modMb_pending (p b : Nat) (f : Mailbox → Mailbox) : (s.modMb p b f).pending = s.pending := rfl
@[simp] theorem State.modMb_die (p b : Nat) (f : Mailbox → Mailbox) (k : Nat) : (s.modMb p b f).die k = s.die k := rfl
@[simp] theorem State.modMb_cluster (p b : Nat) (f : Mailbox → Mailbox) (k : Nat) : (s.modMb p b f).cluster k = s.cluster k := rfl
@[simp] theorem State.modMb_thread (p b : Nat) (f : Mailbox → Mailbox) (k : Nat) : (s.modMb p b f).thread k = s.thread k := rfl

@[simp] theorem State.post_mem (x : Packet) : (s.post x).mem = s.mem := rfl
@[simp] theorem State.post_poison (x : Packet) : (s.post x).poison = s.poison := rfl
@[simp] theorem State.post_asRead (x : Packet) : (s.post x).asRead = s.asRead := rfl
@[simp] theorem State.post_hostMem (x : Packet) : (s.post x).hostMem = s.hostMem := rfl
@[simp] theorem State.post_pkgs (x : Packet) : (s.post x).pkgs = s.pkgs := rfl
@[simp] theorem State.post_dies (x : Packet) : (s.post x).dies = s.dies := rfl
@[simp] theorem State.post_clusters (x : Packet) : (s.post x).clusters = s.clusters := rfl
@[simp] theorem State.post_threads (x : Packet) : (s.post x).threads = s.threads := rfl
@[simp] theorem State.post_lost (x : Packet) : (s.post x).lost = s.lost := rfl
@[simp] theorem State.post_free (x : Packet) : (s.post x).free = s.free := rfl
@[simp] theorem State.post_pending (x : Packet) : (s.post x).pending = s.pending := rfl
@[simp] theorem State.post_pkg (x : Packet) (k : Nat) : (s.post x).pkg k = s.pkg k := rfl
@[simp] theorem State.post_die (x : Packet) (k : Nat) : (s.post x).die k = s.die k := rfl
@[simp] theorem State.post_cluster (x : Packet) (k : Nat) : (s.post x).cluster k = s.cluster k := rfl
@[simp] theorem State.post_thread (x : Packet) (k : Nat) : (s.post x).thread k = s.thread k := rfl

@[simp] theorem State.writeMerged_asRead (pa : Nat) (b : List (Bool × Byte)) (w : List Bool) : (s.writeMerged pa b w).asRead = s.asRead := rfl
@[simp] theorem State.writeMerged_hostMem (pa : Nat) (b : List (Bool × Byte)) (w : List Bool) : (s.writeMerged pa b w).hostMem = s.hostMem := rfl
@[simp] theorem State.writeMerged_pkgs (pa : Nat) (b : List (Bool × Byte)) (w : List Bool) : (s.writeMerged pa b w).pkgs = s.pkgs := rfl
@[simp] theorem State.writeMerged_dies (pa : Nat) (b : List (Bool × Byte)) (w : List Bool) : (s.writeMerged pa b w).dies = s.dies := rfl
@[simp] theorem State.writeMerged_clusters (pa : Nat) (b : List (Bool × Byte)) (w : List Bool) : (s.writeMerged pa b w).clusters = s.clusters := rfl
@[simp] theorem State.writeMerged_threads (pa : Nat) (b : List (Bool × Byte)) (w : List Bool) : (s.writeMerged pa b w).threads = s.threads := rfl
@[simp] theorem State.writeMerged_net (pa : Nat) (b : List (Bool × Byte)) (w : List Bool) : (s.writeMerged pa b w).net = s.net := rfl
@[simp] theorem State.writeMerged_lost (pa : Nat) (b : List (Bool × Byte)) (w : List Bool) : (s.writeMerged pa b w).lost = s.lost := rfl
@[simp] theorem State.writeMerged_free (pa : Nat) (b : List (Bool × Byte)) (w : List Bool) : (s.writeMerged pa b w).free = s.free := rfl
@[simp] theorem State.writeMerged_pending (pa : Nat) (b : List (Bool × Byte)) (w : List Bool) : (s.writeMerged pa b w).pending = s.pending := rfl
@[simp] theorem State.writeMerged_pkg (pa : Nat) (b : List (Bool × Byte)) (w : List Bool) (k : Nat) : (s.writeMerged pa b w).pkg k = s.pkg k := rfl
@[simp] theorem State.writeMerged_die (pa : Nat) (b : List (Bool × Byte)) (w : List Bool) (k : Nat) : (s.writeMerged pa b w).die k = s.die k := rfl
@[simp] theorem State.writeMerged_cluster (pa : Nat) (b : List (Bool × Byte)) (w : List Bool) (k : Nat) : (s.writeMerged pa b w).cluster k = s.cluster k := rfl
@[simp] theorem State.writeMerged_thread (pa : Nat) (b : List (Bool × Byte)) (w : List Bool) (k : Nat) : (s.writeMerged pa b w).thread k = s.thread k := rfl

@[simp] theorem State.writePa_hostMem (pa : Nat) (b : List Byte) : (s.writePa pa b).hostMem = s.hostMem := rfl
@[simp] theorem State.writePa_asRead (pa : Nat) (b : List Byte) : (s.writePa pa b).asRead = s.asRead := rfl
@[simp] theorem State.writePa_pkgs (pa : Nat) (b : List Byte) : (s.writePa pa b).pkgs = s.pkgs := rfl
@[simp] theorem State.writePa_dies (pa : Nat) (b : List Byte) : (s.writePa pa b).dies = s.dies := rfl
@[simp] theorem State.writePa_clusters (pa : Nat) (b : List Byte) : (s.writePa pa b).clusters = s.clusters := rfl
@[simp] theorem State.writePa_threads (pa : Nat) (b : List Byte) : (s.writePa pa b).threads = s.threads := rfl
@[simp] theorem State.writePa_net (pa : Nat) (b : List Byte) : (s.writePa pa b).net = s.net := rfl
@[simp] theorem State.writePa_lost (pa : Nat) (b : List Byte) : (s.writePa pa b).lost = s.lost := rfl
@[simp] theorem State.writePa_free (pa : Nat) (b : List Byte) : (s.writePa pa b).free = s.free := rfl
@[simp] theorem State.writePa_pending (pa : Nat) (b : List Byte) : (s.writePa pa b).pending = s.pending := rfl
@[simp] theorem State.writePa_pkg (pa : Nat) (b : List Byte) (k : Nat) : (s.writePa pa b).pkg k = s.pkg k := rfl
@[simp] theorem State.writePa_die (pa : Nat) (b : List Byte) (k : Nat) : (s.writePa pa b).die k = s.die k := rfl
@[simp] theorem State.writePa_cluster (pa : Nat) (b : List Byte) (k : Nat) : (s.writePa pa b).cluster k = s.cluster k := rfl
@[simp] theorem State.writePa_thread (pa : Nat) (b : List Byte) (k : Nat) : (s.writePa pa b).thread k = s.thread k := rfl

@[simp] theorem State.writeMasked_hostMem (pa : Nat) (b : List (Bool × Byte)) : (s.writeMasked pa b).hostMem = s.hostMem := rfl
@[simp] theorem State.writeMasked_asRead (pa : Nat) (b : List (Bool × Byte)) : (s.writeMasked pa b).asRead = s.asRead := rfl
@[simp] theorem State.writeMasked_pkgs (pa : Nat) (b : List (Bool × Byte)) : (s.writeMasked pa b).pkgs = s.pkgs := rfl
@[simp] theorem State.writeMasked_dies (pa : Nat) (b : List (Bool × Byte)) : (s.writeMasked pa b).dies = s.dies := rfl
@[simp] theorem State.writeMasked_clusters (pa : Nat) (b : List (Bool × Byte)) : (s.writeMasked pa b).clusters = s.clusters := rfl
@[simp] theorem State.writeMasked_threads (pa : Nat) (b : List (Bool × Byte)) : (s.writeMasked pa b).threads = s.threads := rfl
@[simp] theorem State.writeMasked_net (pa : Nat) (b : List (Bool × Byte)) : (s.writeMasked pa b).net = s.net := rfl
@[simp] theorem State.writeMasked_lost (pa : Nat) (b : List (Bool × Byte)) : (s.writeMasked pa b).lost = s.lost := rfl
@[simp] theorem State.writeMasked_free (pa : Nat) (b : List (Bool × Byte)) : (s.writeMasked pa b).free = s.free := rfl
@[simp] theorem State.writeMasked_pending (pa : Nat) (b : List (Bool × Byte)) : (s.writeMasked pa b).pending = s.pending := rfl
@[simp] theorem State.writeMasked_pkg (pa : Nat) (b : List (Bool × Byte)) (k : Nat) : (s.writeMasked pa b).pkg k = s.pkg k := rfl
@[simp] theorem State.writeMasked_die (pa : Nat) (b : List (Bool × Byte)) (k : Nat) : (s.writeMasked pa b).die k = s.die k := rfl
@[simp] theorem State.writeMasked_cluster (pa : Nat) (b : List (Bool × Byte)) (k : Nat) : (s.writeMasked pa b).cluster k = s.cluster k := rfl
@[simp] theorem State.writeMasked_thread (pa : Nat) (b : List (Bool × Byte)) (k : Nat) : (s.writeMasked pa b).thread k = s.thread k := rfl

@[simp] theorem State.hostWrite_mem (p a : Nat) (b : List Byte) : (s.hostWrite p a b).mem = s.mem := rfl
@[simp] theorem State.hostWrite_poison (p a : Nat) (b : List Byte) : (s.hostWrite p a b).poison = s.poison := rfl
@[simp] theorem State.hostWrite_asRead (p a : Nat) (b : List Byte) : (s.hostWrite p a b).asRead = s.asRead := rfl
@[simp] theorem State.hostWrite_pkgs (p a : Nat) (b : List Byte) : (s.hostWrite p a b).pkgs = s.pkgs := rfl
@[simp] theorem State.hostWrite_dies (p a : Nat) (b : List Byte) : (s.hostWrite p a b).dies = s.dies := rfl
@[simp] theorem State.hostWrite_clusters (p a : Nat) (b : List Byte) : (s.hostWrite p a b).clusters = s.clusters := rfl
@[simp] theorem State.hostWrite_threads (p a : Nat) (b : List Byte) : (s.hostWrite p a b).threads = s.threads := rfl
@[simp] theorem State.hostWrite_net (p a : Nat) (b : List Byte) : (s.hostWrite p a b).net = s.net := rfl
@[simp] theorem State.hostWrite_lost (p a : Nat) (b : List Byte) : (s.hostWrite p a b).lost = s.lost := rfl
@[simp] theorem State.hostWrite_free (p a : Nat) (b : List Byte) : (s.hostWrite p a b).free = s.free := rfl
@[simp] theorem State.hostWrite_pending (p a : Nat) (b : List Byte) : (s.hostWrite p a b).pending = s.pending := rfl
@[simp] theorem State.hostWrite_pkg (p a : Nat) (b : List Byte) (k : Nat) : (s.hostWrite p a b).pkg k = s.pkg k := rfl
@[simp] theorem State.hostWrite_die (p a : Nat) (b : List Byte) (k : Nat) : (s.hostWrite p a b).die k = s.die k := rfl
@[simp] theorem State.hostWrite_cluster (p a : Nat) (b : List Byte) (k : Nat) : (s.hostWrite p a b).cluster k = s.cluster k := rfl
@[simp] theorem State.hostWrite_thread (p a : Nat) (b : List Byte) (k : Nat) : (s.hostWrite p a b).thread k = s.thread k := rfl

@[simp] theorem State.draw_mem : s.draw.2.mem = s.mem := rfl
@[simp] theorem State.draw_poison : s.draw.2.poison = s.poison := rfl
@[simp] theorem State.draw_asRead : s.draw.2.asRead = s.asRead := rfl
@[simp] theorem State.draw_lost : s.draw.2.lost = s.lost := rfl
@[simp] theorem State.draw_hostMem : s.draw.2.hostMem = s.hostMem := rfl
@[simp] theorem State.draw_pkgs : s.draw.2.pkgs = s.pkgs := rfl
@[simp] theorem State.draw_dies : s.draw.2.dies = s.dies := rfl
@[simp] theorem State.draw_clusters : s.draw.2.clusters = s.clusters := rfl
@[simp] theorem State.draw_threads : s.draw.2.threads = s.threads := rfl
@[simp] theorem State.draw_net : s.draw.2.net = s.net := rfl
@[simp] theorem State.draw_pending : s.draw.2.pending = s.pending := rfl
@[simp] theorem State.draw_free : s.draw.2.free = s.free + 1 := rfl

/-! ### Reading a part after a part is written -/

theorem State.pkg_set (k j : Nat) (x : Pkg) : (s.setPkg k x).pkg j = if j = k then x else s.pkg j := tget_tset _ k j x _
@[simp] theorem State.pkg_set_same (k : Nat) (x : Pkg) : (s.setPkg k x).pkg k = x := by simp [State.pkg_set]
theorem State.pkg_set_other (k : Nat) (x : Pkg) (j : Nat) (h : j ≠ k) : (s.setPkg k x).pkg j = s.pkg j := by simp [State.pkg_set, h]
theorem State.pkg_mod (k j : Nat) (f : Pkg → Pkg) : (s.modPkg k f).pkg j = if j = k then f (s.pkg k) else s.pkg j := s.pkg_set k j _
@[simp] theorem State.pkg_mod_same (k : Nat) (f : Pkg → Pkg) : (s.modPkg k f).pkg k = f (s.pkg k) := s.pkg_set_same k _
theorem State.pkg_mod_other (k : Nat) (f : Pkg → Pkg) (j : Nat) (h : j ≠ k) : (s.modPkg k f).pkg j = s.pkg j := s.pkg_set_other k _ j h

theorem State.die_set (k j : Nat) (x : Die) : (s.setDie k x).die j = if j = k then x else s.die j := tget_tset _ k j x _
@[simp] theorem State.die_set_same (k : Nat) (x : Die) : (s.setDie k x).die k = x := by simp [State.die_set]
theorem State.die_set_other (k : Nat) (x : Die) (j : Nat) (h : j ≠ k) : (s.setDie k x).die j = s.die j := by simp [State.die_set, h]
theorem State.die_mod (k j : Nat) (f : Die → Die) : (s.modDie k f).die j = if j = k then f (s.die k) else s.die j := s.die_set k j _
@[simp] theorem State.die_mod_same (k : Nat) (f : Die → Die) : (s.modDie k f).die k = f (s.die k) := s.die_set_same k _
theorem State.die_mod_other (k : Nat) (f : Die → Die) (j : Nat) (h : j ≠ k) : (s.modDie k f).die j = s.die j := s.die_set_other k _ j h

theorem State.cluster_set (k j : Nat) (x : Cluster) : (s.setCluster k x).cluster j = if j = k then x else s.cluster j := tget_tset _ k j x _
@[simp] theorem State.cluster_set_same (k : Nat) (x : Cluster) : (s.setCluster k x).cluster k = x := by simp [State.cluster_set]
theorem State.cluster_set_other (k : Nat) (x : Cluster) (j : Nat) (h : j ≠ k) : (s.setCluster k x).cluster j = s.cluster j := by simp [State.cluster_set, h]
theorem State.cluster_mod (k j : Nat) (f : Cluster → Cluster) : (s.modCluster k f).cluster j = if j = k then f (s.cluster k) else s.cluster j := s.cluster_set k j _
@[simp] theorem State.cluster_mod_same (k : Nat) (f : Cluster → Cluster) : (s.modCluster k f).cluster k = f (s.cluster k) := s.cluster_set_same k _
theorem State.cluster_mod_other (k : Nat) (f : Cluster → Cluster) (j : Nat) (h : j ≠ k) : (s.modCluster k f).cluster j = s.cluster j := s.cluster_set_other k _ j h

theorem State.thread_set (k j : Nat) (x : Thread) : (s.setThread k x).thread j = if j = k then x else s.thread j := tget_tset _ k j x _
@[simp] theorem State.thread_set_same (k : Nat) (x : Thread) : (s.setThread k x).thread k = x := by simp [State.thread_set]
theorem State.thread_set_other (k : Nat) (x : Thread) (j : Nat) (h : j ≠ k) : (s.setThread k x).thread j = s.thread j := by simp [State.thread_set, h]
theorem State.thread_mod (k j : Nat) (f : Thread → Thread) : (s.modThread k f).thread j = if j = k then f (s.thread k) else s.thread j := s.thread_set k j _
@[simp] theorem State.thread_mod_same (k : Nat) (f : Thread → Thread) : (s.modThread k f).thread k = f (s.thread k) := s.thread_set_same k _
theorem State.thread_mod_other (k : Nat) (f : Thread → Thread) (j : Nat) (h : j ≠ k) : (s.modThread k f).thread j = s.thread j := s.thread_set_other k _ j h

@[simp] theorem State.vi_set_same (p v : Nat) (x : Vi) : (s.setVi p v x).vi p v = x := by
  simp [State.vi, State.setVi]
@[simp] theorem State.vi_mod_same (p v : Nat) (f : Vi → Vi) : (s.modVi p v f).vi p v = f (s.vi p v) := s.vi_set_same p v _
theorem State.vi_set_other (p v : Nat) (x : Vi) (p' v' : Nat) (h : p' ≠ p ∨ v' ≠ v) : (s.setVi p v x).vi p' v' = s.vi p' v' := by
  unfold State.vi State.setVi
  by_cases hp : p' = p
  · subst hp
    have hv : v' ≠ v := by rcases h with h | h; exact absurd rfl h; exact h
    rw [State.pkg_mod_same]
    exact tget_tset_other _ x _ hv
  · rw [State.pkg_mod_other _ _ _ _ hp]
@[simp] theorem State.ring_mod_same (p v r : Nat) (f : Ring → Ring) : (s.modRing p v r f).ring p v r = f (s.ring p v r) := by
  simp [State.ring, State.modRing]
@[simp] theorem State.mu_set_same (d m : Nat) (x : Mu) : (s.setMu d m x).mu d m = x := by simp [State.mu, State.setMu]
@[simp] theorem State.eng_set_same (d e : Nat) (x : Engine) : (s.setEng d e x).eng d e = x := by simp [State.eng, State.setEng]
@[simp] theorem State.signal_set_same (d key : Nat) (g : Signal) : (s.setSignal d key g).signal d key = g := by
  simp [State.signal, State.setSignal]
theorem State.signal_set_other (d key : Nat) (g : Signal) (d' k' : Nat) (h : d' ≠ d ∨ k' ≠ key) :
    (s.setSignal d key g).signal d' k' = s.signal d' k' := by
  unfold State.signal State.setSignal
  by_cases hd : d' = d
  · subst hd
    have hv : k' ≠ key := by rcases h with h | h; exact absurd rfl h; exact h
    rw [State.die_mod_same]
    exact tget_tset_other _ g _ hv
  · rw [State.die_mod_other _ _ _ _ hd]
@[simp] theorem State.junction_mod_same (d j : Nat) (f : Junction → Junction) : (s.modJunction d j f).junction d j = f (s.junction d j) := by
  simp [State.junction, State.modJunction]
@[simp] theorem State.port_mod_same (d q : Nat) (f : Port → Port) : (s.modPort d q f).port d q = f (s.port d q) := by
  simp [State.port, State.modPort]
@[simp] theorem State.mb_mod_same (p b : Nat) (f : Mailbox → Mailbox) : (s.modMb p b f).mb p b = f (s.mb p b) := by
  unfold State.mb State.modMb
  rw [State.pkg_mod_same]
  exact tget_tset_same _ b _ _

/-- Memory written is read back. -/
theorem State.readPa_writePa (pa : Nat) (b : List Byte) (h : Memory.wf s.mem = true) : (s.writePa pa b).readPa pa b.length = b :=
  memRead_memWrite pa b h

theorem State.hostRead_hostWrite (p a : Nat) (b : List Byte) (h : Memory.wf s.hostMem = true) : (s.hostWrite p a b).hostRead p a b.length = b :=
  memRead_memWrite _ b h

end Sys2Proof.Machine
end

