-- ==== Sys2Proof/Laws/Net.lean ====
section
/-! SUPPORT. Laws of the network: a packet's way, its taking and its answer change the dies and the packets on their way, and nothing else. -/
set_option Elab.async false
namespace Sys2Proof.Machine

/-- Nothing but dies and packets on their way changed. -/
structure NetOnly (s t : State) : Prop where
  mem : t.mem = s.mem
  poison : t.poison = s.poison
  asRead : t.asRead = s.asRead
  hostMem : t.hostMem = s.hostMem
  pkgs : t.pkgs = s.pkgs
  clusters : t.clusters = s.clusters
  threads : t.threads = s.threads
  free : t.free = s.free
  pending : t.pending = s.pending

theorem NetOnly.refl (s : State) : NetOnly s s := ⟨rfl, rfl, rfl, rfl, rfl, rfl, rfl, rfl, rfl⟩

theorem NetOnly.trans {s t u : State} (h : NetOnly s t) (k : NetOnly t u) : NetOnly s u :=
  ⟨k.mem.trans h.mem, k.poison.trans h.poison, k.asRead.trans h.asRead, k.hostMem.trans h.hostMem, k.pkgs.trans h.pkgs,
   k.clusters.trans h.clusters, k.threads.trans h.threads, k.free.trans h.free, k.pending.trans h.pending⟩

theorem NetOnly.bytes {s t : State} (h : NetOnly s t) : SameBytes s t := ⟨h.mem, h.hostMem, h.poison⟩
theorem NetOnly.kept {s t : State} (h : NetOnly s t) : Kept s t := ⟨h.threads, h.bytes⟩
theorem NetOnly.thread {s t : State} (h : NetOnly s t) (n : Nat) : t.thread n = s.thread n := by unfold State.thread; rw [h.threads]
theorem NetOnly.cluster {s t : State} (h : NetOnly s t) (n : Nat) : t.cluster n = s.cluster n := by unfold State.cluster; rw [h.clusters]
theorem NetOnly.pkg {s t : State} (h : NetOnly s t) (n : Nat) : t.pkg n = s.pkg n := by unfold State.pkg; rw [h.pkgs]
theorem NetOnly.vi {s t : State} (h : NetOnly s t) (p v : Nat) : t.vi p v = s.vi p v := by unfold State.vi; rw [h.pkg]
theorem NetOnly.readPa {s t : State} (h : NetOnly s t) (a n : Nat) : t.readPa a n = s.readPa a n := by unfold State.readPa; rw [h.mem]
theorem NetOnly.poisonIn {s t : State} (h : NetOnly s t) (a n : Nat) : t.poisonIn a n = s.poisonIn a n := by unfold State.poisonIn; rw [h.poison]
theorem NetOnly.memoryOk {s t : State} (h : NetOnly s t) (w : MemoryOk s) : MemoryOk t := by
  obtain ⟨w1, w2⟩ := w
  exact ⟨by rw [h.mem]; exact w1, by rw [h.hostMem]; exact w2⟩

theorem NetOnly.post {s t : State} (h : NetOnly s t) (p : Packet) : NetOnly s (t.post p) := h.trans ⟨rfl, rfl, rfl, rfl, rfl, rfl, rfl, rfl, rfl⟩
theorem NetOnly.setDie {s t : State} (h : NetOnly s t) (d : Nat) (x : Die) : NetOnly s (t.setDie d x) := h.trans ⟨rfl, rfl, rfl, rfl, rfl, rfl, rfl, rfl, rfl⟩
theorem NetOnly.modDie {s t : State} (h : NetOnly s t) (d : Nat) (f : Die → Die) : NetOnly s (t.modDie d f) := h.setDie d _
theorem NetOnly.modPort {s t : State} (h : NetOnly s t) (d q : Nat) (f : Port → Port) : NetOnly s (t.modPort d q f) := h.setDie d _
theorem NetOnly.modJunction {s t : State} (h : NetOnly s t) (d j : Nat) (f : Junction → Junction) : NetOnly s (t.modJunction d j f) := h.setDie d _
theorem NetOnly.charge {s t : State} (h : NetOnly s t) (d tenant row n : Nat) : NetOnly s (t.charge d tenant row n) := by
  unfold State.charge; split
  · exact h
  · exact h.setDie d _
theorem NetOnly.staleRsp {s t : State} (h : NetOnly s t) (d : Nat) : NetOnly s (t.staleRsp d) := h.setDie d _
theorem NetOnly.badPacket {s t : State} (h : NetOnly s t) (d : Nat) : NetOnly s (t.badPacket d) := h.setDie d _

theorem NetOnly.freeRx {s t : State} (h : NetOnly s t) (x : Nat) (r : Rx) : NetOnly s (t.freeRx x r) := by
  unfold State.freeRx; dsimp only; split
  · exact h.modPort _ _ _
  · split
    · exact h.modJunction _ _ _
    · exact h

theorem NetOnly.leave {s t : State} (h : NetOnly s t) (x : Nat) (r : Rx) : NetOnly s (t.leave x r) := by
  unfold State.leave; split
  · exact h.trans ⟨rfl, rfl, rfl, rfl, rfl, rfl, rfl, rfl, rfl⟩
  · exact (h.modDie x _).freeRx x r

theorem NetOnly.land {s t : State} (h : NetOnly s t) (x : Nat) (r : Rx) : NetOnly s (t.land x r) := by
  unfold State.land; split
  · exact h.modDie x _
  · exact (h.badPacket x).freeRx x r

/-- Taking a packet changes the queues of its die, and no byte, thread, cluster or package. -/
theorem NetOnly.take {s t : State} (h : NetOnly s t) (p : Packet) : NetOnly s (t.take p) := by
  unfold State.take; split
  · exact h.leave _ _
  · exact h

theorem NetOnly.stopPacket {s t : State} (h : NetOnly s t) (x : Nat) (p : Packet) : NetOnly s (t.stopPacket x p) := by
  unfold State.stopPacket; split
  · exact h.modDie x _
  · dsimp only; split
    · exact (h.staleRsp x).trans ⟨rfl, rfl, rfl, rfl, rfl, rfl, rfl, rfl, rfl⟩
    · exact h.staleRsp x

theorem NetOnly.stopAt {s t : State} (h : NetOnly s t) (x : Nat) (r : Rx) (lost : Bool) : NetOnly s (t.stopAt x r lost) := by
  unfold State.stopAt; split
  · exact h
  · dsimp only; split
    · exact ((h.leave x r).modDie x _).stopPacket x _
    · exact (h.leave x r).stopPacket x _

theorem NetOnly.crossJunction {s t : State} (h : NetOnly s t) (x j : Nat) (r : Rx) (a : Arb) : NetOnly s (t.crossJunction x j r a) := by
  unfold State.crossJunction State.setArb; dsimp only
  exact ((((h.leave x r).modDie x _).modJunction x j _).charge _ _ _ _).land _ _

theorem NetOnly.beginPacket {s t : State} (h : NetOnly s t) (x q : Nat) (r : Rx) (a : Arb) : NetOnly s (t.beginPacket x q r a) := by
  unfold State.beginPacket State.setArb; dsimp only
  exact (((h.leave x r).modDie x _).modPort x q _).charge _ _ _ _

theorem NetOnly.fillSlots {s : State} (x q : Nat) : ∀ (f n : Nat) {t : State}, NetOnly s t → NetOnly s (State.fillSlots x q f n t).2 := by
  intro f
  induction f with
  | zero => intro n t h; exact h
  | succ f ih =>
    intro n t h
    unfold State.fillSlots; split
    · exact h
    · split
      · split
        · exact h
        · exact ih _ (h.beginPacket _ _ _ _)
      · exact ih _ (h.modPort _ _ _)

theorem NetOnly.newFlit {s t : State} (h : NetOnly s t) (x q : Nat) (b : FlitBody) : NetOnly s (t.newFlit x q b).2 := by
  unfold State.newFlit; dsimp only; exact h.modPort _ _ _

theorem NetOnly.transmit {s t u : State} {f : Flit} (h : NetOnly s t) (x q : Nat) (e : t.transmit x q = some (f, u)) : NetOnly s u := by
  unfold State.transmit at e; dsimp only at e
  split at e
  · exact absurd e (by simp)
  · split at e
    · obtain ⟨-, rfl⟩ := Prod.mk.inj (Option.some.inj e); exact h.modPort _ _ _
    · split at e
      · have e := congrArg Prod.snd (Option.some.inj e); subst e
        split
        · exact ((h.modPort _ _ _).modPort _ _ _).newFlit _ _ _
        · exact (h.modPort _ _ _).newFlit _ _ _
      · split at e
        · have e := congrArg Prod.snd (Option.some.inj e); subst e
          exact (NetOnly.fillSlots x q 64 15 h).newFlit _ _ _
        · obtain ⟨-, rfl⟩ := Prod.mk.inj (Option.some.inj e); exact h.modPort _ _ _

theorem NetOnly.packetIn {s t : State} (h : NetOnly s t) (d q : Nat) (l : List Slot) : NetOnly s (t.packetIn d q l) := by
  unfold State.packetIn; dsimp only; split
  · exact (((h.modPort _ _ _).modPort _ _ _).charge _ _ _ _).land _ _
  · unfold State.rawPacket; split
    · exact h.modPort _ _ _
    · exact (h.modPort _ _ _).badPacket _
  · exact h.modPort _ _ _

theorem NetOnly.takeSlots {s : State} (d q : Nat) : ∀ (l : List Slot) {t : State}, NetOnly s t → NetOnly s (t.takeSlots d q l) := by
  intro l
  induction l with
  | nil => intro t h; exact h
  | cons w r ih =>
    intro t h
    unfold State.takeSlots; dsimp only
    repeat' split
    all_goals first | exact h | exact ih (h.packetIn _ _ _) | exact ih (h.modPort _ _ _)

/-- A flit changes its port and the queues of its die. -/
theorem NetOnly.acceptFlit {s t : State} (h : NetOnly s t) (d q : Nat) (f : Flit) : NetOnly s (t.acceptFlit d q f) := by
  unfold State.acceptFlit; dsimp only; split
  · exact h
  · split
    · exact h.modPort _ _ _
    · split
      · exact NetOnly.takeSlots d q _ ((h.modPort _ _ _).modPort _ _ _)
      · exact (h.modPort _ _ _).modPort _ _ _

theorem NetOnly.receive {s t : State} (h : NetOnly s t) (d q : Nat) : NetOnly s (t.receive d q) := by
  unfold State.receive; split
  · rename_i f u e
    have hu : NetOnly s u := by
      unfold State.farSends at e; split at e
      · split at e
        · exact h.transmit _ _ e
        · exact absurd e (by simp)
      · exact absurd e (by simp)
    split
    · exact hu.acceptFlit _ _ _
    · exact hu
  · exact h

theorem NetOnly.sendUntil {s : State} (d q e q2 : Nat) (done : State → Bool) : ∀ (f : Nat) {t : State}, NetOnly s t → NetOnly s (State.sendUntil d q e q2 done f t) := by
  intro f
  induction f with
  | zero => intro t h; exact h
  | succ f ih =>
    intro t h
    unfold State.sendUntil; split
    · exact h
    · exact ih (h.receive _ _)

theorem NetOnly.crossLink {s t : State} (h : NetOnly s t) (x q : Nat) (p : Packet) : NetOnly s (t.crossLink x q p) := by
  unfold State.crossLink; split
  · exact h
  · dsimp only; split
    · split
      · exact NetOnly.sendUntil _ _ _ _ _ _ (h.receive _ _)
      · exact NetOnly.sendUntil _ _ _ _ _ _ ((NetOnly.sendUntil _ _ _ _ _ _ (h.receive _ _)).receive _ _)
    · split
      · exact NetOnly.sendUntil _ _ _ _ _ _ h
      · exact NetOnly.sendUntil _ _ _ _ _ _ ((NetOnly.sendUntil _ _ _ _ _ _ h).receive _ _)

theorem NetOnly.pull {s : State} (p : Packet) : ∀ (f : Nat) {t : State}, NetOnly s t → NetOnly s (State.pull p f t) := by
  intro f
  induction f with
  | zero => intro t h; exact h
  | succ f ih =>
    intro t h
    unfold State.pull; split
    · split
      · dsimp only; split
        · exact h.crossLink _ _ _
        · exact ih (h.crossLink _ _ _)
      · exact h
    · dsimp only; split
      · exact h
      · split
        · exact h
        · exact ih (h.stopAt _ _ _)
      · exact ih (h.stopAt _ _ _)
      · split
        · split
          · exact h.crossLink _ _ _
          · exact ih (h.crossLink _ _ _)
        · split
          · exact h
          · exact ih (h.crossJunction _ _ _ _)

/-- A packet's way changes the dies and the packets on their way, and no byte, thread, cluster or package. -/
theorem State.bring_net (s : State) (p : Packet) : NetOnly s (s.bring p) := NetOnly.pull p _ (NetOnly.refl s)

theorem NetOnly.respond {s t : State} (h : NetOnly s t) (rq : Packet) (b : Bool) (status : Nat) (body : Payload) (f : Option (Nat × Nat × Nat)) :
    NetOnly s (t.respond rq b status body f) := h.post _

/-- A packet that stands in no queue of the network is not brought anywhere. -/
theorem State.bring_absent {s : State} {p : Packet} (h : s.seek p = none) (k : s.seekLink p = none) : s.bring p = s := by
  unfold State.bring pullFuel State.pull; simp only [h, k]

/-- A packet whose queue's head has arrived is not moved. -/
theorem State.bring_there {s : State} {p : Packet} {x : Nat} {r : Rx} (h : s.seek p = some (x, r)) (k : s.hop x (s.headOf x r) = .here) : s.bring p = s := by
  unfold State.bring pullFuel State.pull; simp only [h, k]

/-- What the arrival of a request leaves, whatever it comes to (R364, R376). -/
theorem State.arrive_net (s : State) (p : Packet) :
    match s.arrive p with
    | .notNext t => NetOnly s t
    | .answered t => NetOnly s t
    | .here t => NetOnly s t := by
  have hb := s.bring_net p
  unfold State.arrive; dsimp only
  by_cases h1 : (!(s.bring p).isNext p || !(s.bring p).canPlace p) = true
  · simp only [h1, if_true]; exact hb
  · simp only [h1, Bool.false_eq_true, if_false]
    cases ht : (s.bring p).dramTurn p with
    | none => exact hb
    | some u =>
      have hu : NetOnly s u := by
        unfold State.dramTurn at ht
        split at ht
        · cases ht; exact hb
        · split at ht
          · split at ht
            · cases ht; exact hb.modDie _ _
            · exact absurd ht (by simp)
          · exact absurd ht (by simp)
      have hk := hu.take p
      dsimp only
      by_cases a : (!opcFits (opcOf p.body) p.vc.toNat) = true
      · simp only [a, if_true]; exact hk.badPacket _
      · simp only [a, Bool.false_eq_true, if_false]
        by_cases b : (!(u.take p).dieUp p.dst) = true
        · simp only [b, if_true]; exact hk.respond _ _ _ _ _
        · simp only [b, Bool.false_eq_true, if_false]
          split
          · rename_i e; split at e <;> cases e
          · rename_i e; split at e
            · cases e; exact hk.respond _ _ _ _ _
            · cases e
          · rename_i e; split at e
            · cases e
            · cases e; exact hk

end Sys2Proof.Machine
end

