-- ==== Sys2Proof/Laws/Ops.lean ====
section
/-! SUPPORT. Laws of the shared operations: what each can do, said once, so that a proof about a command cites it instead of
unfolding the operation. -/
set_option Elab.async false
namespace Sys2Proof.Machine

/-! ### Bytes that stay -/

theorem SameBytes.refl (s : State) : SameBytes s s := ⟨rfl, rfl, rfl⟩
theorem SameBytes.trans {s t u : State} (h : SameBytes s t) (k : SameBytes t u) : SameBytes s u :=
  ⟨k.1.trans h.1, k.2.1.trans h.2.1, k.2.2.trans h.2.2⟩
theorem MemoryOk.of_same {s t : State} (h : SameBytes s t) (w : MemoryOk s) : MemoryOk t := by
  obtain ⟨w1, w2⟩ := w
  exact ⟨by rw [h.1]; exact w1, by rw [h.2.1]; exact w2⟩

theorem SameBytes.set_thread (s : State) (n : Nat) (x : Thread) : SameBytes s (s.setThread n x) := ⟨rfl, rfl, rfl⟩

theorem State.charge_bytes (s : State) (d tenant row n : Nat) : SameBytes s (s.charge d tenant row n) := by
  unfold State.charge; split <;> exact ⟨rfl, rfl, rfl⟩
theorem State.charge_threads (s : State) (d tenant row n : Nat) : (s.charge d tenant row n).threads = s.threads := by
  unfold State.charge; split <;> rfl
theorem State.charge_pkgs (s : State) (d tenant row n : Nat) : (s.charge d tenant row n).pkgs = s.pkgs := by
  unfold State.charge; split <;> rfl
theorem State.chargeMem_bytes (s : State) (tenant pa n : Nat) : SameBytes s (s.chargeMem tenant pa n) := by
  unfold State.chargeMem; split <;> exact s.charge_bytes _ _ _ _
theorem State.draw_bytes (s : State) : SameBytes s s.draw.2 := ⟨rfl, rfl, rfl⟩
theorem State.msix_bytes (s : State) (p v vec : Nat) : SameBytes s (s.msix p v vec) := ⟨rfl, rfl, rfl⟩
theorem State.postEvent_bytes (s : State) (p v : Nat) (e : Word × Word) : SameBytes s (s.postEvent p v e) := by
  unfold State.postEvent; split <;> exact ⟨rfl, rfl, rfl⟩
theorem State.event_bytes (s : State) (d v code unit value : Nat) : SameBytes s (s.event d v code unit value) := by
  unfold State.event; dsimp only; split
  · exact ⟨rfl, rfl, rfl⟩
  · exact s.postEvent_bytes _ _ _
theorem State.postEvent_threads (s : State) (p v : Nat) (e : Word × Word) : (s.postEvent p v e).threads = s.threads := by
  unfold State.postEvent; split <;> rfl
theorem State.event_threads (s : State) (d v code unit value : Nat) : (s.event d v code unit value).threads = s.threads := by
  unfold State.event; dsimp only; split
  · rfl
  · exact s.postEvent_threads _ _ _
theorem State.threadFault_bytes (s : State) (th kind pc first second epc : Nat) (addr : Word) :
    SameBytes s (s.threadFault th kind pc first second epc addr) := by
  unfold State.threadFault; exact (SameBytes.refl s).trans (State.event_bytes _ _ _ _ _ _)
theorem State.threadFault_threads (s : State) (th kind pc first second epc : Nat) (addr : Word) :
    (s.threadFault th kind pc first second epc addr).threads = s.threads := by
  unfold State.threadFault; exact State.event_threads _ _ _ _ _ _
theorem State.memFault_bytes (s : State) (d : Nat) (r : MemRec) : SameBytes s (s.memFault d r) := by
  unfold State.memFault; exact (SameBytes.refl s).trans (State.event_bytes _ _ _ _ _ _)
theorem State.memFault_threads (s : State) (d : Nat) (r : MemRec) : (s.memFault d r).threads = s.threads := by
  unfold State.memFault; exact State.event_threads _ _ _ _ _ _
theorem State.sigEvent_bytes (s : State) (d : Nat) (r : SigRec) : SameBytes s (s.sigEvent d r) := by
  unfold State.sigEvent; exact (SameBytes.refl s).trans (State.event_bytes _ _ _ _ _ _)
theorem State.count_bytes (s : State) (d i : Nat) : SameBytes s (s.count d i) := ⟨rfl, rfl, rfl⟩
theorem State.staleRsp_bytes (s : State) (d : Nat) : SameBytes s (s.staleRsp d) := ⟨rfl, rfl, rfl⟩
theorem State.xlatCl_bytes (s : State) (c tenant v va : Nat) : SameBytes s (s.xlatCl c tenant v va).2 := ⟨rfl, rfl, rfl⟩
theorem State.xlatCl_threads (s : State) (c tenant v va : Nat) : (s.xlatCl c tenant v va).2.threads = s.threads := rfl
theorem State.xlatCl_die (s : State) (c tenant v va d : Nat) : (s.xlatCl c tenant v va).2.die d = s.die d := rfl

/-! ### The network -/

theorem State.emit_bytes (s : State) (d tag : Nat) (o : Outst) (p : Packet) : SameBytes s (s.emit d tag o p) := ⟨rfl, rfl, rfl⟩
/-- What a request that leaves changes: its die's tags and the network. -/
theorem State.emitNew_net {s t : State} {d : Nat} {o : Outst} {p : Packet} (e : s.emitNew d o p = some t) : NetOnly s t := by
  unfold State.emitNew at e; split at e
  · cases e; exact (NetOnly.refl s).post p
  · cases h : freeTag (s.die d) with
    | none => simp [h] at e
    | some k =>
      simp only [h, Option.map_some, Option.some.injEq] at e; subst e
      exact ⟨rfl, rfl, rfl, rfl, rfl, rfl, rfl, rfl, rfl⟩
theorem State.sendPk_net (s : State) (d : Nat) (kind : OKind) (vi cls : Nat) (p : Packet) : NetOnly s (s.sendPk d kind vi cls p) := by
  unfold State.sendPk; dsimp only; split
  · rename_i e; split at e
    · exact absurd e (by simp)
    · exact State.emitNew_net e
  · exact (NetOnly.refl s).setDie _ _
theorem State.sendPk_bytes (s : State) (d : Nat) (kind : OKind) (vi cls : Nat) (p : Packet) : SameBytes s (s.sendPk d kind vi cls p) :=
  (s.sendPk_net d kind vi cls p).bytes
theorem State.sendPk_threads (s : State) (d : Nat) (kind : OKind) (vi cls : Nat) (p : Packet) : (s.sendPk d kind vi cls p).threads = s.threads :=
  (s.sendPk_net d kind vi cls p).threads
theorem State.sendPk_clusters (s : State) (d : Nat) (kind : OKind) (vi cls : Nat) (p : Packet) : (s.sendPk d kind vi cls p).clusters = s.clusters :=
  (s.sendPk_net d kind vi cls p).clusters
theorem State.send_bytes (s : State) (d : Nat) (kind : OKind) (tenant vi cls deadline target : Nat) (body : Payload) :
    SameBytes s (s.send d kind tenant vi cls deadline target body) := s.sendPk_bytes _ _ _ _ _
theorem State.send_threads (s : State) (d : Nat) (kind : OKind) (tenant vi cls deadline target : Nat) (body : Payload) :
    (s.send d kind tenant vi cls deadline target body).threads = s.threads := s.sendPk_threads _ _ _ _ _
theorem State.sendSig_bytes (s : State) (d : Nat) (kind : OKind) (tenant vi cls deadline hd key : Nat) (epoch : BitVec 8)
    (fn : SigFn) (value src writer : Nat) : SameBytes s (s.sendSig d kind tenant vi cls deadline hd key epoch fn value src writer) :=
  s.sendPk_bytes _ _ _ _ _
theorem State.respond_bytes (s : State) (rq : Packet) (b : Bool) (status : Nat) (body : Payload) (f : Option (Nat × Nat × Nat)) :
    SameBytes s (s.respond rq b status body f) := ⟨rfl, rfl, rfl⟩
theorem State.respond_parts (s : State) (rq : Packet) (b : Bool) (status : Nat) (body : Payload) (f : Option (Nat × Nat × Nat)) :
    (s.respond rq b status body f).threads = s.threads ∧ (s.respond rq b status body f).dies = s.dies ∧
    (s.respond rq b status body f).clusters = s.clusters ∧ (s.respond rq b status body f).pkgs = s.pkgs := ⟨rfl, rfl, rfl, rfl⟩

/-- A response answers its request (R358, R376). -/
theorem State.respond_answers (s : State) (rq : Packet) (status : Nat) (body : Payload) (f : Option (Nat × Nat × Nat)) :
    ∃ r ∈ (s.respond rq false status body f).net, Answers s rq r status body :=
  ⟨_, List.mem_append_right _ (List.mem_singleton.2 rfl), rfl, rfl, rfl, rfl, rfl, rfl, rfl, rfl, rfl, rfl⟩

/-- A request other than a CANCEL is in the network with a tag, or waits at its die (R375, R376). -/
theorem State.sendPk_requests (s : State) (d : Nat) (kind : OKind) (vi cls : Nat) (p : Packet) (h : p.src = d) (hk : kind ≠ .cancel) :
    Requests (s.sendPk d kind vi cls p) d kind p.body := by
  unfold State.sendPk; dsimp only
  split
  · rename_i u e
    split at e
    · exact absurd e (by simp)
    · unfold State.emitNew at e
      rw [if_neg hk] at e
      cases ht : freeTag (s.die d) with
      | none => simp [ht] at e
      | some t =>
        simp only [ht, Option.map_some, Option.some.injEq] at e; subst e
        refine ⟨{ kind := kind, tenant := p.tenant.toNat, vi := vi, cls := cls, dpkg := p.dpkg.toNat, ddie := p.ddie.toNat, depoch := p.depoch, pepoch := p.pepoch }, p, rfl, rfl, h, .inr ⟨t, ?_, ?_⟩⟩
        · show tget? (((s.setDie d _).die d).outst) t = _
          rw [State.die_set_same]; exact tget?_tset_same _ _ _
        · exact List.mem_append_right _ (List.mem_singleton.2 rfl)
  · refine ⟨{ kind := kind, tenant := p.tenant.toNat, vi := vi, cls := cls, dpkg := p.dpkg.toNat, ddie := p.ddie.toNat, depoch := p.depoch, pepoch := p.pepoch }, p, rfl, rfl, h, .inl ?_⟩
    rw [State.die_set_same]
    exact List.mem_append_right _ (List.mem_singleton.2 rfl)

/-! ### One instruction of a thread -/

theorem State.portUse_parts (s : State) (c port key : Nat) :
    SameBytes s (s.portUse c port key) ∧ (s.portUse c port key).threads = s.threads ∧ (s.portUse c port key).pkgs = s.pkgs ∧
    (s.portUse c port key).dies = s.dies ∧ (s.portUse c port key).net = s.net := by
  unfold State.portUse; split
  · exact ⟨SameBytes.refl s, rfl, rfl, rfl, rfl⟩
  · exact ⟨⟨rfl, rfl, rfl⟩, rfl, rfl, rfl, rfl⟩
theorem issued_threads (s : State) (n : Nat) : (issued s n).threads = s.threads := by
  unfold issued; simp only [State.modCluster_threads, State.charge_threads, State.modDie_threads, (State.portUse_parts _ _ _ _).2.1]
theorem issued_thread (s : State) (n k : Nat) : (issued s n).thread k = s.thread k := by unfold State.thread; rw [issued_threads]
theorem issued_bytes (s : State) (n : Nat) : SameBytes s (issued s n) := by
  unfold issued; dsimp only
  refine (State.portUse_parts s (thCluster n) (threadPort (s.thread n)) (n % 128)).1.trans ?_
  exact SameBytes.trans (t := (State.modDie _ _ _)) ⟨rfl, rfl, rfl⟩ ((State.charge_bytes _ _ _ _ _).trans ⟨rfl, rfl, rfl⟩)
theorem issued_pkgs (s : State) (n : Nat) : (issued s n).pkgs = s.pkgs := by
  unfold issued; simp only [State.modCluster_pkgs, State.charge_pkgs, State.modDie_pkgs, (State.portUse_parts _ _ _ _).2.2.1]
theorem issued_pkg (s : State) (n p : Nat) : (issued s n).pkg p = s.pkg p := by unfold State.pkg; rw [issued_pkgs]

/-- An instruction whose word is at the PC has its effect on the state in which its token is spent. -/
theorem performIf_issues {s : State} {th : BitVec 23} {word : BitVec 64 → Bool} (h : Issues s th word) (f : Nat → Thread → State → State) :
    performIf word th s f = .next (f th.toNat (s.thread th.toNat) (issued s th.toNat)) := by
  simp only [performIf, h.1, h.2.1, h.2.2, if_true]

theorem perform_ready {s : State} {th : BitVec 23} {i : Instr} (h : Ready s th i) (f : Nat → Thread → State → State) :
    perform i th s f = .next (f th.toNat (s.thread th.toNat) (issued s th.toNat)) := performIf_issues h f

/-- A thread that cannot issue is as it was (log 1). -/
theorem performIf_idle {s : State} {th : BitVec 23} (word : BitVec 64 → Bool) (h : canIssue s th.toNat = false) (f : Nat → Thread → State → State) :
    performIf word th s f = .next s := by
  simp [performIf, h]

/-- A thread whose word at the PC is another's is as it was (log 6). -/
theorem performIf_other {s : State} {th : BitVec 23} (word : BitVec 64 → Bool) (h : (s.thread th.toNat).pc.toNat % 8 = 0)
    (hw : (fetchWord (s.thread th.toNat)).any word = false) (f : Nat → Thread → State → State) : performIf word th s f = .next s := by
  simp [performIf, h, hw]

/-- R91, R124: a PC that is no multiple of 8 raises FETCH_ALIGN before anything else. -/
theorem performIf_unaligned {s : State} {th : BitVec 23} (word : BitVec 64 → Bool) (hc : canIssue s th.toNat = true)
    (h : (s.thread th.toNat).pc.toNat % 8 ≠ 0) (f : Nat → Thread → State → State) :
    performIf word th s f = .next ((issued s th.toNat).raise th.toNat cFetchAlign ((s.thread th.toNat).pc.zeroExtend 64)) := by
  simp [performIf, hc, h]

/-- An instruction always answers a next state. -/
theorem performIf_next (s : State) (th : BitVec 23) (word : BitVec 64 → Bool) (f : Nat → Thread → State → State) : ∃ u, performIf word th s f = .next u := by
  unfold performIf; dsimp only
  repeat' split
  all_goals exact ⟨_, rfl⟩

theorem perform_next (s : State) (i : Instr) (th : BitVec 23) (f : Nat → Thread → State → State) : ∃ u, perform i th s f = .next u :=
  performIf_next s th _ f

/-- An instruction of registers completes when it raises nothing. -/
theorem performReg_ready {s : State} {th : BitVec 23} {i : Instr} (h : Ready s th i) (bad : Thread → Option (Nat × Word)) (f : Thread → Thread)
    (hb : bad (s.thread th.toNat) = none) : performReg i th s bad f = .next (Went s th f) := by
  simp only [performReg, perform_ready h, hb, Went]

/-- An instruction of registers raises its exception (R123, R124). -/
theorem performReg_raises {s : State} {th : BitVec 23} {i : Instr} (h : Ready s th i) (bad : Thread → Option (Nat × Word)) (f : Thread → Thread)
    {c : Nat} {a : Word} (hb : bad (s.thread th.toNat) = some (c, a)) :
    performReg i th s bad f = .next ((issued s th.toNat).raise th.toNat c a) := by
  simp only [performReg, perform_ready h, hb]

/-- R72: an exception outside the trap window, with a handler, enters the trap window. -/
theorem raise_enters (s : State) (n cause : Nat) (addr : Word) (h : (s.thread n).st ≠ .trap) (hp : (s.thread n).trapPc ≠ 0) :
    s.raise n cause addr = s.setThread n (enterTrap (s.thread n) cause addr) := by
  have h1 : ((s.thread n).st == TState.trap) = false := by simpa using h
  simp only [State.raise, h1, hp, if_false, Bool.false_eq_true]

/-- An exception changes no byte of memory, and no other thread. -/
theorem raise_bytes (s : State) (n cause : Nat) (addr : Word) : SameBytes s (s.raise n cause addr) := by
  unfold State.raise; dsimp only
  split
  · exact SameBytes.trans (SameBytes.set_thread s _ _) (State.threadFault_bytes _ _ _ _ _ _ _ _)
  · split
    · exact SameBytes.trans (SameBytes.set_thread s _ _) (State.threadFault_bytes _ _ _ _ _ _ _ _)
    · exact SameBytes.set_thread s _ _

theorem raise_other (s : State) (n cause : Nat) (addr : Word) (k : Nat) (h : k ≠ n) : (s.raise n cause addr).thread k = s.thread k := by
  unfold State.raise; dsimp only
  split
  · unfold State.thread; rw [State.threadFault_threads]; exact State.thread_set_other s n _ k h
  · split
    · unfold State.thread; rw [State.threadFault_threads]; exact State.thread_set_other s n _ k h
    · exact State.thread_set_other s n _ k h

/-- An instruction of registers changes its own thread, no other thread and no byte of memory. -/
theorem Went_thread (s : State) (th : BitVec 23) (f : Thread → Thread) : (Went s th f).thread th.toNat = nextPc (f (s.thread th.toNat)) :=
  State.thread_set_same _ _ _
theorem Went_other (s : State) (th : BitVec 23) (f : Thread → Thread) (k : Nat) (h : k ≠ th.toNat) : (Went s th f).thread k = s.thread k := by
  unfold Went; rw [State.thread_set_other _ _ _ _ h, issued_thread]
theorem Went_bytes (s : State) (th : BitVec 23) (f : Thread → Thread) : SameBytes s (Went s th f) := (issued_bytes s th.toNat).trans (SameBytes.set_thread _ _ _)
theorem Left_thread (s : State) (th : BitVec 23) (t : Thread) : (Left s th t).thread th.toNat = t := State.thread_set_same _ _ _
theorem Left_other (s : State) (th : BitVec 23) (t : Thread) (k : Nat) (h : k ≠ th.toNat) : (Left s th t).thread k = s.thread k := by
  unfold Left; rw [State.thread_set_other _ _ _ _ h, issued_thread]
theorem Left_bytes (s : State) (th : BitVec 23) (t : Thread) : SameBytes s (Left s th t) := (issued_bytes s th.toNat).trans (SameBytes.set_thread _ _ _)

/-! ### Ring commands and messages -/

/-- A ring command that may start and is not refused (R489). -/
theorem startCmd_starts {s : State} {c : CmdRef} {k : RCmd} {op : Nat} (h : Starts s c k op) (f : RCmd → State → State) :
    startCmd s c op f = .next (f k (s.modCmd c (fun k => { k with started := true }))) := by
  simp [startCmd, h.found, h.opcode, h.may, h.right]

/-- A ring command that is refused completes as REFUSED (R489). -/
theorem startCmd_refused {s : State} {c : CmdRef} {k : RCmd} {op : Nat} (h1 : s.rcmd? c = some k) (h2 : k.opcode = op)
    (h3 : s.canStart c = true) (h4 : s.refuses c k = true) (f : RCmd → State → State) :
    startCmd s c op f = .next (s.finishCmd c 3 (refusedResult op)) := by
  simp [startCmd, h1, h2, h3, h4]

theorem startCmd_next (s : State) (c : CmdRef) (op : Nat) (f : RCmd → State → State) : ∃ u, startCmd s c op f = .next u := by
  unfold startCmd; split
  · exact ⟨_, rfl⟩
  · split
    · exact ⟨_, rfl⟩
    · split <;> exact ⟨_, rfl⟩

/-- A message that is heard at its own package and passes the checks is performed (R508, R513). -/
theorem performMsg_asked {s : State} {m : Msg} {pkg : BitVec 8} {mb : BitVec 6} (h : Asked s m pkg mb) :
    performMsg m pkg mb s = .next (State.takeOut pkg.toNat mb.toNat false (m.perform (popped s pkg) (asker s pkg mb))) := by
  obtain ⟨⟨h1, h2, h3, h4, h5⟩, ⟨p1, p2, p3, p4, p5⟩⟩ := h
  have hrun : (popped s pkg).runMsg m (asker s pkg mb) = m.perform (popped s pkg) (asker s pkg mb) := by
    unfold State.runMsg
    rw [p1, p2, p3, p5]
    rcases p4 with p4 | p4 <;> simp [p4]
  have h4' := h4
  unfold popped at h4'
  unfold performMsg
  simp only [h1, h2, h3, ne_eq, not_true, false_or, if_false]
  rw [h4']
  simp only [h5, Bool.false_eq_true, if_false]
  exact congrArg (fun o => Host.Outcome.next (State.takeOut pkg.toNat mb.toNat false o)) hrun

/-- A message that is not the next to perform leaves the state (log 42). -/
theorem performMsg_waits {s : State} {pkg : BitVec 8} {mb : BitVec 6} (m : Msg) (h : (s.pkg pkg.toNat).goQueue.head? ≠ some mb.toNat) :
    performMsg m pkg mb s = .next s := by
  simp [performMsg, h]

end Sys2Proof.Machine
end

