-- ==== Sys2Proof/Tests/Slice0.lean ====
section
/-! SUPPORT. Tests: ill-formed commands that WellFormed refuses; small cases worked out from the rules; instruction words written out from
the encodings of 04_instruction_set; and, for each statement of Certificates/Slice0/Obligations.lean that has hypotheses, states and operands
that meet them. -/
namespace Sys2Proof.Tests

-- one proof after another: the checks run in one thread's memory
set_option Elab.async false

open Sys2Proof.Machine

/-! ### Small states -/

/-- An image of a machine of one rack. -/
def image1 : ImageInfo := { ok := true, machine := 7, racks := 1, x8x8 := false, rhCode := 0, major := 1, minor := 0, wbCode := 0 }

/-- A VI that tenant 5 holds. -/
def vi5 : Vi := { st := .bound, tenant := 5, trapPc := 0x2000 }

/-- Section entries: V, RD, WR, EX, then UNCACHED where so named; section 0 of die 0's DRAM or yard SRAM. -/
def entCached : SectionEntry := 0xF000000000000000
def entUncached : SectionEntry := 0xF400000000000000
/-- One granule of yard SRAM, read, write and execute. -/
def entYard : SectionEntry := 0xF001000000800000
/-- Section 0 of die 1's DRAM. -/
def entNext : SectionEntry := 0xF000000000001000

/-- Package 0 in run phase with VI 1 bound to tenant 5: section 0 cached, section 1 uncached, section 2 in yard SRAM, section 3 on die 1. -/
def pkg0 : Pkg := {
  phase := .run, clean := true, lead := true, image := some image1, central := some 0, tick := 5000000, link0 := true, link4 := true
  vis := [(0, { st := .bound, tenant := 9 }), (1, vi5)]
  l2 := [(2048, 0)], sections := [(2 ^ 23, entCached), (2 ^ 23 + 1, entUncached), (2 ^ 23 + 2, entYard), (2 ^ 23 + 3, entNext)] }

/-- Thread 0 (die 0, cluster 0, thread processor 0), running for tenant 5. -/
def thread5 : Thread := { st := .running, tenant := 5, vi := 1, cls := 2, deadline := 6000000, pc := 0x1000, trapPc := 0x2000 }

/-- The package with that thread, and no other; tenant 5 owns section 0 of dies 0 and 1 and one yard granule of die 0. -/
def run0 : State := { pkgs := [(0, pkg0)], dies := [(0, { owner := [(0, 5), (768, 5)] }), (1, { owner := [(0, 5)] })], threads := [(0, thread5)] }

/-- The same with some registers of thread 0 set. -/
def withT (l : List (Nat × Word)) : State := run0.setThread 0 (l.foldl (fun t e => regSet t e.1 e.2) thread5)

/-- The same with thread 0 changed. -/
def withThread (f : Thread → Thread) : State := run0.setThread 0 (f thread5)

/-! ### Ill-formed commands -/

def packet0 (b : Payload) : Packet := {
  vc := 0, hops := 0, dpkg := 0, ddie := 0, spkg := 0, sdie := 0, tenant := 5, depoch := 0, pepoch := 0, tag := 0, dl := 0, status := 0, sepoch := 0
  body := b, flt := none }

/-- Four lanes that carry 220 symbols together, and 219; three lanes. -/
theorem test_wf_flit : (Instr.flitReceived 0 (List.replicate 4 (List.replicate 55 0))).wf = true ∧
    (Instr.flitReceived 0 (List.replicate 54 0 :: List.replicate 3 (List.replicate 55 0))).wf = false ∧
    (Instr.flitReceived 0 [List.replicate 110 0, List.replicate 110 0, []]).wf = false := by decide +kernel
theorem test_wf_junction : (Instr.junctionBeatNak 0 ⟨3, []⟩).wf = false ∧ (Instr.junctionBeatNak 0 ⟨2, List.replicate 65 []⟩).wf = false ∧
    (Instr.junctionBeatNak 0 ⟨2, List.replicate 64 []⟩).wf = true := by decide +kernel
theorem test_wf_smbus : (Instr.smbusBlockWrite 0 0 (List.replicate 31 0) true).wf = false := by decide +kernel
theorem test_wf_straps : (Instr.strapSample 0 [.low]).wf = false ∧ (Instr.strapTest 0 1 50 false).wf = false ∧ (Instr.strapTest 0 12 50 false).wf = false ∧
    (Instr.strapTest 0 2 50 false).wf = true ∧ (Instr.strapTest 0 11 50 false).wf = true := by decide +kernel
theorem test_wf_register : (Instr.registerWrite 0 0 0 3 0).wf = false ∧ (Instr.registerWrite 0 0 0 8 0).wf = true := by decide +kernel
theorem test_wf_training : (Instr.trainingAttempt 0 ⟨[], 15, true, ⟨0, 0, 0, 0, 0⟩, [], 0⟩).wf = false := by decide +kernel
theorem test_wf_width : (Instr.widthStep 0 0 0).wf = false ∧ (Instr.widthStep 0 5 0).wf = false ∧ (Instr.widthStep 0 1 0).wf = true ∧
    (Instr.widthStep 0 4 0).wf = true := by decide +kernel
theorem test_wf_drain : (Instr.drainTimeout 0 64).wf = false ∧ (Instr.drainTimeout 0 63).wf = true := by decide +kernel
theorem test_wf_payload : (Instr.wrPacket (packet0 (.wr 0 0 [] false)) .clean).wf = false ∧ (Instr.dataPacket (packet0 (.data 0 1 []))).wf = false ∧
    (Instr.wrPacket (packet0 (.wrBits 0 [] (List.replicate 128 0))) .clean).wf = false ∧
    (Instr.ticketPacket (packet0 (.ticket ⟨0, 0, 0, 0⟩ ⟨0, 0, [], [], []⟩))).wf = false ∧
    (Instr.mgmtPacket (packet0 (.mgmt (.relayReq 33 (List.replicate 256 0))))).wf = false ∧
    (Instr.mgmtPacket (packet0 (.mgmt (.relayRsp 0 [])))).wf = false := by decide +kernel
/-- The channel that carries no packet, for each packet command. -/
theorem test_wf_channel : ∀ c ∈ [fun p => Instr.rdPacket p .clean, fun p => .wrPacket p .clean, .amoPacket, .sigPacket, .cancelPacket, .ticketPacket, .tqueryPacket,
    .mgmtPacket, .epochPacket, .mapPacket, .ackPacket, .dataPacket, .amorspPacket, .sigrspPacket, .trspPacket],
    (c { packet0 .ack with vc := 7 }).wf = false ∧ (c { packet0 .ack with vc := 6 }).wf = true := by decide +kernel
/-- A mailbox that does not exist, for each message that checks its own. -/
theorem test_wf_mailbox : ∀ c ∈ [Instr.identify 0, .position 0, .viBind 0, .viUnbind 0, .viResetMessage 0, .viMove 0, .viCeiling 0, .viWindow 0, .viTrap 0, .viQuery 0, .sectionMap 0, .sectionUnmap 0, .sectionRead 0, .sectionTables 0, .ringConfigure 0, .ringResume 0, .ringAbort 0, .ringDisable 0, .ringCoalesce 0, .ringQuery 0, .signalAlloc 0, .signalFree 0, .signalTimeout 0, .signalEvents 0, .signalReports 0, .signalScan 0, .signalStatus 0, .powerCap 0, .powerPin 0, .powerPriority 0, .powerFixed 0, .powerWatermark 0, .powerNotices 0, .powerAck 0, .powerReadings 0, .powerMonitors 0, .powerFuses 0, .powerEnergy 0, .booksLedger 0, .booksFaults 0, .booksDeadlines 0, .faultEvents 0, .faultThreads 0, .faultMemory 0, .faultRelease 0, .faultPackage 0, .resetPackage 0, .firmwareQuery 0, .firmwareStage 0, .firmwareStageHost 0, (.firmwareCommit 0 · ⟨image1⟩), .firmwareDiscard 0, .linkPort 0, .linkRetrain 0, .linkUnfence 0, .linkRoutes 0, .linkJunctions 0, .pointsGrant 0, .pointsInterval 0, .pointsPin 0, .pointsRead 0, .pointsClear 0, .diagCounters 0, .diagUnits 0, .diagSetUnit 0, .diagEcho 0, .waitedMessageReply 0],
    (c 33).wf = false ∧ (c 32).wf = true := by decide +kernel
theorem test_wf_window : (Instr.windowBWrite 0 0 0 []).wf = false ∧ (Instr.windowBRead 0 0 0 0).wf = false ∧ (Instr.windowBRead 0 0 0 1).wf = true := by decide +kernel

/-- The table gives no row bits, so no word spells a command (log 17). -/
theorem test_no_words : decodeTableWord 64 0 = none ∧ State.reset.withFetchWord 64 0 = State.reset := by decide +kernel

/-! ### Hypotheses that are met: thread instructions -/

theorem met_StepRunsFrontCommand : State.reset.pending = [] := by decide +kernel
theorem met_StepKeepsMemoryCanonical : MemoryOk run0 ∧ ∃ t, step { run0 with pending := [.nop 0] } = .next t := ⟨by unfold MemoryOk; decide +kernel, _, rfl⟩
/-- A byte range that covers one marked word and half of another. -/
theorem met_BytesWrittenReadBack : Memory.wf run0.mem = true ∧ ({ run0 with poison := [1, 2] }.writePa 8 (List.replicate 12 1)).poison = [2] := by decide +kernel

def answersNext (o : Out) : Bool := match o with | .next _ => true | _ => false
theorem nexts {o : Out} (h : answersNext o = true) : ∃ u, o = .next u := by
  cases o with
  | next u => exact ⟨u, rfl⟩
  | fault _ => cases h
  | refused _ => cases h

/-- An instruction word by the fields of R92, and its tails: an immediate, and FN, MOD and SF. -/
def word (op rd ra rb rc tail : Nat) : BitVec 64 := BitVec.ofNat 64 (op * 2 ^ 56 + rd * 2 ^ 50 + ra * 2 ^ 44 + rb * 2 ^ 38 + rc * 2 ^ 32 + tail)
def ctl (fn md sf : Nat) : Nat := fn * 2 ^ 24 + md * 2 ^ 16 + sf

/-- Thread 0's fetch buffer holds a word at its PC, 0x1000. -/
def holding (s : State) (w : BitVec 64) : State := s.setThread 0 { s.thread 0 with fetch := [⟨0x1000, leBytes 8 w.toNat⟩] }
def readyTest (s : State) (i : Instr) : Bool :=
  canIssue s 0 && decide ((s.thread 0).pc.toNat % 8 = 0) && (fetchWord (s.thread 0)).any (fun w => spells 0 w i)
theorem ready_of {s : State} {i : Instr} (h : readyTest s i = true) : Ready s 0 i := by
  simp only [readyTest, Bool.and_eq_true, decide_eq_true_eq] at h
  exact ⟨h.1.1, h.1.2, h.2⟩
/-- Each instruction is the one its word spells, and thread 0 issues it. -/
def readyAll (s : State) (l : List (Instr × BitVec 64)) : Bool := l.all (fun e => readyTest (holding s e.2) e.1)
theorem readies {s : State} {l : List (Instr × BitVec 64)} (h : readyAll s l = true) : ∀ e ∈ l, Ready (holding s e.2) 0 e.1 :=
  fun e he => ready_of (List.all_eq_true.1 h e he)

/-- Worked example of 04: the word of GLD l0, t4, t8, t3. -/
theorem test_gld_word : decodeWord 0 0x2240420300020000 = some (.gld 0 16 4 8 3 0x02 []) ∧ decodeWord 0 0x2240420300020000 ≠ decodeWord 0 0x2340420300020000 ∧
    decodeWord 0 0x5100000000000000 = some (.mfs 0 0 0) ∧ decodeWord 0 0x0000000000000000 = none := by decide +kernel
/-- A word that spells another instruction performs nothing (log 6). -/
theorem test_other_word : (match exec (.nop 0) (holding run0 (word 0x04 0 0 0 0 1)) with | .next u => u == holding run0 (word 0x04 0 0 0 0 1) | _ => false) = true ∧
    (match exec (.li 0 0 1) (holding run0 (word 0x04 0 0 0 0 1)) with | .next u => rget (u.thread 0) 0 == 1 && (u.thread 0).pc == 0x1008 | _ => false) = true := by
  decide +kernel

theorem met_AluResults : readyAll run0 [(.add 0 39 0 15 true, word 1 39 0 15 0 (ctl 0 0 1)), (.sub 0 39 0 15 false, word 1 39 0 15 0 (ctl 1 0 0)),
      (.and 0 39 0 15 true, word 1 39 0 15 0 (ctl 2 0 1)), (.or 0 39 0 15 true, word 1 39 0 15 0 (ctl 3 0 1)), (.xor 0 39 0 15 true, word 1 39 0 15 0 (ctl 4 0 1)),
      (.andn 0 39 0 15 true, word 1 39 0 15 0 (ctl 5 0 1)), (.shl 0 39 0 15 true, word 1 39 0 15 0 (ctl 6 0 1)), (.shr 0 39 0 15 true, word 1 39 0 15 0 (ctl 7 0 1)),
      (.sar 0 39 0 15 true, word 1 39 0 15 0 (ctl 8 0 1)), (.ror 0 39 0 15 true, word 1 39 0 15 0 (ctl 9 0 1)), (.min 0 39 0 15 true, word 1 39 0 15 0 (ctl 10 0 1)),
      (.max 0 39 0 15 true, word 1 39 0 15 0 (ctl 11 0 1)), (.minu 0 39 0 15 true, word 1 39 0 15 0 (ctl 12 0 1)), (.maxu 0 39 0 15 true, word 1 39 0 15 0 (ctl 13 0 1)),
      (.slt 0 39 0 15 true, word 1 39 0 15 0 (ctl 14 0 1)), (.sltu 0 39 0 15 true, word 1 39 0 15 0 (ctl 15 0 1))] = true ∧ regOk 39 ∧ regOk 0 ∧ regOk 15 := by decide +kernel
theorem met_CountAndProductResults : readyAll run0 [(.clz 0 39 0 true, word 1 39 0 0 0 (ctl 0x10 0 1)), (.ctz 0 39 0 true, word 1 39 0 0 0 (ctl 0x11 0 1)),
      (.popc 0 39 0 true, word 1 39 0 0 0 (ctl 0x12 0 1)), (.bswap 0 39 0 true, word 1 39 0 0 0 (ctl 0x13 0 1)), (.mul 0 39 0 15 true, word 2 39 0 15 0 (ctl 0 0 1)),
      (.mulh 0 39 0 15 true, word 2 39 0 15 0 (ctl 1 0 1)), (.mulhu 0 39 0 15 true, word 2 39 0 15 0 (ctl 2 0 1)),
      (.madd 0 39 0 15 31 true, word 2 39 0 15 31 (ctl 7 0 1))] = true ∧ regOk 39 ∧ regOk 0 ∧ regOk 15 ∧ regOk 31 := by decide +kernel
def divs : List (Instr × BitVec 64) := [(.div 0 3 1 2 true, word 2 3 1 2 0 (ctl 3 0 1)), (.divu 0 3 1 2 true, word 2 3 1 2 0 (ctl 4 0 1)),
  (.rem 0 3 1 2 true, word 2 3 1 2 0 (ctl 5 0 1)), (.remu 0 3 1 2 true, word 2 3 1 2 0 (ctl 6 0 1))]
/-- A divisor of zero, the overflow corner, and another divisor. -/
theorem met_DivisionResults : (∀ e ∈ divs, rget ((holding (withT [(1, 7)]) e.2).thread 0) 2 = 0) ∧ readyAll (withT [(1, 7)]) divs = true ∧
    (let s := withT [(1, 0x8000000000000000), (2, 0xFFFFFFFFFFFFFFFF)]
     readyAll s divs = true ∧ ∀ e ∈ divs, rget ((holding s e.2).thread 0) 1 = 0x8000000000000000 ∧ rget ((holding s e.2).thread 0) 2 = 0xFFFFFFFFFFFFFFFF ∧
       rget ((holding s e.2).thread 0) 2 ≠ 0) := by decide +kernel
theorem met_ImmediateAndCompareResults : readyAll run0 [(.alui 0 39 0 15 7, word 3 39 0 15 0 7), (.li 0 39 7, word 4 39 0 0 0 7), (.lih 0 39 7, word 5 39 0 0 0 7),
      (.cmp 0 0 15, word 6 0 0 15 0 0), (.cmpi 0 0 7, word 7 0 0 0 0 7), (.sel 0 39 0 15 9 true, word 8 39 0 15 9 (ctl 0 0 1))] = true ∧
    regOk 39 ∧ (15#6).toNat < 16 ∧ flagTest (9#6).toNat ((holding run0 (word 8 39 0 15 9 (ctl 0 0 1))).thread 0).cond = some false := by decide +kernel
theorem met_FloatResults : readyAll run0 [(.fadd 0 39 0 15 1, word 0x10 39 0 15 0 (ctl 0 1 0)), (.fsub 0 39 0 15 1, word 0x10 39 0 15 0 (ctl 1 1 0)),
      (.fmul 0 39 0 15 1, word 0x10 39 0 15 0 (ctl 2 1 0)), (.ffma 0 39 0 15 31 1, word 0x10 39 0 15 31 (ctl 3 1 0)), (.fmin 0 39 0 15 1, word 0x10 39 0 15 0 (ctl 4 1 0)),
      (.fmax 0 39 0 15 1, word 0x10 39 0 15 0 (ctl 5 1 0)), (.fabs 0 39 0 1, word 0x10 39 0 0 0 (ctl 6 1 0)), (.fneg 0 39 0 1, word 0x10 39 0 0 0 (ctl 7 1 0)),
      (.fdiv 0 39 0 15 1, word 0x10 39 0 15 0 (ctl 8 1 0)), (.fsqrt 0 39 0 1, word 0x10 39 0 0 0 (ctl 9 1 0)), (.fcmp 0 0 15, word 0x11 0 0 15 0 0),
      (.cvt 0 39 0 11 0xB1, word 0x12 39 0 0 0 (ctl 11 0xB1 0))] = true ∧
    regOk 39 ∧ regOk 31 ∧ (1#8).toNat % 4 < 2 ∧ (11#8).toNat < 12 ∧ (0xB1#8).toNat / 16 < 12 ∧ (0xB1#8).toNat % 4 < 2 := by decide +kernel
theorem met_PackedResults : readyAll run0 [(.padd 0 39 0 15 3 2 true, word 0x18 39 0 15 3 (ctl 0 2 1)), (.psub 0 39 0 15 3 2 true, word 0x18 39 0 15 3 (ctl 1 2 1)),
      (.pmin 0 39 0 15 3 2 true, word 0x18 39 0 15 3 (ctl 2 2 1)), (.pmax 0 39 0 15 3 2 true, word 0x18 39 0 15 3 (ctl 3 2 1)),
      (.pminu 0 39 0 15 3 2 true, word 0x18 39 0 15 3 (ctl 4 2 1)), (.pmaxu 0 39 0 15 3 2 true, word 0x18 39 0 15 3 (ctl 5 2 1)),
      (.pcmp 0 5 39 0 15 3 2 true, word 0x19 39 0 15 3 (ctl 5 2 1)), (.mpop 0 39 0 true, word 0x1A 39 0 0 0 (ctl 0 0 1)), (.mfirst 0 39 0 true, word 0x1A 39 0 0 0 (ctl 1 0 1)),
      (.mlast 0 39 0 true, word 0x1A 39 0 0 0 (ctl 2 0 1)), (.mrange 0 39 0 true, word 0x1A 39 0 0 0 (ctl 3 0 1))] = true ∧
    regOk 39 ∧ laneWidth 0 = some 8 ∧ laneWidth 1 = some 16 ∧ laneWidth 2 = some 32 ∧ (5#8).toNat < 6 := by decide +kernel
/-- The last assigned condition codes, and the first unassigned ones. -/
theorem met_BranchTargets : readyAll run0 [(.bc 0 9 4, word 0x40 9 0 0 0 4), (.bc 0 10 4, word 0x40 10 0 0 0 4), (.br 0 5 1 2 4, word 0x41 5 1 2 0 4),
      (.br 0 6 1 2 4, word 0x41 6 1 2 0 4), (.jmp 0 4, word 0x42 0 0 0 0 4), (.jmpr 0 39, word 0x43 0 39 0 0 0)] = true ∧ regOk 39 ∧
    ((9#6).toNat, (run0.thread 0).cond.getLsbD 7) ∈ [(9, (run0.thread 0).cond.getLsbD 7)] ∧
    ((5#6).toNat, true) ∈ [(5, !(rget (run0.thread 0) 1).ult (rget (run0.thread 0) 2))] ∧ 10 ≤ (10#6).toNat ∧ 6 ≤ (6#6).toNat := by decide +kernel

def calls : List (Instr × BitVec 64) := [(.call 0 4, word 0x44 0 0 0 0 4), (.callr 0 3, word 0x45 0 3 0 0 0)]
def rets : List (Instr × BitVec 64) := [(.ret 0, word 0x46 0 0 0 0 0)]
/-- Five frames, a caller, the bottom frame, and EXIT. -/
theorem met_CallsAndReturns : readyAll run0 (calls ++ rets ++ [(.exit 0, word 0x47 0 0 0 0 0)]) = true ∧ (run0.thread 0).st = .running ∧ (run0.thread 0).stack = [] ∧
    (run0.thread 0).rhUsed = 0 ∧ (run0.thread 0).rhExt = 0 ∧
    (let s := withThread (fun t => { t with stack := List.replicate 4 zeros8 }); readyAll s (calls ++ rets) = true ∧ (s.thread 0).stack.length < 5 ∧ (s.thread 0).stack ≠ []) := by
  decide +kernel
/-- Six frames, with the last record of the region free, and with none. -/
theorem met_CallsAndReturns_spill : ∀ used ∈ [15, 16], let s := withThread (fun t => { t with stack := List.replicate 5 zeros8, rhUsed := used })
    readyAll s calls = true ∧ 5 ≤ (s.thread 0).stack.length ∧ (used = 15 → (s.thread 0).rhUsed < 1024 * 2 ^ min (s.die 0).rhCode.toNat 2 / 64) ∧
      (used = 16 → 1024 * 2 ^ min (s.die 0).rhCode.toNat 2 / 64 ≤ (s.thread 0).rhUsed) := by decide +kernel
/-- A record that reads, a record with an error mark, and records moved out. -/
theorem met_CallsAndReturns_refill : (let s := withThread (fun t => { t with rhUsed := 16 })
      readyAll s rets = true ∧ (s.thread 0).stack = [] ∧ (s.thread 0).rhUsed = 15 + 1 ∧ s.poisonIn (2 ^ 48 + 64 * 15) 64 = none ∧
      (let v := { s with poison := [(2 ^ 48 + 64 * 15) / 8] }; readyAll v rets = true ∧ (v.poisonIn (2 ^ 48 + 64 * 15) 64).isSome = true ∧ (v.thread 0).trapPc ≠ 0)) ∧
    (let s := withThread (fun t => { t with rhExt := 1 }); readyAll s rets = true ∧ (s.thread 0).rhUsed = 0 ∧ 0 < (s.thread 0).rhExt) := by decide +kernel

def trapped : State := withThread (fun t => { t with st := .trap, saved := some ⟨zeros8, zeros8, zeros8⟩, trapEpc := 0x1008, rhUsed := 2, rhExt := 1 })
theorem met_CallsAndReturns_trap : readyAll trapped (calls ++ rets) = true ∧ (trapped.thread 0).st = .trap := by decide +kernel

/-- The last special register, the first number that names none, and every one that may be written. -/
theorem met_SpecialRegisters : readyAll run0 ([(.nop 0, word 0x4F 0 0 0 0 0), (.mfs 0 39 13, word 0x51 39 0 0 0 13), (.mfs 0 39 14, word 0x51 39 0 0 0 14),
      (.tret 0, word 0x58 0 0 0 0 0)] ++ [0, 1, 2, 3, 4, 5, 6].map (fun k => (Instr.mts 0 39 (BitVec.ofNat 32 k), word 0x52 0 39 0 0 k))) = true ∧
    (run0.thread 0).st = .running ∧ (13#32).toNat = 13 ∧ 14 ≤ (14#32).toNat ∧ 6 ≤ (6#32).toNat := by decide +kernel
theorem met_SpecialRegisters_trap : readyAll trapped [(.mts 0 39 0, word 0x52 0 39 0 0 0), (.tret 0, word 0x58 0 0 0 0 0)] = true ∧ (trapped.thread 0).st = .trap ∧
    (trapped.thread 0).saved = some ⟨zeros8, zeros8, zeros8⟩ := by decide +kernel
/-- BRK, a register that does not exist, a word of no instruction, and a PC that is not aligned. -/
theorem met_TrapEntry : readyAll run0 [(.brk 0 7, word 0x49 0 0 0 0 7), (.add 0 40 0 0 false, word 1 40 0 0 0 0), (.add 0 0 63 0 false, word 1 0 63 0 0 0)] = true ∧
    (run0.thread 0).st = .running ∧ (run0.thread 0).trapPc ≠ 0 ∧ 40 ≤ (40#6).toNat ∧
    (let s := holding run0 0xFF00000000000000; canIssue s 0 = true ∧ (s.thread 0).pc.toNat % 8 = 0 ∧
      (fetchWord (s.thread 0)).any (· == 0xFF00000000000000) = true ∧ decodeWord 0 0xFF00000000000000 = none) ∧
    (let s := withThread (fun t => { t with pc := 0x1007 }); canIssue s 0 = true ∧ (s.thread 0).pc.toNat % 8 ≠ 0) := by decide +kernel
theorem met_DoubleFaultHalt : readyAll trapped [(.brk 0 7, word 0x49 0 0 0 0 7)] = true ∧ (trapped.thread 0).st = .trap ∧
    (let s := withThread (fun t => { t with trapPc := 0 }); readyAll s [(.brk 0 7, word 0x49 0 0 0 0 7)] = true ∧ (s.thread 0).st = .running ∧ (s.thread 0).trapPc = 0) := by
  decide +kernel

theorem maps_of {s : State} {n size : Nat} {va : Word} {write : Bool} {x : Xlat} (h : (decide (va.toNat < 2 ^ 48) && decide (va.toNat % size = 0) &&
    ((s.xlatCl (thCluster n) (s.thread n).tenant (s.thread n).vi va.toNat).1 == some x) && (if write then entryWr x.entry else entryRd x.entry)) = true) :
    Maps s n va size write x := by
  simp only [Bool.and_eq_true, decide_eq_true_eq, beq_iff_eq] at h
  exact ⟨h.1.1.1, h.1.1.2, h.1.2, h.2⟩

def xCached : Xlat := ⟨entCached, 0x40⟩
def xUncached : Xlat := ⟨entUncached, 0x40⟩

/-- A cluster whose cache holds physical line 0 of tenant 5. -/
def line0 : Line := { line := 0, tenant := 5, valid := 15, data := List.replicate 128 0xA5, vi := 1 }
def hit : State := run0.setCluster 0 { lines := [(0, line0)] }

/-- LD and ST with RD and RB l7, RA t1, 8 bytes and 1 byte, plain, with each ORD. -/
def lds : List (Instr × BitVec 64) := [(.ld 0 23 1 0 0x30 .clean, word 0x20 23 1 0 0x30 0), (.ld 0 23 1 0 2 .clean, word 0x20 23 1 0 2 0),
  (.ld 0 23 1 0 4 .clean, word 0x20 23 1 0 4 0), (.st 0 1 23 0 0x30 .clean, word 0x21 0 1 23 0x30 0), (.st 0 1 23 0 2 .clean, word 0x21 0 1 23 2 0),
  (.st 0 1 23 0 4 .clean, word 0x21 0 1 23 4 0)]
/-- A hit at the line's end, a miss of one byte, and an uncached section. -/
theorem met_LoadsAndStores : readyAll hit lds = true ∧ readyAll run0 lds = true ∧ hit.lookup 0 5 0x78 8 = some (List.replicate 8 0xA5) ∧
    entryUncached entCached = false ∧ entryUncached entUncached = true ∧ (hit.thread 0).held = [] ∧
    findWay (run0.cluster 0) 5 0 = none ∧ findSiding (run0.cluster 0) 5 0 = none := by decide +kernel
theorem met_LoadsAndStores_maps : Maps hit 0 0x78 8 false ⟨entCached, 0x78⟩ ∧ Maps run0 0 0x40 1 false xCached ∧ Maps hit 0 0x40 8 true xCached ∧
    Maps run0 0 0x2000040 4 true xUncached ∧ Maps run0 0 0x2000040 4 false xUncached :=
  ⟨maps_of (by decide +kernel), maps_of (by decide +kernel), maps_of (by decide +kernel), maps_of (by decide +kernel), maps_of (by decide +kernel)⟩
theorem met_LoadsAndStores_store : (∀ k ∈ (hit.cluster 0).trackers, k.stream = false) ∧ (∀ e ∈ (hit.cluster 0).lines, e.2.data.length = 128) ∧
    (∀ l ∈ (hit.cluster 0).siding, l.data.length = 128) := by decide +kernel
/-- A held store of the thread on the line of the access. -/
theorem met_LoadsAndStores_behind : let s := withThread (fun t => { t with held := [.store 0x48 [1] false false true] })
    readyAll s lds = true ∧ ((s.thread 0).held.any (fun h => h.line? == some (xCached.pa / 128))) = true := by decide +kernel
/-- Orders 0 to 3; the first address out of range; a misaligned one. -/
theorem met_LoadsAndStores_orders : (0x30#6).toNat / 2 % 4 = 0 ∧ (2#6).toNat / 2 % 4 = 1 ∧ (4#6).toNat / 2 % 4 = 2 ∧ 2 ≤ (6#6).toNat / 2 % 4 ∧
    2 ^ 48 ≤ (rget ((withT [(1, 0x1000000000000)]).thread 0) 1).toNat ∧ (rget ((withT [(1, 0xFFFFFFFFFFFF)]).thread 0) 1).toNat < 2 ^ 48 ∧
    (rget ((withT [(1, 0xFFFFFFFFFFFF)]).thread 0) 1).toNat % 2 ^ ((0x10#6).toNat / 16) ≠ 0 := by decide +kernel

def glane (i va : Nat) : GLane := { lane := i, va := BitVec.ofNat 64 va, pa := va, uncached := false }

/-- GLD and SST of block p0, base t0, indices t8 to t15, mask t9, 4 bytes; lane 7 alone, and no lane. -/
def gstate : State := (withT [(0, 0x40), (9, 0x80)]).setCluster 0 { lines := [(0, line0)] }
def gathers (rc : Nat) : List (Instr × BitVec 64) := [(.gld 0 24 0 8 (BitVec.ofNat 6 rc) 2 [], word 0x22 24 0 8 rc (ctl 0 2 0)),
  (.sst 0 24 0 8 (BitVec.ofNat 6 rc) 2 [], word 0x23 24 0 8 rc (ctl 0 2 0))]
theorem met_GatherAndScatter : readyAll gstate (gathers 9) = true ∧ readyAll gstate (gathers 10) = true ∧ blockOk 24 ∧ blockOk 8 ∧ (gstate.thread 0).held = [] ∧
    (((issued gstate 0).checkLanes 0 4 false [(7, 0x40)] []).1 = .inl [glane 7 0x40]) ∧ (((issued gstate 0).checkLanes 0 4 true [(7, 0x40)] []).1 = .inl [glane 7 0x40]) ∧
    (((issued gstate 0).checkLanes 0 4 true [(7, 0x41)] []).1 = .inr (9, 0x41)) ∧ (gstate.thread 0).st = .running ∧ (gstate.thread 0).trapPc ≠ 0 ∧
    gstate.lookup 0 5 0x40 4 = some (List.replicate 4 0xA5) ∧ pqOpen (gstate.cluster 0) 3 2 = true ∧
    (List.range 8).filter (fun i => (rget (gstate.thread 0) 9).getLsbD i) = [7] ∧ (List.range 8).filter (fun i => (rget (gstate.thread 0) 10).getLsbD i) = [] := by decide +kernel
theorem met_GatherAndScatter_queues : ∀ q e i, e ∈ tget (gstate.cluster 0).pq q [] → e.who ≠ .thread 0 i := by
  intro q e i h; have : tget (gstate.cluster 0).pq q [] = [] := rfl
  rw [this] at h; simp at h

theorem met_AtomicInstructions : readyAll run0 [(.amoAdd 0 3 1 2 3, word 0x28 3 1 2 0 (ctl 0 3 0)), (.amoFadd32 0 3 1 2 2, word 0x28 3 1 2 0 (ctl 1 2 0)),
      (.amoMin 0 3 1 2 3, word 0x28 3 1 2 0 (ctl 2 3 0)), (.amoMax 0 3 1 2 3, word 0x28 3 1 2 0 (ctl 3 3 0)), (.amoMinu 0 3 1 2 3, word 0x28 3 1 2 0 (ctl 4 3 0)),
      (.amoMaxu 0 3 1 2 3, word 0x28 3 1 2 0 (ctl 5 3 0)), (.amoOr 0 3 1 2 3, word 0x28 3 1 2 0 (ctl 6 3 0)),
      (.amoCas 0 3 1 2 4 3, word 0x28 3 1 2 4 (ctl 7 3 0))] = true ∧ (3#8).getLsbD 1 = true ∧ (2#8).getLsbD 1 = true ∧ paSpace xCached.pa ≠ 1 := by decide +kernel
theorem met_AtomicInstructions_maps : Maps run0 0 0x40 8 true xCached ∧ Maps run0 0 0x4000040 4 true ⟨entYard, 2 ^ 48 + 0x40⟩ ∧ paSpace (2 ^ 48 + 0x40) = 1 ∧
    (run0.thread 0).st = .running ∧ (run0.thread 0).trapPc ≠ 0 := ⟨maps_of (by decide +kernel), maps_of (by decide +kernel), by decide +kernel⟩

theorem quiet_held (w : BitVec 64) : Quiet (holding run0 w) 0 :=
  ⟨List.Pairwise.nil, fun _ h => by simp [holding, run0, State.cluster, State.setThread, tget, tget?] at h,
    fun _ h => by simp [holding, run0, State.cluster, State.setThread, tget, tget?] at h, fun _ h => by simp [holding, run0, State.cluster, State.setThread, tget, tget?] at h, rfl,
    rfl, rfl⟩
/-- TRAVEL out of range, to its own die and to die 1. -/
theorem met_FencesExitTravel : readyAll run0 [(.fenceFull 0, word 0x50 0 0 0 0 (ctl 0 0 0)), (.fenceAcquire 0, word 0x50 0 0 0 0 (ctl 1 0 0)),
      (.fenceRelease 0, word 0x50 0 0 0 0 (ctl 2 0 0)), (.fenceDrain 0, word 0x50 0 0 0 0 (ctl 3 0 0)), (.exit 0, word 0x47 0 0 0 0 0), (.ret 0, word 0x46 0 0 0 0 0),
      (.travel 0 1, word 0x48 0 1 0 0 0)] = true ∧ (run0.thread 0).launch = none ∧ (run0.thread 0).origin = none ∧ (run0.thread 0).st = .running ∧
    (run0.thread 0).stack = [] ∧ (run0.thread 0).rhUsed = 0 ∧ (run0.thread 0).rhExt = 0 ∧
    2 ^ 48 ≤ (rget ((withT [(1, 0x1000000000000)]).thread 0) 1).toNat ∧ (run0.xlatCl 0 5 1 0x40).1 = some xCached ∧ paDie xCached.pa = 0 ∧
    (run0.xlatCl 0 5 1 0x6000000).1 = some ⟨entNext, 2 ^ 37⟩ ∧ paDie (2 ^ 37) ≠ 0 := by decide +kernel
theorem met_ReleaseWritesBack : readyAll hit [(.fenceRelease 0, word 0x50 0 0 0 0 (ctl 2 0 0)), (.fenceFull 0, word 0x50 0 0 0 0 (ctl 0 0 0)),
      (.fenceDrain 0, word 0x50 0 0 0 0 (ctl 3 0 0))] = true ∧ (hit.cluster 0).siding.length ≤ 32 ∧ (hit.cluster 0).lines = [(0, line0)] := by decide +kernel

def sigs : List (Instr × BitVec 64) := [(.sigAdd 0 1 2 0, word 0x30 0 1 2 0 (ctl 0 0 0)), (.sigSet 0 1 2 0, word 0x30 0 1 2 0 (ctl 1 0 0)),
  (.sigRead 0 3 1 0, word 0x30 3 1 0 0 (ctl 2 0 0)), (.sigWait 0 3 1 2 4 0, word 0x30 3 1 2 4 (ctl 3 0 0)), (.sigTake 0 3 1 2 4 0, word 0x30 3 1 2 4 (ctl 4 0 0)),
  (.sigTake 0 3 1 2 4 0x5F, word 0x30 3 1 2 4 (ctl 4 0x5F 0))]
/-- A valid pool signal's handle, the last core signal by MOD, and an invalid handle. -/
theorem met_SignalInstructions : readyAll (withT [(1, 0x1000000000003FFF)]) sigs = true ∧ handleValid (rget ((withT [(1, 0x1000000000003FFF)]).thread 0) 1) = true ∧
    handleValid (mkHandle 2 0 0 (127 * 64 + 47)) = true ∧ (0x5F#8).getLsbD 0 = true ∧ (0x5F#8).toNat / 2 ≤ 47 ∧
    readyAll (withT [(1, 0x1000000000004000)]) sigs = true ∧ handleValid 0x1000000000004000 = false ∧ (run0.thread 0).st = .running ∧ readyAll trapped sigs = true := by
  decide +kernel

/-- RHOUT of two records into section 0, RHIN of one from it. -/
theorem met_RoundhouseMoves : readyAll trapped [(.rhout 0 1 2, word 0x59 0 1 2 0 0), (.rhin 0 1 2, word 0x5A 0 1 2 0 0)] = true ∧ Memory.wf trapped.mem = true ∧
    (trapped.thread 0).st = .trap ∧ (trapped.thread 0).rhUsed = 2 ∧ (trapped.thread 0).rhExt = 1 ∧ (trapped.thread 0).held = [] ∧
    trapped.linesBusy 0 5 [1] = false ∧ trapped.poisonIn (2 ^ 48) 128 = none ∧
    (∀ u ∈ (trapped.cluster 0).trackers, u.stream = false) ∧
    (let v := { trapped with poison := [2 ^ 45] }; v.poisonIn (2 ^ 48) 128 ≠ none) := by decide +kernel
theorem met_RoundhouseMoves_checks : (trapped.rhCheck 0 true 0x80 2).1 = .ok [⟨entCached, 0x80⟩, ⟨entCached, 0xC0⟩] ∧ (trapped.rhCheck 0 false 0x80 1).1 = .ok [⟨entCached, 0x80⟩] ∧
    (trapped.rhRead 0 0x80 [⟨entCached, 0x80⟩]).1 = .inl [List.replicate 64 0] := ⟨rfl, rfl, by decide +kernel⟩
theorem met_RoundhouseMoves_running : readyAll run0 [(.rhout 0 1 2, word 0x59 0 1 2 0 0), (.rhin 0 1 2, word 0x5A 0 1 2 0 0)] = true ∧ (run0.thread 0).st = .running := by
  decide +kernel

/-! ### Hypotheses that are met: fetch, grants, packets and signals -/

/-- The packet arrives, and a test holds of the state in which its die takes it. -/
def hereWith (s : State) (p : Packet) (f : State → Bool) : Bool := match s.arrive p with | .here t => f t | _ => false
theorem here_of {s : State} {p : Packet} {f : State → Bool} (h : hereWith s p f = true) : ∃ t, s.arrive p = .here t ∧ f t = true := by
  unfold hereWith at h
  generalize s.arrive p = a at h ⊢
  cases a with
  | here t => exact ⟨t, rfl, h⟩
  | notNext _ => cases h
  | answered _ => cases h
/-- The response is matched, and a test holds of its request and of the state it leaves. -/
def matchedWith (s : State) (p : Packet) (f : Outst → State → Bool) : Bool := match s.reply p with | .matched o t => f o t | _ => false
theorem matched_of {s : State} {p : Packet} {f : Outst → State → Bool} (h : matchedWith s p f = true) : ∃ o t, s.reply p = .matched o t ∧ f o t = true := by
  unfold matchedWith at h
  generalize s.reply p = a at h ⊢
  cases a with
  | matched o t => exact ⟨o, t, rfl, h⟩
  | notNext _ => cases h
  | dropped _ => cases h

/-- The network holds this packet and no other. -/
def sent (p : Packet) : State := { run0 with net := [p] }

/-- A sector that the cache holds; an unmapped one; one without the right to execute. -/
theorem met_FetchAndGrants_fetch : (let s := (withThread (fun t => { t with pc := 0x48 })).setCluster 0 { lines := [(0, line0)] }
      s.fetches 0 = true ∧ s.portFree 0 1 128 = true ∧ s.fetchOut 0 0x40 = false ∧ (s.xlatCl 0 5 1 0x40).1 = some xCached ∧ entryEx entCached = true ∧
      entryUncached entCached = false ∧ s.lookup 0 5 0x40 32 = some (List.replicate 32 0xA5)) ∧
    (let s := withThread (fun t => { t with pc := 0x80000000 })
     s.fetches 0 = true ∧ s.portFree 0 1 128 = true ∧ s.fetchOut 0 0x80000000 = false ∧ (s.xlatCl 0 5 1 0x80000000).1 = none ∧ (s.thread 0).st = .running ∧
      (s.thread 0).trapPc ≠ 0) ∧
    (let s := run0.modPkg 0 (fun k => { k with sections := [(2 ^ 23, 0xE000000000000000)] })
     s.fetches 0 = true ∧ (s.xlatCl 0 5 1 0x1000).1 = some ⟨0xE000000000000000, 0x1000⟩ ∧ entryEx 0xE000000000000000 = false) := by decide +kernel

def asideOne : Aside := { who := .load 0, line := 3, need := 8, tenant := 5, vi := 1, cls := 2, deadline := 0, stable := false }
theorem met_FetchAndGrants_miss : let s := run0.setCluster 0 { aside := [asideOne] }
    s.dieUp 0 = true ∧ (s.cluster 0).aside = [asideOne] ∧ (s.cluster 0).miss = [] ∧ (s.cluster 0).work = none ∧ findWay (s.cluster 0) 5 3 = none ∧
    findSiding (s.cluster 0) 5 3 = none ∧ (s.die 0).outst = [] ∧ (s.die 0).sendQ = [] := by decide +kernel

def ulane : GLane := { lane := 7, va := 0x2000040, pa := 0x40, uncached := true }
def pqOne : PqEntry := { who := .thread 0 7, tenant := 5, cls := 2, deadline := 0 }
/-- Lane 7 of thread processor 0 goes to queue 3. -/
theorem met_FetchAndGrants_queue : let s := (withThread (fun t => { t with wait := .gather 24 4 false [ulane] })).setCluster 0 { pqWait := [(3, pqOne)] }
    s.dieUp 0 = true ∧ s.unitRuns 0 0 = true ∧ s.portFree 0 2 131 = true ∧ (s.cluster 0).pqWait = [(3, pqOne)] ∧ pqOne.who = .thread 0 7 ∧
    pqOpen (s.cluster 0) 3 2 = true ∧ (s.thread 0).wait = .gather 24 4 false [ulane] ∧ [ulane].find? (fun l => l.lane == 7) = some ulane := by decide +kernel

def wrOne : Packet := packet0 (.wr 0x40 0xFF (List.replicate 128 7) false)
def rdOne (pa : Nat) (t : Nat) : Packet := { packet0 (.rd (BitVec.ofNat 52 pa) 9) with tenant := BitVec.ofNat 12 t }

/-- Room for the answer and the DRAM's turn. -/
def turnOf (s : State) (p : Packet) : Bool := (s.bring p).isNext p && (s.bring p).canPlace p && ((s.bring p).dramTurn p).isSome
/-- A packet that is not in the network; one that a stale epoch turns away; one whose die is out of service; one of a wrong channel; one that arrives. -/
theorem met_RequestArrival : (run0.bring wrOne).isNext wrOne = false ∧
    (let p := { wrOne with depoch := 1 }; turnOf (sent p) p = true ∧ opcFits (opcOf p.body) 0 = true ∧ p.depoch ≠ ((sent p).die 0).epoch) ∧
    (let s := (sent wrOne).modDie 0 (fun x => { x with st := .resetting }); turnOf s wrOne = true ∧ s.dieUp 0 = false) ∧
    (let p := { wrOne with vc := 1 }; turnOf (sent p) p = true ∧ opcFits (opcOf p.body) p.vc.toNat = false) ∧
    turnOf (sent wrOne) wrOne = true ∧ opcFits (opcOf wrOne.body) wrOne.vc.toNat = true ∧ hereWith (sent wrOne) wrOne (fun t => t.dieUp 0) = true := by decide +kernel
/-- The far die is known to be out of service: the way stops at its source. -/
theorem met_RequestArrival_stopped : let p := { wrOne with ddie := 1 }
    let s := (sent p).modDie 0 (fun x => { x with targets := [(1, .outOfService)] })
    let r : Rx := ⟨8, true, p⟩
    s.seek p = some (0, r) ∧ s.headOf 0 r = r ∧ s.hop 0 r = .stopped ∧ isRequest p = true ∧ opcFits (opcOf p.body) 0 = true ∧
    (s.leave 0 r).seek p = none ∧ (s.leave 0 r).seekLink p = none ∧ tget (s.die 0).targets p.dst .inService ≠ .inService := by decide +kernel
/-- A write crosses the junction from die 1 to die 0, and from package 0's die 1 to its die 7 over two. -/
theorem test_ways : (let p := { wrOne with sdie := 1 }; hereWith (sent p) p (fun t => t.net == []) = true) ∧
    (let p := { wrOne with sdie := 1, ddie := 7 }; hereWith (sent p) p (fun t => t.net == []) = true) := by decide +kernel

/-- RD, WR and WR of bits, of the tenant's line 0. -/
theorem met_HomeMemory : Memory.wf (sent wrOne).mem = true ∧ hereWith (sent wrOne) wrOne (fun t => (t.homeRefuses 5 0 (some 0)).isNone && (tget? (t.die 0).outst 0).isNone) = true ∧
    (let p := packet0 (.wrBits 0x40 (List.replicate 128 0xF0) (List.replicate 128 0x5A)); hereWith (sent p) p (fun t => (t.homeRefuses 5 0 (some 0)).isNone) = true) ∧
    hereWith (sent (rdOne 0x40 5)) (rdOne 0x40 5) (fun t => (t.homeRefuses 5 0).isNone) = true ∧ (sent (rdOne 0x40 5)).poisonIn 0 32 = none ∧
    (sent (rdOne 0x40 5)).poisonIn 96 32 = none ∧ (9#4).getLsbD 0 = true ∧ (9#4).getLsbD 3 = true := by decide +kernel
/-- Each atomic function (AMO_FADD32 of 32 bits, the others of 64). -/
theorem met_HomeMemory_amo : ∀ f ∈ List.range 8, let p := packet0 (.amo 0x48 (BitVec.ofNat 3 f) (f != 1) 0 3 4)
    hereWith (sent p) p (fun t => (t.homeRefuses 5 0x48 (some 0)).isNone) = true ∧ paSpace 0x48 = 0 ∧ 0x48 % (if f != 1 then 8 else 4) = 0 ∧
    (sent p).poisonIn 0x48 8 = none := by decide +kernel
/-- Reads of the first address past DRAM's end, of space 3, and of another owner's range. -/
theorem met_HomeMemory_refused : (∀ p ∈ [rdOne dramSize 5, rdOne (3 * 2 ^ 48) 5, rdOne 0x2000000 5], hereWith (sent p) p (fun t => t.owner 0x2000000 != 5) = true ∧ p.tenant ≠ 0 ∧
      (sent p).slotBusy p 0 = false) ∧ paPopulated dramSize = false ∧ paSpace (3 * 2 ^ 48) = 3 ∧ paSpace 0x2000000 < 2 ∧ paPopulated 0x2000000 = true := by decide +kernel

def sigPk (fn : SigFn) (v : BitVec 32) : Packet := { packet0 (.sig (BitVec.ofNat 52 (2 * 2 ^ 48 + 16)) fn v 1 0 0 1) with tag := 3 }
theorem met_SignalBox_arrives : hereWith (sent (sigPk .add 1)) (sigPk .add 1) (fun _ => true) = true ∧ paSpace (2 * 2 ^ 48 + 16) = 2 ∧ paPopulated (2 * 2 ^ 48 + 16) = true ∧
    (2 * 2 ^ 48 + 16) % 16 = 0 := by decide +kernel
/-- The box of signal 1, with this count and owner, at its first request. -/
def boxed (p : Packet) (count : BitVec 32) (owner : Nat) : State := run0.modDie 0 (fun x => { x with sigQueue := [p], signals := [(1, { count := count, owner := owner })] })
/-- A count that ADD saturates; a wait met exactly; a take one short. -/
theorem met_SignalBox : ∀ e ∈ [(sigPk .add 1, 0xFFFFFFFF#32), (sigPk .set 0, 5), (sigPk .read 0, 5), (sigPk .wait 5, 5), (sigPk .take 5, 5), (sigPk .take 6, 5), (sigPk .wait 6, 5)],
    let s := boxed e.1 e.2 5
    s.dieUp 0 = true ∧ s.unitRuns 0 0x39 = true ∧ (s.die 0).sigQueue = [e.1] ∧ e.1.dst = 0 ∧ e.1.src = 0 ∧ s.served 0 5 = true ∧ e.1.tenant ≠ 0 ∧
    slotKey (paOff (2 * 2 ^ 48 + 16)) = 1 ∧ (s.signal 0 1).owner = e.1.tenant.toNat ∧ (s.signal 0 1).waiters = [] := by decide +kernel
theorem met_SignalBox_foreign : ∀ fn ∈ [SigFn.add, .set, .read, .wait, .take], let s := boxed (sigPk fn 1) 5 6
    s.dieUp 0 = true ∧ s.unitRuns 0 0x39 = true ∧ (s.die 0).sigQueue = [sigPk fn 1] ∧ (sigPk fn 1).tenant ≠ 0 ∧ (s.signal 0 1).owner ≠ 5 ∧ 1 < 65536 := by decide +kernel

def waiterOf (tag : BitVec 12) (thr : BitVec 32) : Waiter := { who := .thread 0, take := true, threshold := thr, remote := false, rq := { sigPk .take thr with tag := tag } }
theorem met_WaitersReleasedInOrder : let s := run0.modDie 0 (fun x => { x with signals := [(1, { count := 5, owner := 5, waiters := [waiterOf 1 2, waiterOf 2 3] })] })
    let g := s.signal 0 1
    1 < 65536 ∧ ((waiterOrder g.waiters).map (fun w => w.threshold.toNat)).sum ≤ g.count.toNat ∧ (∀ w ∈ g.waiters, w.take = true) ∧ g.waiters.length = 2 := by decide +kernel

/-! ### Responses -/

def rsp (b : Payload) (status : BitVec 4) : Packet := { packet0 b with vc := 1, tag := 9, status := status }
/-- A response that is not there, and one whose tag is free. -/
theorem met_StaleResponsesDropped : ∀ b ∈ [Payload.ack, .data 0 1 (List.replicate 128 0), .amorsp 0, .sigrsp 0 0, .trsp 0 0],
    (run0.bring (rsp b 0)).isNext (rsp b 0) = false ∧
    ((sent (rsp b 0)).bring (rsp b 0)).isNext (rsp b 0) = true ∧ tget? ((((sent (rsp b 0)).bring (rsp b 0)).take (rsp b 0)).die 0).outst 9 = none := by decide +kernel
theorem met_StaleResponsesDropped_epochs : ∀ p ∈ [{ rsp .ack 0 with depoch := 1 }, { rsp .ack 0 with sepoch := 1 }],
    let s := { run0.modDie 0 (fun x => { x with outst := [(9, { kind := .abandoned, tenant := 5, vi := 1, cls := 2, dpkg := 0, ddie := 0, depoch := 0, pepoch := 0 })] }) with net := [p] }
    let t := (s.bring p).take p
    (s.bring p).isNext p = true ∧ p.status.toNat ≠ stGone ∧ (t.die 0).epoch = 0 ∧ (tget? (t.die 0).outst 9).map (·.depoch) = some 0 ∧ (p.depoch ≠ 0 ∨ p.sepoch ≠ 0) := by decide +kernel

def outOf (k : OKind) : Outst := { kind := k, tenant := 5, vi := 1, cls := 2, dpkg := 0, ddie := 0, depoch := 0, pepoch := 0 }
/-- A response that answers tag 9, thread 0 waiting on it. -/
def answering (p : Packet) (k : OKind) (f : Thread → Thread) : State :=
  { (withThread f).modDie 0 (fun x => { x with outst := [(9, outOf k)] }) with net := [p] }

theorem met_ResponsesAnswer_load : let p := rsp (.data 0 1 (List.replicate 128 1)) 0
    let w := Wait.load 3 8 false false 0x18 0x18
    matchedWith (answering p (.uload 0) (fun t => { t with wait := w })) p (fun o t => o.kind == .uload 0 && (t.thread 0).wait == w) = true ∧ p.flt = none ∧ 0x18 % 128 + 8 ≤ 128 ∧
    (let m : MissReg := { id := 0, line := 0, tenant := 5, vi := 1, cls := 2, deadline := 0, asked := 1, merges := [(.load 0, 1)] }
     let s := (answering p (.fill 0 0) (fun t => { t with wait := w })).setCluster 0 { miss := [m] }
     matchedWith s p (fun o t => o.kind == .fill 0 0 && (t.cluster 0).work.isNone && (t.cluster 0).miss.find? (fun m => m.id == 0) == some m &&
       t.unanswered 0 (fun o => o.kind == .fill 0 0) == 0 && (findWay (t.cluster 0) 5 0).isNone && (findSiding (t.cluster 0) 5 0).isNone) = true ∧
     m.merges = [(.load 0, 1)] ∧ m.line = 0x18 / 128 ∧ m.err = false ∧ m.gone = false ∧ m.ovMask = 0 ∧
     (∀ i ∈ List.range 8, (1#4).getLsbD ((0x18 + i) / 32) = true)) := by decide +kernel
theorem met_ResponsesAnswer_others : let amo := rsp (.amorsp 5) 0
    let sig := rsp (.sigrsp 0 4) 0
    let ws := Wait.sig 3 false 0 0 0 1 5 100 0 none
    matchedWith (answering amo (.amo 0 false) (fun t => { t with wait := .amo (some 3) 0 true false 0x40 })) amo
      (fun o t => o.kind == .amo 0 false && (t.thread 0).wait == .amo (some 3) 0 true false 0x40 && (t.thread 0).held == []) = true ∧
    matchedWith (answering sig (.sigRead 0) (fun t => { t with wait := .sigRead 3 0 })) sig (fun o t => o.kind == .sigRead 0 && (t.thread 0).wait == .sigRead 3 0) = true ∧
    matchedWith (answering sig (.sigWait (.thread 0)) (fun t => { t with wait := ws })) sig (fun o t => o.kind == .sigWait (.thread 0) && (t.thread 0).wait == ws) = true ∧
    matchedWith (answering (rsp .ack 0) (.unitWrite ⟨0, 1, 0, 0⟩ 0 0) id) (rsp .ack 0) (fun o _ => o.kind == .unitWrite ⟨0, 1, 0, 0⟩ 0 0) = true := by decide +kernel
/-- The answer ARRIVED and the answer FULL of a travel. -/
theorem met_ResponsesAnswer_travel : ∀ st ∈ [5#4, 6#4], let p := rsp (.trsp 0 1) st
    let s := answering p (.travel 0) (fun t => { t with st := .travelling, travelCount := 1 })
    matchedWith s p (fun o t => o.kind == .travel 0 && (t.thread 0).st == .travelling && (t.thread 0).wait == .none) = true ∧
    tget? ((s.bring p).die 0).outst 9 = some (outOf (.travel 0)) ∧ s.travelOf 0 0 1 = true ∧ (st.toNat = 5 ∨ st.toNat = 6) := by decide +kernel

/-! ### Placement, travel, waits -/

def cmd0 : CmdRef := ⟨0, 1, 0, 0⟩
/-- A command of VI 1's ring 0, its eight words given, of Freight. -/
def cmdOf (w : List Word) (work : Work) (started : Bool) : RCmd :=
  { idx := 0, w := w, cls := 2, deadline := 6000000, dies := [0], order := 0, work := work, started := started }
def inRing (k : RCmd) : State := run0.modVi 0 1 (fun x => { x with rings := [(0, { st := .running, tail := 1, fetch := 1, held := [k] })] })

def env0 : Envelope := ⟨6000000, 1, 4096, 2⟩
def ticket0 : Ticket := ⟨0, 0x1000, zeros8, zeros8, List.replicate 15 0⟩
def queued : QTicket := ⟨env0, ticket0, 5, 1, 2, 0, none⟩

/-- LAUNCH of one thread over the dies of the mask; every context of the first thread processor but the first is free. A queued ticket of a later deadline. -/
def launching : State := inRing (cmdOf [0x0100000000000000, 0, 0x1, 0x1000000001, 0, 0, 0x1000, 0x2000] (.launch 1 0 0 0 0 0) true)
theorem met_PlacementAndTravel_launch : let w := launching.launchSkips 0
    launching.dieUp 0 = true ∧ (w.firstLaunch 0).map (·.1) = some cmd0 ∧ (w.findContext 0).isSome = true ∧ (w.die 0).arrivals = [] ∧
    (let q := { queued with env := ⟨6000001, 1, 4096, 2⟩ }; 2 < q.cls ∨ 2 = q.cls ∧ 6000000 < q.env.deadline.toNat) := by decide +kernel
theorem met_PlacementAndTravel_queue : let s := run0.modDie 0 (fun x => { x with arrivals := [queued] })
    s.dieUp 0 = true ∧ (s.die 0).arrivals = [queued] ∧ (s.findContext 0).isSome = true ∧ s.firstLaunch 0 = none := by decide +kernel

def ticketPk : Packet := { packet0 (.ticket env0 ticket0) with sdie := 1 }
/-- No context of die 0 is free. -/
def fullDie (s : State) : State := s.modDie 0 (fun x => { x with gate := x.gate &&& 0xFFFFFFFF00000000 })
/-- A free die, a full die with room in its queue, and one whose limit for the VI is 0. -/
theorem met_PlacementAndTravel_ticket :
    hereWith (sent ticketPk) ticketPk (fun s => !s.seenNot 0 4096 0 1 && s.viOf 0 5 == some 1 && (s.findContext 0).isSome) = true ∧
    hereWith (fullDie (sent ticketPk)) ticketPk (fun s => (s.findContext 0).isNone && queueRoom (s.die 0) 1) = true ∧
    hereWith ((fullDie (sent ticketPk)).modDie 0 (fun x => { x with qLimit := [(1, 0)] })) ticketPk (fun s => (s.findContext 0).isNone && !queueRoom (s.die 0) 1) = true := by
  decide +kernel
theorem met_PlacementAndTravel_query : let p := packet0 (.tquery 4096 0 1)
    hereWith (sent p) p (fun s => !(s.die 0).accepted.contains (4096, 0, 1)) = true ∧
    hereWith ((sent p).modDie 0 (fun x => { x with accepted := [(4096, 0, 1)] })) p (fun s => (s.die 0).accepted.contains (4096, 0, 1)) = true := by decide +kernel

/-- A travelling thread whose timers are all exactly due. -/
def travelling : State := withThread (fun t => { t with st := .travelling, tQuery := 4900000, tStart := 4000000, tReset := some 4900000 })
theorem met_TravelTimers : (travelling.thread 0).st = .travelling ∧ travelling.dieUp 0 = true ∧ (travelling.thread 0).tQuery + 100000 ≤ (travelling.pkg 0).tick ∧
    freeTag (travelling.die 0) = some 0 ∧ (travelling.thread 0).tHeld = false ∧ (travelling.thread 0).tStart + 1000000 ≤ (travelling.pkg 0).tick ∧
    (travelling.thread 0).tReset = some 4900000 ∧ (travelling.thread 0).launch = none ∧ (travelling.thread 0).origin = none ∧ (travelling.thread 0).wait = .none ∧
    (travelling.die 0).threadFaults = [] ∧
    (withThread (fun t => { t with st := .travelling, tHeld := true })).thread 0 = { thread5 with st := .travelling, tHeld := true } := by decide +kernel
theorem met_TravelTimers_origins (m : Nat) : (travelling.thread m).origin ≠ some (0, (travelling.die 0).epoch, (travelling.thread 0).travelCount) := by
  unfold travelling withThread
  rw [State.thread_set]
  split
  · exact fun h => by simp [thread5] at h
  · exact fun h => by simp [run0, State.thread, tget, tget?] at h; split at h <;> simp [thread5] at h

theorem met_DeadlineAndClassKept : ∃ u, exec (.mts 0 1 5) (holding (withT [(1, 0)]) (word 0x52 0 1 0 0 5)) = .next u ∧ (u.thread 0).st ≠ .free := ⟨_, rfl, by decide +kernel⟩

/-- The waiter of a CANCEL. -/
theorem met_EndsOfWaits_cancel : let p := packet0 (.cancel 1 (BitVec.ofNat 52 (2 * 2 ^ 48 + 16)))
    let s := { run0.modDie 0 (fun x => { x with signals := [(1, { count := 1, owner := 5, waiters := [waiterOf 1 2] })] }) with net := [p] }
    hereWith s p (fun t => (t.signal 0 1).waiters == [waiterOf 1 2]) = true ∧ slotKey (paOff (2 * 2 ^ 48 + 16)) = 1 ∧ (s.die 0).sigQueue = [] ∧
    (waiterOf 1 2).rq.src = p.src ∧ (waiterOf 1 2).rq.tag = 1 := by decide +kernel
def waiting (thr : BitVec 32) (due : Nat) (retry : Option Nat) : State :=
  (withThread (fun t => { t with wait := .sig 3 true 0x1000000000000001 0 0 1 thr 100 due retry })).modDie 0 (fun x => { x with signals := [(1, { count := 5, owner := 5 })] })
/-- A timeout that finds COUNT at the threshold, and one short of it; one while its retry waits; a retry at its very time. -/
theorem met_EndsOfWaits_timeout : ∀ e ∈ [(5, none), (6, none), (5, some 5000001), (6, some 5000001)], let s := waiting e.1 5000000 e.2
    (s.thread 0).wait = .sig 3 true 0x1000000000000001 0 0 1 e.1 100 5000000 e.2 ∧ 5000000 ≤ (s.pkg 0).tick ∧ s.dieUp 0 = true ∧ hDie 0x1000000000000001 = 0 ∧ s.net = [] ∧
    waitTag (s.die 0) (.thread 0) = none ∧ hKey 0x1000000000000001 = 1 ∧ (s.signal 0 1).owner = (s.thread 0).tenant ∧ (s.thread 0).tenant ≠ 0 ∧ (s.signal 0 1).count = 5 := by
  decide +kernel
theorem met_EndsOfWaits_retry : let s := waiting 6 5000001 (some 5000000)
    (s.thread 0).wait = .sig 3 true 0x1000000000000001 0 0 1 6 100 5000001 (some 5000000) ∧ 5000000 ≤ (s.pkg 0).tick ∧ (s.pkg 0).tick < 5000001 ∧ s.dieUp 0 = true := by
  decide +kernel
/-- The last core signal of a die; its processor holds no thread of the owner. -/
theorem met_EndsOfWaits_core : (8191#16).toNat < 8192 ∧ (let s := run0.modDie 0 (fun x => { x with signals := [(65536 + 8191, { owner := 5 })] })
    (∀ e ∈ s.threads, e.1 / 4096 = 0 → e.1 / 32 % 128 = 127 → e.2.st = .free ∨ e.2.tenant ≠ 5) ∧ (s.signal 0 (65536 + 8191)).owner ≠ 0 ∧
    (s.signal 0 (65536 + 8191)).waiters = []) := by decide +kernel

/-! ### Hypotheses that are met: the machine and its links -/

def mgmtPk (m : Payload) : Packet := { packet0 m with vc := 6, tenant := 0, ddie := 0, sdie := 0 }
def arrivesMgmt (s : State) (p : Packet) : Bool := match ({ s with net := [p] }.arriveMgmt p) with | .here _ => true | _ => false
def epoch1 : EpochMsg := { isPkg := false, state := 1, pkg := 0, die := 3, old := 1, new := 2, tick := 0 }
def reg0 : Registration := { pkg := 0, silicon := 1, pepoch := 0, depochs := [], lead := true, ports := [], fencedJ := [] }

theorem met_ManagementPackets : (∀ b ∈ [Payload.map ⟨0, []⟩, .map ⟨1, [reg0]⟩, .epoch epoch1, .epoch { epoch1 with state := 0 }, .epoch { epoch1 with state := 2 },
      .mgmt (.bindAsk 1 6), .mgmt (.unbound 1 6), .mgmt (.tick 6000000 5), .mgmt (.hold 0), .mgmt (.register reg0)], arrivesMgmt run0 (mgmtPk b) = true) ∧
    (0#32).toNat ≤ (run0.die 0).map.version.toNat ∧ (run0.die 0).map.version.toNat < (1#32).toNat ∧ (run0.die 0).outst = [] ∧ (run0.die 0).sendQ = [] ∧
    (run0.die 0).swapping = none ∧ (run0.pkg 0).roster = [] ∧ (run0.pkg 0).mapVersion = 0 := by decide +kernel

def station (f : Pkg → Pkg) : State := run0.modPkg 0 f
theorem met_CentralStation : (let s := station (fun k => { k with joinAt := some 0, tick := 200000000, roster := [reg0] });
      (s.pkg 0).phase = .run ∧ (s.pkg 0).central = some 0 ∧ (s.pkg 0).mapVersion = 0 ∧ s.joinEnds 0 = true) ∧
    (let s := station (fun k => { k with mapVersion := 4, mapDue := true, roster := [reg0] });
      (s.pkg 0).mapVersion ≠ 0 ∧ (s.pkg 0).mapDue = true ∧ (s.die 0).swapping = none) ∧
    (let s := station (fun k => { k with mapVersion := 4, tick := 100000000, roster := [reg0] }); (s.pkg 0).mapVersion ≠ 0 ∧ (s.pkg 0).lastAlign + 100000000 ≤ (s.pkg 0).tick) := by
  decide +kernel
/-- Package 2 finds the station of package 1 lost. -/
theorem met_CentralStation_takeover : let s := (run0.setPkg 2 { pkg0 with central := some 1 }).setPkg 1 {}
    (s.pkg 2).phase = .run ∧ (s.die 16).st = .inService ∧ (s.pkg 2).lead = true ∧ (s.pkg 2).central = some 1 ∧ s.dieUp 8 = false ∧
    (∀ n ∈ (s.reach 16).filter (fun n => dieNo n == 0 && s.dieUp n), (s.pkg (n / 8)).lead = true → 2 ≤ n / 8) := by decide +kernel

/-- Port 0 of die 0 of package 0, whose partner is package 1. -/
def withPort (x : Port) : State := run0.modDie 0 (fun y => { y with ports := [(0, x)] })
def far1 : PosRec := ⟨7, 1, 0, 0, 0⟩
theorem met_CentralStation_registration : (∀ lead ∈ [true, false], let s := (withPort { st := .up, far := some far1 }).modPkg 0 (fun k => { k with lead := lead })
    (s.pkg 0).phase = .run ∧ (s.die 0).st = .inService ∧ (s.registration 0).ports ≠ [] ∧ (s.pkg 0).roster = [] ∧ (s.pkg 0).mapVersion = 0) := by decide +kernel

def obs (lanes : List LaneObs) (passed : BitVec 4) (far : PosRec) : TrainObs := ⟨lanes, passed, true, far, [0, 1, 2, 3], 0⟩
/-- Two usable lanes and the right far end; the wrong one; four shorts; and no lane that passes. -/
theorem met_PortsTrain : let s := withPort { st := .training }
    s.dieUp 0 = true ∧ s.neverTrains 0 0 0 = false ∧ (s.port 0 0).st = .training ∧ s.positionOk 0 0 far1 = true ∧ s.positionOk 0 0 { far1 with pkg := 2 } = false ∧
    ((List.range 4).filter (fun i => (obs [.farEnd, .farEnd, .short, .isOpen] 3 far1).lanes.getD i .isOpen == .farEnd && (3#4).getLsbD i)).length = 2 ∧
    (∀ i ∈ List.range 4, (obs (List.replicate 4 .short) 0 far1).lanes.getD i .isOpen == .short) ∧
    (obs [.farEnd, .isOpen, .isOpen, .isOpen] 0 far1).lanes.getD 0 .isOpen = .farEnd ∧ (obs [] 0 far1).lockOk = true := by decide +kernel
theorem met_PortsTrain_others : ((withPort { st := .dark, retryAt := some 5000000 }).port 0 0).retryAt = some (run0.pkg 0).tick ∧
    8 ≤ ((withPort { st := .up, nakCount := 8 }).port 0 0).nakCount ∧ ((withPort { st := .up, nakCount := 7 }).port 0 0).nakCount < 8 ∧
    ((withPort { st := .up }).port 0 0).replayTicks.length ≤ 64 := by decide +kernel

def report0 : CreditReport := { free := [1024, 1024, 1024, 1024, 1024, 1024, 64], esc := [], ackseq := 0 }
theorem met_CreditsAndJunctions : (let s := withPort { st := .up, frozen := true }; s.dieUp 0 = true ∧ (s.port 0 0).st = .up ∧ (s.port 0 0).frozen = true ∧ (s.port 0 0).farSync = false) ∧
    (let s := withPort { st := .up, quiet := [(0, 4999000), (6, 4999001)] }; let x := s.port 0 0
      x.frozen = false ∧ x.replay = [] ∧ x.txRest = [] ∧ x.rxPart = [] ∧ tget x.quiet 0 0 + 1000 ≤ (s.pkg 0).tick ∧ ¬ tget x.quiet 6 0 + 1000 ≤ (s.pkg 0).tick ∧
      ∀ vc ∈ List.range 7, reported report0 x vc = x.credits.getD vc 0 ∧ sameEsc vc (reportedEsc report0 x vc) x.esc = true) ∧
    (let s := withPort { st := .up, width := 4, trained := 4 }; let y := (s.receiveCtrl 0 0 isWidthCtrl).port 0 0
      min y.trained (max (s.pkg 0).minWidth (min 2 y.want)) ≠ y.width ∧ (y.rxSeq - 0).msb = false ∧ (y.rxSeq - 1).msb = true) ∧
    (let x : Port := { st := .up, ctrlQ := [.width 2 0] }; x.resend = [] ∧ x.replay.length < 256 ∧ x.ctrlQ = .width 2 0 :: []) := by decide +kernel
/-- A beat of no slots, one with a slot of no code words, and a junction that does not exist. -/
theorem met_CreditsAndJunctions_beats : run0.dieUp 0 = true ∧ beatGood ⟨2, []⟩ = true ∧ beatGood ⟨2, [[]]⟩ = false ∧ (2#2) ≠ 3 ∧ (run0.junction 0 2).fence = .none ∧
    (run0.junction 0 2).beats.length ≤ 8 := by decide +kernel

/-! ### Hypotheses that are met: rates, power, memory and books -/

def die0 (f : Die → Die) : State := run0.modDie 0 f

/-- A monitor exactly 10 µs old; a rate one short of the fixed rate, for exactly more than 1 µs and for less; an undervoltage of 499 mV; a die with a limit. -/
theorem met_RatesAndTicks : run0.dieUp 0 = true ∧
    ((die0 (fun x => { x with monitors := [(7, { last := 4999900 })] })).monitor 0 7).last + 100 ≤ (run0.pkg 0).tick ∧
    ((die0 (fun x => { x with monitors := [(7, { last := 4999000 })] })).monitor 0 7).last + 1000 ≤ (run0.pkg 0).tick ∧
    (∀ t ∈ [4999899, 4999900], let s := (die0 (fun x => { x with monitors := [(0, { rateNow := 99, stale := false })], belowSince := some t })).modPkg 0 (fun k => { k with fixedRate := 100 })
      (s.pkg 0).fixedRate ≠ 0 ∧ s.liveRate 0 < (s.pkg 0).fixedRate ∧ (s.die 0).belowSince = some t ∧ (s.die 0).dipCounted = false) ∧
    (let s := (die0 (fun x => { x with monitors := [(0, { rateNow := 100, stale := false })] })).modPkg 0 (fun k => { k with fixedRate := 100 }); (s.pkg 0).fixedRate ≤ s.liveRate 0) ∧
    (499 < 500 ∧ 1 < 2 ∧ ((die0 (fun x => { x with subst := { st := .on } })).die 0).subst.st = .on) ∧ (run0.pkg 0).phase ≠ .off ∧
    (let s := die0 (fun x => { x with limit := some 2048, paceHard := true }); (s.die 0).limit.isSome = true ∧ (rateLimit (s.pkg 0).fixedRate (s.die 0)).isSome = true) := by
  decide +kernel

def substIs (y : Subst) : State := die0 (fun x => { x with subst := y })
theorem met_SubstationsAndVoltage : (run0.pkg 0).phase = .run ∧ ((substIs {}).die 0).subst.st = .off ∧ 7 % 8 * 25000 ≤ (run0.pkg 0).tick ∧
    (let s := (substIs { st := .shutDown }).modPkg 0 (fun k => { k with tick := 10000000 }); (s.die 0).subst.st = .shutDown ∧ (s.die 0).subst.since + 10000000 ≤ (s.pkg 0).tick) ∧
    ((substIs { st := .on, slewing := true }).die 0).subst.st = .on ∧ (substIs { st := .on }).dieUp 0 = true ∧
    (let s := (substIs { st := .on }).modDie 0 (fun x => { x with st := .outOfService }); s.dieUp 0 = false ∧ (s.die 0).subst.st = .on) ∧
    (∀ c ∈ [0, 7], let y : Subst := { st := .ramping, checkpoint := c, since := 4975001 }; ((substIs y).die 0).subst = y ∧ (run0.pkg 0).tick < y.since + (c + 1) * 25000) := by
  decide +kernel
/-- A ramp at its first and at its last checkpoint that passes, exactly due, and one with an overcurrent of 20 µs. -/
theorem met_SubstationsAndVoltage_ramp : ∀ c, c ≤ 7 → ((substIs { st := .ramping, checkpoint := c, since := 5000000 - (c + 1) * 25000 }).die 0).subst.st = .ramping ∧
    opVolt 0 0 * (c + 1) ≤ 16 * opVolt 0 0 ∧ 5000000 - (c + 1) * 25000 + (c + 1) * 25000 ≤ (run0.pkg 0).tick ∧ 19 < 20 ∧ 20 ≤ 20 ∧ 16 * 0 < opVolt 0 0 * (c + 1) := by
  intro c hc
  have h : (substIs { st := .ramping, checkpoint := c, since := 5000000 - (c + 1) * 25000 }).die 0 =
    { run0.die 0 with subst := { st := .ramping, checkpoint := c, since := 5000000 - (c + 1) * 25000 } } := State.die_mod_same _ _ _
  have hv : 550 ≤ opVolt 0 0 := Nat.le_add_right _ _
  rw [h]
  refine ⟨rfl, ?_, ?_, by omega, by omega, ?_⟩
  · rw [Nat.mul_comm]; exact Nat.mul_le_mul_right _ (by omega)
  · show _ ≤ 5000000; omega
  · exact Nat.mul_pos (by omega) (by omega)
/-- A slew that ends where it began settles 1 µs after its start. -/
theorem met_SubstationsAndVoltage_settled (mv : Nat) : 4999900 + ((mv - mv + (mv - mv) - 5 + 4) / 5 + 1) * 100 ≤ 5000000 ∧
    5000000 < 4999901 + ((mv - mv + (mv - mv) - 5 + 4) / 5 + 1) * 100 ∧ mv ≤ mv + 5 := by omega

theorem met_GrantsWithinCap : (run0.pkg 0).phase = .run ∧ (run0.pkg 0).lastInterval + 100000 ≤ (run0.pkg 0).tick ∧
    ∀ i ∈ List.range 8, (run0.die i).swapping = none := by decide +kernel

theorem met_PowerMeasuresAndLimits : (run0.pkg 0).phase = .run ∧
    (let k := { pkg0 with inputWin := List.replicate 9 15000 ++ [15001] }; k.hardThrottle = false ∧ k.inputWin.length = 10 ∧ 150000 < k.inputWin.sum) ∧
    (let k := { pkg0 with hardThrottle := true, calmSince := some 4990000 }; k.hardThrottle = true ∧ k.calmSince = some 4990000 ∧ 4990000 + 10000 ≤ k.tick) ∧
    (let w : Watermark := { enabled := true, armed := true, quantity := 0, mark := 0 }
     let s := run0.modPkg 0 (fun k => { k with watermarks := [(15, w)], inputNow := 10 }); w.enabled = true ∧ w.armed = true ∧ ({ w with last := 4999900 } : Watermark).last + 100 ≤ (s.pkg 0).tick ∧ w.mark.toNat < s.level 0 w) ∧
    (run0.pkg 0).lastMeasure + 100 ≤ (run0.pkg 0).tick ∧ (run0.pkg 0).lastSlice + 100000 ≤ (run0.pkg 0).tick ∧
    (∀ i ∈ List.range 8, (run0.die i).activity = [] ∧ (sliceMv (run0.die i)).1 = 0) ∧ (run0.pkg 0).energyUnFj < 1000000000 := by decide +kernel

/-- 105 degrees; 100 µs of calm; 112 degrees for 100 µs; a stack of 104 and of 105 degrees. -/
theorem met_HeatAndHints : (let s := die0 (fun x => { x with monitors := [(0, { temp := 145, stale := false })] }); hottest (s.die 0) = some 145 ∧ s.dieUp 0 = true ∧ (s.die 0).paceHot = false) ∧
    (let s := die0 (fun x => { x with coolSince := some 4990000, paceHot := true }); (s.die 0).coolSince = some 4990000 ∧ (s.die 0).paceHot = true ∧ 4990000 + 10000 ≤ (s.pkg 0).tick) ∧
    (let s := die0 (fun x => { x with tripSince := [(7, 4990000)], stackHotSince := some 4990000 }); (s.pkg 0).phase = .run ∧ tget? (s.die 0).tripSince 7 = some 4990000 ∧
      (s.die 0).stackHotSince = some 4990000 ∧ (s.die 0).stackLast + 100 ≤ (s.pkg 0).tick ∧ (144#8).toNat < 145 ∧ 145 ≤ (145#8).toNat) := by decide +kernel

def startsTest (s : State) (c : CmdRef) (k : RCmd) (op : Nat) : Bool := s.rcmd? c == some k && k.opcode == op && s.canStart c && !s.refuses c k
theorem starts_of {s : State} {c : CmdRef} {k : RCmd} {op : Nat} (h : startsTest s c k op = true) : Starts s c k op := by
  simp only [startsTest, Bool.and_eq_true, beq_iff_eq, Bool.not_eq_true'] at h
  exact ⟨h.1.1.1, h.1.1.2, h.1.2, h.2⟩

/-- A command of this opcode, with these words 2 and 3 and its descriptor at 0x40, waiting at the head of VI 1's ring 0. -/
def opOf (op : Nat) (w2 w3 : Word) : RCmd := cmdOf [BitVec.ofNat 64 (op * 2 ^ 56), 0, w2, w3 ||| 0x40, 0, 0, 0, 0] .waiting false

theorem met_HeatAndHints_commands : Starts (inRing (opOf 10 2 1)) cmd0 (opOf 10 2 1) 10 ∧ bits ((opOf 10 2 1).word 2) 0 2 ≠ 3 ∧ Starts (inRing (opOf 10 3 1)) cmd0 (opOf 10 3 1) 10 ∧
    ((inRing (opOf 10 2 1)).die 0).st ≠ .outOfService ∧ bits ((opOf 10 3 1).word 2) 0 2 = 3 ∧ Starts (inRing (opOf 11 0xF1 1)) cmd0 (opOf 11 0xF1 1) 11 :=
  ⟨starts_of (by decide +kernel), by decide +kernel, starts_of (by decide +kernel), by decide +kernel, by decide +kernel, starts_of (by decide +kernel)⟩
def hint0 : Hint := { vi := 1, cls := 2, deadline := 6000000, phase := 1, start := 5000000, stop := 5000100 }
theorem met_HeatAndHints_windows : (let s := die0 (fun x => { x with hints := [hint0] }); s.dieUp 0 = true ∧ (s.die 0).hints = [hint0] ∧ hint0.begun = false ∧ hint0.start ≤ (s.pkg 0).tick) ∧
    (let h := { hint0 with begun := true, stop := 5000000 }; let s := die0 (fun x => { x with hints := [h] }); (s.die 0).hints = [h] ∧ h.stop ≤ (s.pkg 0).tick) := by decide +kernel
/-- A window whose start has come is due whatever its slew takes. -/
theorem met_HeatAndHints_led : let s := die0 (fun x => { x with hints := [hint0], subst := { st := .on } }); hint0.begun = false ∧ hint0.led = false ∧
    hint0.start ≤ (s.pkg 0).tick + s.slewTicks 0 (s.targetIn 0 (some hint0)) ∧ (s.die 0).subst.st = .on ∧ s.targetIn 0 (some hint0) ≠ (s.die 0).subst.targetOp :=
  ⟨rfl, rfl, Nat.le_trans (by decide +kernel) (Nat.le_add_right _ _), by decide +kernel⟩

theorem met_DramAndAudits : (run0.pkg 0).phase = .run ∧ (let x := { run0.die 0 with pdLever := true, lastAccess := [(31, 4999990)] }; x.pdown.contains 31 = false ∧
      tget x.lastAccess 31 0 + 10 ≤ (run0.pkg 0).tick) ∧ run0.dieUp 0 = true ∧
    paPopulated (dramSize - 8) = true ∧ paPopulated (2 ^ 48 + yardSize - 8) = true ∧ run0.poisonIn (dramSize - 8) 8 = none ∧
    run0.inReset 0 = false ∧ (∀ e ∈ [(LedgerUnit.lane 31 15), .miss 31, .ctx 31 3], let p := unitPlace 0 e; tget? (run0.cluster p.1).mismatch (p.2.1 * 256 + p.2.2) = none ∧
      (tget? (run0.cluster p.1).audited (p.2.1 * 256 + p.2.2)).getD (run0.die 0).upSince + 100000 ≤ (run0.pkg 0).tick) ∧
    (run0.die 0).swapping = none ∧ (∀ l ∈ [4, 5], tget? (run0.die 0).shareAudit l = none ∧ ∀ v ∈ List.range 32, (run0.share l 0 v).withdraw = 0) ∧
    (run0.die 0).scanMs ≠ 0 ∧ ((run0.modPkg 0 (fun k => { k with tick := 10000000 })).die 0).lastScan + 100 * 100000 ≤ ((run0.modPkg 0 (fun k => { k with tick := 10000000 })).pkg 0).tick := by
  decide +kernel
/-- The channels of the last junction, quiet and busy. -/
theorem met_DramAndAudits_junctions : (∀ vc ∈ [0, 6], run0.jOpen 0 2 = true ∧ tget? (run0.junction 0 2).mismatch vc = none ∧ run0.junctionQuiet 0 2 vc = true ∧
      (tget? (run0.cluster 0).audited (256 + 2 * 8 + vc)).getD (run0.die 0).upSince + 100000 ≤ (run0.pkg 0).tick) ∧
    (let s := die0 (fun x => { x with junctions := [(2, { quiet := [(6, 4999001)] })] }); s.jOpen 0 2 = true ∧ s.junctionQuiet 0 2 6 = false) := by decide +kernel

/-! ### Hypotheses that are met: engines -/

def isInl {α β : Type} (x : α ⊕ β) : Bool := match x with | .inl _ => true | .inr _ => false
theorem inl_of {α β γ : Type} {x : (α ⊕ β) × γ} (h : isInl x.1 = true) : ∃ a c, x = (.inl a, c) := by
  obtain ⟨a | b, c⟩ := x
  · exact ⟨a, c, rfl⟩
  · cases h

/-- Words written at a physical address of the tenant's DRAM section. -/
def withWords (s : State) (pa : Nat) (w : List Nat) : State := s.writePa pa (wordBytes w)
def wordsAs (w : List Nat) : List Word := w.map (BitVec.ofNat 64)

/-- A walk of one row and one column, its index at 0x400, edges at 0x800, features at 0x1000, output at 0x2000; a split threshold of 8 × 512. -/
def walk1 : List Nat := [0x400, 0x800, 0, 0x1000, 2 ^ 48 + 0x2000, 4 * 2 ^ 32 + 32, 2 ^ 32 + 4, 0]
theorem met_ShunterCommands : let k := opOf 5 0 (2 ^ 56)
    let s := withWords (inRing k) 0x40 walk1
    Memory.wf s.hostMem = true ∧ Starts s cmd0 k 5 ∧ (s.readWords (.cluster 0) 5 1 k.desc 8).1 = .inl (wordsAs walk1) ∧ (walkOf (wordsAs walk1)).refused = false ∧
    (walkOf (wordsAs (walk1.set 4 0))).refused = true ∧ (let s := withWords (inRing k) 0x40 (walk1.set 4 0); (s.readWords (.cluster 0) 5 1 k.desc 8).1 = .inl (wordsAs (walk1.set 4 0))) :=
  ⟨by decide +kernel, starts_of (by decide +kernel), by decide +kernel⟩

def sh1 : ShCmd := { c := cmd0, tenant := 5, vi := 1, cls := 2, deadline := 0, desc := wordsAs walk1, dies := [0] }
/-- The SHUNT in progress, its descriptor changed. -/
def shunting (f : List Nat → List Nat) (g : ShCmd → ShCmd) : State := run0.modPkg 0 (fun k => { k with shCmds := [g { sh1 with desc := wordsAs (f walk1) }] })
theorem met_ShunterCommands_row : let s := shunting id id
    s.dieUp 0 = true ∧ s.unitRuns 0 0 = true ∧ (s.shuntPick 0).map (·.1) = some sh1 ∧ s.rowOf 0 sh1 = some 0 ∧ (s.shuntPort 0 sh1).isSome = true ∧
    s.shCmd? cmd0 = some sh1 ∧ homeNo sh1 0 = some 0 := by decide +kernel

/-- The sectors of the index entry, the record and the feature: a row of this degree; its record's row and column. -/
def sectors (degree row col : Nat) : Tab (Option (List Byte)) := [(0x400 / 32, some (wordBytes [0, degree * 2 ^ 32, 0, 0])),
  (0x800 / 32, some (wordBytes [row * 2 ^ 32 + col, row * 2 ^ 32 + col, 0, 0])), (2 ^ 64 + 0x1000 / 32, some (leBytes 4 0x3F800000 ++ List.replicate 28 0))]
def walkWork (part : WalkPart) (got : Tab (Option (List Byte))) (placed : Nat) : WalkWork := { no := 0, c := cmd0, vi := 1, pos := 0, part := part, got := got, placed := placed }
def working (f : List Nat → List Nat) (k : WalkWork) (g : Cluster → Cluster) : State := (shunting f id).setCluster 0 (g { work := some k })
def plansCols (w : Walk) (k : WalkWork) (l : List Nat) : Bool := match planOf w k with | .cols _ g cs => cs == l && (termsOf k.got w g 0 none cs).isSome | _ => false
def plansBad (w : Walk) (k : WalkWork) (r : Nat) : Bool := match planOf w k with | .bad q => q == r | _ => false
def plansEmpty (w : Walk) (k : WalkWork) : Bool := match planOf w k with | .empty => true | _ => false
def plansHub (w : Walk) (k : WalkWork) : Bool := match planOf w k with | .hub _ => true | _ => false
def info1 : RowInfo := ⟨0, 1, 0, 0⟩
/-- A row and a segment whose column has been fetched; a row whose fetch meets a closed queue; an empty, a malformed and a hub row. -/
theorem met_ShunterCommands_walk : (∀ part ∈ [WalkPart.row, .seg 0 0 info1 (rowStart (walkOf (wordsAs walk1)) info1)], let k := walkWork part (sectors 1 0 0) 1
      let s := working id k id
      plansCols (walkOf (wordsAs walk1)) k [0] = true ∧ (s.cluster 0).work = some k ∧ (s.shCmd? cmd0).map (·.desc) = some (wordsAs walk1) ∧ k.out = [] ∧
        walkWaits (s.cluster 0) = false) ∧
    (let k := walkWork .row (sectors 1 0 0) 0; let s := working id k (fun x => { x with pqFree := [(0, 0)] })
      plansCols (walkOf (wordsAs walk1)) k [0] = true ∧ (s.cluster 0).work = some k ∧ pqOpen (s.cluster 0) 0 2 = false) ∧
    plansEmpty (walkOf (wordsAs walk1)) (walkWork .row (sectors 0 0 0) 0) = true ∧ plansBad (walkOf (wordsAs walk1)) (walkWork .row (sectors 1 1 0) 0) 1 = true ∧
    plansBad (walkOf (wordsAs walk1)) (walkWork .row (sectors 1 0 4) 0) 3 = true ∧
    plansHub (walkOf (wordsAs (walk1.set 2 (2 ^ 48)))) (walkWork .row (sectors 513 0 0) 0) = true := by decide +kernel
/-- Two records of the row, the column before theirs equal. -/
theorem met_ShunterCommands_records : (match recsFrom (sectors 2 0 3) (walkOf (wordsAs walk1)) 0 (some 3) 0 2 with | .ok cs => cs == [3, 3] | _ => false) = true := by decide +kernel

def hub1 (format degree dispatched atSeg : Nat) (arrived : Tab Nat) : Hub :=
  { c := cmd0, pos := 0, info := ⟨0, degree, 0, 0⟩, size := 4, dispatched := dispatched, arrived := arrived, start := { va := 0x800 + format }, atSeg := atSeg }
/-- A hub row of 513 edges: its second segment; in bitmap format the scan for it. -/
theorem met_ShunterCommands_hub : (let s := (shunting id (fun k => { k with started := [(0, 1)] })).setCluster 0 { hubs := [hub1 0 513 1 0 []] }
      s.dieUp 0 = true ∧ s.unitRuns 0 0 = true ∧ (match s.shuntPick 0 with
        | some (k, _) => s.segOf 0 k == some (hub1 0 513 1 0 [], .run 1) && (s.shuntPort 1 k).isSome
        | none => false) = true) ∧
    (let s := (shunting (fun l => l.set 0 (2 ^ 60 + 0x400)) (fun k => { k with started := [(0, 1)] })).setCluster 0 { hubs := [hub1 0 513 1 0 []] };
      (match s.shuntPick 0 with
        | some (k, _) => s.segOf 0 k == some (hub1 0 513 1 0 [], .scan) && (s.shuntPort 0 k).isSome
        | none => false) = true) := by decide +kernel
/-- A partial that is not its row's last, and one that is; one with an uncorrectable word. -/
theorem met_ShunterCommands_combine : ∀ degree ∈ [512, 513], let h := hub1 0 degree 1 0 [(0, 4)]
    let s := (shunting id id).setCluster 0 { hubs := [h] }
    let pa := s.slotPa 0 (walkOf (wordsAs walk1)) 0
    (s.cluster 0).hubs.find? Hub.ready = some h ∧ (s.shCmd? cmd0).isSome = true ∧ s.dieUp 0 = true ∧ s.poisonIn pa 4 = none ∧
    ({ s with poison := [pa / 8] }.poisonIn pa 4).isSome = true := by decide +kernel
theorem met_ShunterCommands_done : let q := cmdOf [0x0500000000000000, 0, 0, 1, 0, 0, 0, 0] .shunt true
    let k := { sh1 with started := [(0, 1)] }
    let s := (inRing q).modPkg 0 (fun x => { x with shCmds := [k] })
    (s.pkg 0).phase = .run ∧ s.rcmd? cmd0 = some q ∧ q.result = none ∧ (s.pkg 0).shCmds.find? (fun k => k.c == cmd0) = some k ∧ allStarted k (walkOf k.desc) = true ∧
    s.clusters = [] ∧ (∀ i ∈ List.range 8, s.cmdOut i cmd0 = 0) ∧ Memory.wf s.hostMem = true := by decide +kernel
/-- A row whose index, record and feature the cache holds is read, summed and written in one step: 1.0 leaves for the output (R188, R189, R197). -/
def shuntRow : Bool :=
  let line (l : Nat) (b : List Byte) : Line := { line := l, tenant := 5, valid := 15, data := b ++ List.replicate (128 - b.length) 0, vi := 1 }
  let s := (shunting id id).setCluster 0 { lines := [(8 % 64 * 8, line 8 (wordBytes [0, 2 ^ 32])), (16 % 64 * 8, line 16 (wordBytes [0])), (32 % 64 * 8, line 32 (leBytes 4 0x3F800000))] }
  match exec (.shunterRowStart 0) s with
  | .next u => (u.cluster 0).work.isNone && u.net.map (·.body) == [.wr 0x2000 15 (leBytes 4 0x3F800000 ++ List.replicate 124 0) false]
  | _ => false
theorem test_shunt_row : shuntRow = true := by decide +kernel

/-- MU_RUN of one entry: its Timetable at 0x400, profiles at 0x800, no status. -/
def mu1 : List Nat := [2 ^ 51 + 0x400, 0, 0, 0x800, 0, 0, 0, 0]
theorem met_MatrixCommands : let k := opOf 3 0 (15 * 2 ^ 56)
    let s := withWords (inRing k) 0x40 mu1
    let s0 := s.modCmd cmd0 (fun k => { k with started := true })
    let u : XUnit := .mu 0 0
    Memory.wf s.hostMem = true ∧ Starts s cmd0 k 3 ∧ bits (k.word 3) 56 4 = 15 ∧ bits ((opOf 3 0 0).word 3) 56 4 = 0 ∧
    (s0.readWords u 5 1 k.desc 8).1 = .inl (wordsAs mu1) ∧ muRefused (muDescOf (wordsAs mu1)) = false ∧ muRefused (muDescOf (wordsAs (mu1.set 0 0x400))) = true ∧
    ((s0.readWords u 5 1 k.desc 8).2.readWords u 5 1 0x800 8).1 = .inl (List.replicate 8 0) ∧
    isInl ((((s0.readWords u 5 1 k.desc 8).2.readWords u 5 1 0x800 8).2).readChains u 5 1 (List.replicate 8 0) [0, 1, 2, 3]).1 = true ∧
    profsBad (List.replicate 8 0) [[], [], [], []] = false ∧ profsBad (List.replicate 8 0xFFFFFFFFFFFFFFFF) [[], [], [], []] = true :=
  ⟨by decide +kernel, starts_of (by decide +kernel), by decide +kernel⟩

def muc (next : Nat) : MuCmd :=
  { c := cmd0, tenant := 5, vi := 1, cls := 2, deadline := 0, mask := 1, desc := wordsAs mu1, profiles := List.replicate 8 0, chains := [[], [], [], []], next := next }
/-- A single entry: M, N and K of 1, operands and result in F32, 16-byte strides. -/
def entry1 : List Nat := [2 ^ 44 + 2 ^ 28 + 2 ^ 8, 0x1000, 0x2000, 0x3000, 2 ^ 43 + 2 ^ 22 + 2, 0, 0, 0]
def taking (e : List Nat) : State := (withWords run0 0x400 e).modDie 0 (fun x => { x with muCmds := [muc 0] })
/-- An entry that is taken, one whose M is 0, and one whose format pair does not exist. -/
theorem met_MatrixCommands_take : ∀ e ∈ [entry1, entry1.set 0 (2 ^ 28 + 2 ^ 8), entry1.set 1 (0xF000000000001000)], let s := taking e
    let v := s.modMu 0 0 (fun x => { x with hold := tset x.hold 2 cmd0 })
    s.dieUp 0 = true ∧ s.takers 0 0 = [muc 0] ∧ (v.readWords (.mu 0 0) 5 1 0x400 8).1 = .inl (wordsAs e) ∧ (muEntryOf (wordsAs e)).chain = false ∧
    ((v.readWords (.mu 0 0) 5 1 0x400 8).2.groupProfs (.mu 0 0) (muc 0) 0 1).1 = .inl [0] := by decide +kernel
theorem met_MatrixCommands_kinds : entryBad (muEntryOf (wordsAs entry1)) [muProf (muc 0) 0] = 0 ∧ entryBad (muEntryOf (wordsAs (entry1.set 1 0xF000000000001000))) [muProf (muc 0) 0] = 1 ∧
    (muEntryOf (wordsAs (entry1.set 0 (2 ^ 28 + 2 ^ 8)))).m = 0 := by decide +kernel
def item1 : MuItem := { c := cmd0, entry := 0, w := wordsAs entry1, w2 := none, ps := [0] }
def tiling : State := run0.modDie 0 (fun x => { x with muCmds := [muc 1], mus := [(0, { item := [(2, item1)] })] })
theorem met_MatrixCommands_tile : let s := tiling
    (s.muNext 0 0).map (fun e => (e.1.c, e.1.consist, e.2)) = some (cmd0, false, 0) ∧ (s.mu 0 0).item.find? (fun e => e.2.c == cmd0) = some (2, item1) ∧
    s.muCmd? 0 cmd0 = some (muc 1) ∧ operandPair 0 0 = some (false, 1, 8) ∧ isInl (s.panel (.mu 0 0) 5 1 0 0x1000 16 true 0 1 1 0).1 = true ∧
    isInl ((s.panel (.mu 0 0) 5 1 0 0x1000 16 true 0 1 1 0).2.panel (.mu 0 0) 5 1 0 0x2000 16 false 0 1 1 0).1 = true := by decide +kernel
theorem met_MatrixCommands_done : let q := cmdOf [0x0300000000000000, 0, 0, 2 ^ 56, 0, 0, 0, 0] .mu true
    let s := (inRing q).modDie 0 (fun x => { x with muCmds := [muc 1] })
    s.muCmd? 0 cmd0 = some (muc 1) ∧ s.dieUp 0 = true ∧ s.muDone 0 (muc 1) = true ∧ s.cmdOut 0 cmd0 = 0 ∧ s.rcmd? cmd0 = some q ∧ q.result = none ∧
    (muDescOf (muc 1).desc).status = 0 ∧ Memory.wf s.hostMem = true := by decide +kernel

/-- A chained pair of one row, one key and one value column, in F32; the first entry alone (COUNT 1); a malformed second entry; an empty one. -/
def pair1 : List Nat := [2 ^ 44 + 2 ^ 28 + 2 ^ 8 + 8, 0x1000, 0x2000, 0x3000, 2 ^ 43 + 2 ^ 22 + 2, 0, 0, 0]
def muc2 (next : Nat) : MuCmd := { muc next with desc := wordsAs (mu1.set 0 (2 * 2 ^ 51 + 0x400)) }
theorem met_MatrixCommands_pair : (∀ e ∈ [entry1, entry1.set 0 (2 ^ 44 + 2 ^ 8), entry1.set 0 (2 ^ 44 + 2 ^ 28 + 2 * 2 ^ 8)], let s := (withWords run0 0x400 (pair1 ++ e)).modDie 0 (fun x => { x with muCmds := [muc2 0] })
      let v := s.modMu 0 0 (fun x => { x with hold := tset x.hold 2 cmd0 })
      s.dieUp 0 = true ∧ s.takers 0 0 = [muc2 0] ∧ (v.readWords (.mu 0 0) 5 1 0x400 8).1 = .inl (wordsAs pair1) ∧ (muEntryOf (wordsAs pair1)).chain = true ∧
      0 + 1 < (muDescOf (muc2 0).desc).count ∧ ((v.readWords (.mu 0 0) 5 1 0x400 8).2.readWords (.mu 0 0) 5 1 0x440 8).1 = .inl (wordsAs e) ∧
      (((v.readWords (.mu 0 0) 5 1 0x400 8).2.readWords (.mu 0 0) 5 1 0x440 8).2.groupProfs (.mu 0 0) (muc2 0) 1 1).1 = .inl [0]) ∧
    (muDescOf (muc 0).desc).count ≤ 0 + 1 ∧
    pairBad (muEntryOf (wordsAs pair1)) (muEntryOf (wordsAs entry1)) (muProf (muc2 0) 0) = 0 ∧
    pairBad (muEntryOf (wordsAs pair1)) (muEntryOf (wordsAs (entry1.set 0 (2 ^ 44 + 2 ^ 28 + 2 * 2 ^ 8)))) (muProf (muc2 0) 0) = 2 ∧
    (muEntryOf (wordsAs (entry1.set 0 (2 ^ 44 + 2 ^ 8)))).n = 0 := by decide +kernel
def item2 : MuItem := { c := cmd0, entry := 0, w := wordsAs pair1, w2 := some (wordsAs entry1), ps := [0] }
/-- The row block of the pair. -/
theorem met_MatrixCommands_block : let s := run0.modDie 0 (fun x => { x with muCmds := [muc2 2], mus := [(0, { item := [(2, item2)] })] })
    (s.muNext 0 0).map (fun e => (e.1.c, e.1.consist, e.2)) = some (cmd0, false, 0) ∧ (s.mu 0 0).item.find? (fun e => e.2.c == cmd0) = some (2, item2) ∧
    isInl (s.panel (.mu 0 0) 5 1 0 0x1000 16 true 0 1 1 0).1 = true ∧ isInl ((s.panel (.mu 0 0) 5 1 0 0x1000 16 true 0 1 1 0).2.panel (.mu 0 0) 5 1 0 0x2000 16 false 0 1 1 0).1 = true ∧
    bit (muDescOf (muc2 2).desc).cfunc 1 = false := by decide +kernel

/-- CONSIST_RUN in CHAIN mode: the chain descriptor at 0x400, slots 0 and 2 described at 0x800 (one element of F32). -/
def run1 : List Nat := [0x400, 0, 0x800, 0, 0x800, 0, 0, 0]
def slot1 : List Nat := [0x1000, 0, 2 ^ 40 + 4, 2 ^ 40, 2 ^ 40, 2 ^ 40, 0, 0]
def chain1 : List Nat := [2 ^ 60, 0, 0, 0, 0, 0, 0, 0, 8 * 2 ^ 56, 0, 0, 0, 0, 0, 0, 0]
def runOn (desc prog : List Nat) : State := withWords (withWords (withWords (inRing (opOf 4 0 0)) 0x40 desc) 0x400 prog) 0x800 slot1
theorem met_ConsistCommands : let k := opOf 4 0 0
    let s := runOn run1 chain1
    let s0 := s.modCmd cmd0 (fun k => { k with started := true })
    let r := runOf (wordsAs run1)
    Starts s cmd0 k 4 ∧ (s.mu 0 0).csWait = [] ∧ (s0.spanWords (.mu 0 0) 5 1 k.desc 8).1 = .inl (wordsAs run1) ∧ runRefused r = false ∧ r.single = false ∧
    ((s0.spanWords (.mu 0 0) 5 1 k.desc 8).2.spanWords (.mu 0 0) 5 1 r.prog 16).1 = .inl (wordsAs chain1) ∧ progBad r (wordsAs chain1) = false ∧
    usedSlots r (wordsAs chain1) = [0, 2] ∧ r.slots.getD 0 0 ≠ 0 ∧ r.slots.getD 2 0 ≠ 0 ∧ (tensorOf (wordsAs slot1)).bad = false ∧
    (s0.readSlotDescs (.mu 0 0) 5 1 r [0, 2] [0, 1, 2, 3]).1 = .inl [wordsAs slot1, [], wordsAs slot1, []] :=
  ⟨starts_of (by decide +kernel), by decide +kernel⟩
/-- A run descriptor in error; one that is refused; a malformed program; and a slot without a descriptor. -/
theorem met_ConsistCommands_refused : let r := runOf (wordsAs run1)
    (let k := opOf 4 0 0x80000000; let s := inRing k
      startsTest s cmd0 k 4 = true ∧ ((s.modCmd cmd0 (fun k => { k with started := true })).spanWords (.mu 0 0) 5 1 k.desc 8).1 = .inr 0x80000040) ∧
    (runRefused (runOf (wordsAs (run1.set 0 0x401))) = true ∧ startsTest (runOn (run1.set 0 0x401) chain1) cmd0 (opOf 4 0 0) 4 = true) ∧
    progBad r (wordsAs (chain1.set 0 (9 * 2 ^ 60))) = true ∧
    (let r := runOf (wordsAs (run1.set 2 0)); runRefused r = false ∧ progBad r (wordsAs chain1) = false ∧ (usedSlots r (wordsAs chain1)).any (fun i => r.slots.getD i 0 == 0) = true) := by
  decide +kernel

def cs1 (desc prog : List Nat) (slots : List (List Word)) : CsCmd :=
  { c := cmd0, tenant := 5, vi := 1, cls := 2, deadline := 0, desc := wordsAs desc, prog := wordsAs prog, slots := slots, pred := [true] }
def consisting (k : CsCmd) : State := run0.modDie 0 (fun x => { x with mus := [(0, { cs := [(2, k)] })] })
/-- Slot 0 of one element with 0 columns more than it has: an empty iteration space is no candidate, so one element. -/
theorem met_ConsistCommands_single : let k := cs1 (run1.set 0 (2 ^ 63 + 2 ^ 48 + 0x400)) [] [wordsAs slot1]
    let s := consisting k
    ((s.admitMu 0 0).muNext 0 0).map (fun e => (e.1.c, e.2)) = some (cmd0, 0) ∧ ((s.admitMu 0 0).mu 0 0).cs.find? (fun e => e.2.c == cmd0) = some (2, k) ∧
    tget? ((s.admitMu 0 0).mu 0 0).cs 2 = some k ∧ (runOf k.desc).single = true ∧ k.saved = false ∧ k.reason = 0 ∧ ((s.admitMu 0 0).mu 0 0).loaded = none := by decide +kernel

/-- A pass of CHAIN mode. -/
theorem met_ConsistCommands_chain : let k := cs1 run1 chain1 [wordsAs slot1, [], wordsAs slot1]
    let s := consisting k
    ((s.admitMu 0 0).muNext 0 0).map (fun e => (e.1.c, e.2)) = some (cmd0, 0) ∧ ((s.admitMu 0 0).mu 0 0).cs.find? (fun e => e.2.c == cmd0) = some (2, k) ∧
    tget? ((s.admitMu 0 0).mu 0 0).cs 2 = some k ∧ (runOf k.desc).single = false ∧ k.reason = 0 := by decide +kernel

def csr (op : Nat) (f : CsCmd → CsCmd) : CsCmd := f { cs1 (run1.set 0 (2 ^ 63 + 2 ^ 48 + 0x400)) [op * 2 ^ 56] [] with running := true }
/-- Each of the eight instructions, over an empty tile. -/
theorem met_ConsistCommands_ops : ∀ op ∈ [1, 2, 3, 4, 5, 6, 7, 8], let k := csr op id
    ((consisting k).csRunning 0 0).map (fun e => (e.1, e.2.op)) = some (k, op) ∧ tget? ((consisting k).mu 0 0).cs 2 = some k ∧ 0 < k.cnt.length ∧ k.reason = 0 ∧
    ((consisting k).readSlots (.mu 0 0) k (csTensor k 0) []).1 = ([], 0, none) ∧ ((consisting k).writeSlot (.mu 0 0) k (runOf k.desc).rounding (csTensor k 0) []).1 = (0, none) := by
  decide +kernel
/-- Slot 0 has one element, whose address is not mapped: reading it and writing it fail there. -/
theorem met_ConsistCommands_fails : let k := csr 1 (fun k => { k with slots := [wordsAs (slot1.set 0 0x80000000)] })
    let s := consisting k
    (csTensor k 0).inside (k.coord 0) = true ∧ (s.readSlots (.mu 0 0) k (csTensor k 0) [(0, k.coord 0)]).1.2.2 = some (0, 0x80000000) ∧
    (s.writeSlot (.mu 0 0) k (runOf k.desc).rounding (csTensor k 0) [{ i := 0, c := k.coord 0, x := .zero, st := 0 }]).1.2 = some (0, 0x80000000) := by decide +kernel
/-- CST with one active element, and XLD for one element of the tile: the slot has no room for it. -/
theorem met_ConsistCommands_overrun : (let k := csr 5 (fun k => { k with tb := [(0, 1)] })
      (csTensor k 0).capacity - k.cnt.getD 0 0 < (k.active 0).length ∧ k.reason = 0 ∧ ((k.active 0).take ((csTensor k 0).capacity - k.cnt.getD 0 0)) = []) ∧
    (let k := csr 6 (fun k => { k with slots := [[], wordsAs slot1], prog := [BitVec.ofNat 64 (6 * 2 ^ 56 + 2 ^ 48)] });
      (csTensor k 0).capacity - k.cnt.getD 0 0 = 0 ∧ (csTensor k 1).inside (k.coord 0) = true ∧ k.pred.getD 0 false = true) := by decide +kernel
theorem met_ConsistCommands_done : let q := cmdOf [0x0400000000000000, 0, 0, 0, 0, 0, 0, 0] .consist true
    let k := cs1 run1 chain1 []
    let s := (inRing q).modDie 0 (fun x => { x with mus := [(0, { cs := [(2, k)] })] })
    (s.csFind cmd0) = some (0, 0, k) ∧ s.dieUp 0 = true ∧ k.running = false ∧ consistIters k ≤ k.iter ∧ s.cmdOut 0 cmd0 = 0 ∧ (runOf k.desc).counts = 0 ∧
    s.rcmd? cmd0 = some q ∧ q.result = none := by decide +kernel

/-- ROUTE of no tokens and one expert, its block at 0x800, in each operation; and one that is refused (no route block). -/
def route1 (op : Nat) : List Nat := [op * 2 ^ 62 + 0x1000, 2 ^ 51, 0, 32, 0, 0, 0, 0x800, 0, 0, 0, 0, 0, 0, 0, 0]
def pt1 (op : Nat) (f : PtCmd → PtCmd) : PtCmd := f { c := cmd0, tenant := 5, vi := 1, cls := 2, deadline := 0, desc := wordsAs (route1 op), caps := [0], reps := [1] }
theorem met_PointsCommands : ∀ op ∈ [0, 1, 2], let k := opOf 6 0 0
    let s := (withWords (inRing k) 0x40 (route1 op)).modDie 0 (fun x => { x with rtables := [(0, { vi := some 1 })] })
    let s0 := s.modCmd cmd0 (fun k => { k with started := true })
    let q := routeDescOf (wordsAs (route1 op))
    startsTest s cmd0 k 6 = true ∧ (s.readWords (.points 0) 5 1 k.desc 16).1 = .inl (wordsAs (route1 op)) ∧ (s0.readWords (.points 0) 5 1 k.desc 16).1 = .inl (wordsAs (route1 op)) ∧
    (s.die 0).ptCmds = [] ∧ (s.rtable 0 0).vi = some 1 ∧ (run0.rtable 0 0).vi ≠ some 1 ∧
    (s.modDie 0 (fun x => { x with ptCmds := [pt1 op id] })).rcmd? cmd0 = some k ∧ (pt1 op id).cls = k.cls ∧
    q.refused = false ∧ q.op = op ∧ (routeDescOf (wordsAs ((route1 op).set 7 0))).refused = true ∧
    (let s1 := (s0.readWords (.points 0) 5 1 k.desc 16).2; (s1.ptCaps 0 5 1 q).1 = .inl [0] ∧ capSum q [0] < 2 ^ 24) := by decide +kernel
/-- Capacities that cannot be read, and capacities of 2^24 together: 17 experts that take each of 2^20 - 1 tokens. -/
theorem met_PointsCommands_caps : (let q := routeDescOf (wordsAs ((route1 0).set 1 (2 ^ 51 + 0x80000000))); q.refused = false ∧ (run0.ptCaps 0 5 1 q).1 = .inr .unmapped) ∧
    2 ^ 24 ≤ capSum (routeDescOf (wordsAs ((route1 0).set 2 ((2 ^ 20 - 1) * 2 ^ 44)))) (List.replicate 17 (2 ^ 20 - 1)) := by decide +kernel
/-- A block of a DISPATCH whose route block is read, and one whose is not mapped. -/
theorem met_PointsCommands_blocks : (∀ e ∈ [(route1 1, true), ((route1 1).set 7 0x80000000, false)], let k := pt1 1 (fun k => { k with desc := wordsAs e.1 })
      let s := run0.modDie 0 (fun x => { x with ptCmds := [k] })
      s.dieUp 0 = true ∧ (s.die 0).gate.getLsbD 0x38 = true ∧ s.ptCands 0 = [k] ∧
      (arbitrate (·.cls) (fun a b => workLt (ptKey a) (ptKey b)) (fun a b => decide (a.order < b.order)) (s.die 0).ptStreak (s.ptCands 0)) = some (k, 0) ∧
      isInl ((s.modDie 0 (fun x => { x with ptStreak := 0 })).ptBlock 0 k).1 = e.2) ∧
    (let k := pt1 1 (fun k => { k with route := some { perm := [(0, 0)], expert := [0], inv := [[0]], live := [true] } });
      isInl (run0.ptRows 0 5 1 32 [0x1000]).1 = true ∧ k.route.isSome = true) := by decide +kernel
theorem met_PointsCommands_done : (∀ e ∈ [pt1 0 (fun k => { k with err := true }), pt1 0 (fun k => { k with done := true, hist := some (0, [1]) })],
      let q := cmdOf [0x0600000000000000, 0, 0, 0, 0, 0, 0, 0] .route true
      let s := (inRing q).modDie 0 (fun x => { x with ptCmds := [e], rtables := [(0, {})] })
      (s.die 0).ptCmds.find? (fun e => e.c == cmd0) = some e ∧ s.dieUp 0 = true ∧ (e.err = true ∨ e.done = true) ∧ s.cmdOut 0 cmd0 = 0 ∧ s.rcmd? cmd0 = some q ∧ q.result = none ∧
        tget? (s.die 0).rtables 0 = some {}) ∧
    (let s := run0.modPkg 0 (fun k => { k with revMs := 10 }); (s.pkg 0).phase = .run ∧ (s.pkg 0).revMs ≠ 0 ∧ (s.pkg 0).lastRev + (s.pkg 0).revMs * 100000 ≤ (s.pkg 0).tick) := by
  decide +kernel
/-- Two experts of one place each, three tokens: each expert takes the token with its highest score, and a token keeps one (R292, R293). -/
theorem test_expert_choice : (let sc : Scores := [[0x3F800000, 0x40000000], [0x40000000, 0x40400000], [0x3F000000, 0x3F000000]]
    let z := expertChoice sc (fun _ _ => true) 3 [1, 1]
    z.held == [[1], [1]] && (tokenLimit sc 1 3 z).picks 1 == [1]) = true := by decide +kernel

/-- DMA with no share, with a free token, with none, and while one is withdrawn. -/
def dmaShare (k : RCmd) (x : Share) : State := (inRing k).modDie 0 (fun y => { y with tok := [(1, x)] })
theorem met_DmaChains : let k := opOf 7 0 (8 * 2 ^ 56)
    Starts (dmaShare k {}) cmd0 k 7 ∧ Starts (dmaShare k { share := 1 }) cmd0 k 7 ∧ Starts (dmaShare k { share := 1, held := 1 }) cmd0 k 7 ∧
    ((dmaShare k {}).share 4 0 1).share = 0 ∧ ((dmaShare k { share := 1 }).share 4 0 1).held < 1 ∧ ((dmaShare k { share := 1, held := 1 }).share 4 0 1).share ≤ 1 ∧
    (let k := cmdOf [0x0700000000000000, 0, 0, 8 * 2 ^ 56, 0, 0, 0, 0] .dmaWait true; (dmaShare k { share := 1 }).rcmd? cmd0 = some k ∧ k.work = .dmaWait ∧ k.result = none) :=
  ⟨starts_of (by decide +kernel), starts_of (by decide +kernel), starts_of (by decide +kernel), by decide +kernel⟩

/-- A COPY of one row of 8 bytes from 0x1000 to 0x2000. -/
def copy1 : List Nat := [1, 0x1000, 0x2000, 0, 8 * 2 ^ 32, 0, 0, 0, 0, 0, 0, 0, 0, 0, 0, 0]
def ch1 (f : Chain → Chain) : Chain := f { c := cmd0, tenant := 5, vi := 1, cls := 2, deadline := 0, engine := 8, va := 0x80 }
def onEngine (k : Chain) (cur : Option CmdRef) : State := (withWords run0 0x80 copy1).modDie 0 (fun x => { x with engines := [(7, { chains := [k], cur := cur })] })
def dsig : DmaSig := ⟨0, 0x1000000000000001, false, 1⟩
def hosted (k : Chain) : Chain := { k with hostOut := [0] }
theorem met_DmaChains_engine : (let s := run0.modDie 0 (fun x => { x with dmaQueue := [ch1 id] }); s.dieUp 0 = true ∧ s.engineFor 0 (ch1 id) = some 0) ∧
    (∀ k ∈ [ch1 id, hosted (ch1 id)], let s := onEngine k none; (s.die 0).gate.getLsbD (0x28 + 7) = true ∧ wantsDesc (s.eng 0 7) = [k] ∧ (s.eng 0 7).chains = [k] ∧
      (s.readWords (.dma 0 7) 5 1 0x80 16).1 = .inl (wordsAs copy1) ∧ (dmaDescOf (wordsAs copy1)).ordered = false ∧ s.linkUp 0 1 = true ∧
      (dmaDescOf (wordsAs (copy1.set 0 (2 ^ 53 + 1)))).ordered = true ∧ s.chainOut 0 cmd0 0 = 0) ∧
    (let k := { ch1 id with va := 0x80000000 }; ((onEngine k none).readWords (.dma 0 7) 5 1 0x80000000 16).1 = .inr .unmapped ∧ wantsDesc ((onEngine k none).eng 0 7) = [k]) ∧
    (let k := ch1 (fun k => { k with desc := some (wordsAs copy1) }); let s := onEngine k none; (s.eng 0 7).cur = none ∧ hasToken (s.die 0) (132 + 7) = true ∧ s.dmaCands 0 7 = [k]) ∧
    (∀ k ∈ [ch1 (fun k => { k with sigs := [dsig] }), hosted (ch1 (fun k => { k with sigs := [dsig] }))], let s := onEngine k none
      (s.eng 0 7).chains = [k] ∧ k.sigs = dsig :: [] ∧ k.reason = 0 ∧ s.chainOut 0 cmd0 0 = 0 ∧ s.linkUp 0 1 = true) := by decide +kernel
theorem met_DmaChains_done : let q := cmdOf [0x0700000000000000, 0, 0, 8 * 2 ^ 56, 0, 0, 0, 0] .dmaChain true
    let k := ch1 (fun k => { k with finished := true })
    let s := (inRing q).modDie 0 (fun x => { x with engines := [(7, { chains := [k] })], tok := [(1, { share := 1, held := 1 })] })
    (s.chainFind cmd0) = some (0, 7, k) ∧ s.dieUp 0 = true ∧ k.finished = true ∧ k.sigs = [] ∧ s.sigQueued 0 7 k = false ∧ k.hostOut = [] ∧ s.cmdOut 0 cmd0 = 0 ∧ s.rcmd? cmd0 = some q ∧ q.result = none ∧
    (s.share 4 0 1).withdraw = 0 := by decide +kernel

/-- A block of each mode in progress: COPY, FILL, PRUNE, COMPRESS and BIN of one row. -/
def desc1 (mode : Nat) : List Nat := [mode * 2 ^ 60 + 2 ^ 34 + 1, 0x1000, 0x2000, 4 * 2 ^ 32, 1 * 2 ^ 32, 0, 0x3000, 0x4000, 0, 0, 0, 0, 0, 0, 0, 0]
theorem met_DmaBlocks : ∀ mode ∈ [0, 1, 2, 3, 4], let k := ch1 (fun k => { k with desc := some (wordsAs (desc1 mode)) })
    let s := onEngine k (some cmd0)
    let q := dmaDescOf (wordsAs (desc1 mode))
    s.dieUp 0 = true ∧ (s.dmaCur 0 7).map (fun e => (e.1, e.2.mode)) = some (k, mode) ∧
    (mode = 0 → isInl (s.copyReads 0 7 k q (rowParts q.rowbytes 0 (min 4096 q.total) (min 4096 q.total))).1 = true) ∧
    (mode = 2 ∨ mode = 3 → (s.dmaRead 0 7 k 0 0x1000 1).1 = .inl [0]) ∧ noteHost k q = k ∧ k.emit = [] ∧ (mode = 4 → (s.dmaRead 0 7 k 0 0x1000 16).1 = .inl (List.replicate 16 0)) ∧
    (s.dmaMoves 0 7 k 0 [(0x2000, [(true, 1)])]).1 = none := by decide +kernel
theorem met_DmaBlocks_refused : let k := ch1 (fun k => { k with desc := some (wordsAs ((desc1 0).set 1 0x10000000)) })
    let s := onEngine k (some cmd0)
    (s.copyReads 0 7 k (dmaDescOf (wordsAs ((desc1 0).set 1 0x10000000))) (rowParts 1 0 1 1)).1 = .inr 2 ∧ k.reason = 0 ∧
    (s.dmaMoves 0 7 k 0 [(0x10000000, [(true, 1)])]).1 = some 2 ∧ (s.dmaRead 0 7 k 0 0x10000000 1).1 = .inr 2 := by decide +kernel
/-- Writes that wait to be issued: 4 KiB of them at once, and one byte for the next block. -/
theorem met_DmaBlocks_emit : let k := ch1 (fun k => { k with desc := some (wordsAs (desc1 2)), emit := [(0x3000, [1])] })
    k.emit ≠ [] ∧ ((onEngine k (some cmd0)).dmaWrites 0 7 k 0 [(0x3000, [(true, 1)])]).1 = none ∧ ((onEngine k (some cmd0)).dmaWrites 0 7 k 0 [(0x10000000, [(true, 1)])]).1 = some 2 ∧
    (let ws := splitWrites 4096 [(0x3000, List.replicate 4097 (1 : Byte))]; (ws.1.map (fun w => w.2.length), ws.2) = ([4096], [(0x4000, [1])])) := by decide +kernel
/-- R178, R394: an infinity does not go before a NaN; with KEEP 2 of four the two that rank highest stay, in column order, and a zero goes. -/
theorem test_prune : (let g := [(0, 0x7F800000), (1, 0x7FC00000), (2, 0x3F800000), (3, 0)]
    (pruneGroup 0 2 g).map (·.1) == [0, 1] && (pruneGroup 0 1 g).map (·.1) == [1] && (pruneGroup 0 4 g).map (·.1) == [0, 1, 2]) = true := by decide +kernel

/-! ### Hypotheses that are met: the host side -/

def ringIs (g : Ring) : State := run0.modVi 0 1 (fun x => { x with rings := [(0, g)] })
/-- A TAIL that takes every entry of the ring, and one beyond; an old completion whose time is up. -/
theorem met_RingsAndRegisters : let g : Ring := { st := .running, size := 8 }
    let s := ringIs g
    (s.pkg 0).phase = .run ∧ (s.vi 0 1).st = .bound ∧ (s.ring 0 1 0).st ≠ .disabled ∧ (8#32 - g.head).toNat ≤ g.size ∧ (g.tail - g.head).toNat ≤ (8#32 - g.head).toNat ∧
    g.size < (9#32 - g.head).toNat ∧
    (let s := (ringIs { g with unsignalled := 1, ctime := 10, firstUnsig := 4999000 }).modVi 0 1 (fun x => { x with msixTable := [(5, 0)] }); let g := s.ring 0 1 0;
      s.linkUp 0 1 = true ∧ 0 < g.unsignalled ∧ g.firstUnsig + g.ctime * 100 ≤ (s.pkg 0).tick ∧ msixMasked (s.vi 0 1) 2 = false) ∧
    (let s := ringIs { g with tail := 1 }; s.dieUp 0 = true ∧ (s.pkg 0).link0 = true ∧
      (s.fetchPick 0 false).map (fun e => (e.1, e.2.1, e.2.2)) = some (1, 0, { g with tail := 1 })) := by decide +kernel
def boxOf (f : Mailbox → Mailbox) : State := run0.modMb 0 1 f
/-- The first and the last offset of the request buffer, at both sizes. -/
theorem met_RingsAndRegisters_writes : ∀ e ∈ [(0x400, 4), (0x4F8, 8), (0x4FC, 4)], (e.2 = 4 ∨ e.2 = 8) ∧ e.1 % e.2 = 0 ∧ 0x400 ≤ e.1 ∧ e.1 < 0x500 ∧ e.1 < 2 ^ 14 := by decide +kernel
theorem met_RingsAndRegisters_doors : (run0.pkg 0).phase ≠ .beacon ∧ (run0.vi 0 1).st ≠ .disabled ∧ run0.mbPresent 0 1 = true ∧ run0.mbPresent 0 32 = true ∧ (run0.mb 0 1).owned = false ∧
    (run0.mb 0 1).req.length = 256 ∧ (run0.mb 0 32).req.length = 256 ∧ (run0.mb 0 32).owned = false ∧ ((boxOf (fun m => { m with owned := true })).mb 0 1).owned = true ∧
    (let s := boxOf (fun m => { m with req := [1, 1, 0, 0, 16, 0] }); let m := s.mb 0 1; (s.die 0).swapping = none ∧ (s.vi 0 1).st ≠ .resetting ∧ (s.pkg 0).image.isSome = true ∧
      m.stored.find? (fun e => e.seq.toNat == m.seq) = none ∧ bodyNeed m.cls m.code = some 0 ∧ 16 + 0 ≤ m.len ∧ m.len ≤ 256) := by decide +kernel

theorem met_WindowAccesses_miss : (run0.winB 0 1 (2 ^ 30) 8).isSome = false ∧ (run0.winB 0 1 (2 ^ 30 - 8) 8).isSome = true ∧ (State.reset.winB 0 1 0 4).isSome = false := by decide +kernel
/-- What window B checks of a read, a write and an atomic of n bytes. -/
def seenBy (s : State) (woff n : Nat) (f : WinB → Bool) : Bool := match s.winB 0 1 woff n with | some w => f w | none => false
def opensTo (write : Bool) (n : Nat) (w : WinB) : Bool := match run0.checkVa w.unit w.tenant 1 write w.va n (n / 128 + 2) with
  | (.inl parts, s1) => parts.map (·.2) == [n] && (s1.partsRefused w.unit.die w.tenant parts).isNone && parts.all (fun e => (run0.poisonIn e.1 e.2).isNone)
  | _ => false
def missesWith (w : WinB) : Bool := match run0.checkVa w.unit w.tenant 1 false w.va 8 2 with
  | (.inr cause, s1) => cause == .unmapped && decide ((s1.die w.unit.die).memFaults.length < 64)
  | _ => false
def atomicAt (space n : Nat) (w : WinB) : Bool := match run0.xlat w.unit w.tenant 1 w.va with
  | (some x, s1) => paSpace x.pa == space && entryWr x.entry && (s1.homeCheck w.unit.die w.tenant x.pa).isNone && (s1.homeRefuses w.tenant x.pa).isNone &&
      x.pa % n == 0 && (run0.poisonIn x.pa n).isNone
  | _ => false
/-- Section 0 (cached DRAM), section 2 (yard SRAM), section 5 (unmapped); atomics on yard SRAM and at the end of section 0. -/
theorem met_WindowAccesses : (∀ woff ∈ [0, 2 ^ 26], ∀ write ∈ [true, false], seenBy run0 woff 8 (opensTo write 8) = true) ∧ seenBy run0 (5 * 2 ^ 25) 8 missesWith = true ∧
    (∀ n ∈ [4, 8], seenBy run0 (2 ^ 26) n (atomicAt 1 n) = true ∧ seenBy run0 (2 ^ 25 - n) n (atomicAt 0 n) = true) ∧ Memory.wf run0.mem = true := by decide +kernel

def refusesTo (write : Bool) (s : State) (w : WinB) : Bool := match s.checkVa w.unit w.tenant 1 write w.va 8 2 with
  | (.inl parts, s1) => (match s1.partsRefused w.unit.die w.tenant parts with | some (_, some _) => true | _ => false) && decide ((s1.die w.unit.die).memFaults.length < 63)
  | _ => false
/-- Section 0's range has passed to tenant 6. -/
theorem met_WindowAccesses_refused : let s := run0.modDie 0 (fun x => { x with owner := [(0, 6), (768, 5)] })
    ∀ write ∈ [true, false], seenBy s 0 8 (refusesTo write s) = true := by decide +kernel

/-- COUNT 0 and 3 in mode SPREAD; OWNER with a mapped and with an unmapped address; an unassigned opcode. -/
theorem met_RingCommands : Memory.wf run0.hostMem = true ∧ Starts (inRing (opOf 0 0 0)) cmd0 (opOf 0 0 0) 0 ∧
    (let k := opOf 13 0 0; let s := inRing k; s.rcmd? cmd0 = some k ∧ s.canStart cmd0 = true ∧ 12 < k.opcode) ∧
    Starts (inRing (opOf 1 0 0)) cmd0 (opOf 1 0 0) 1 ∧ (opOf 1 0 0).launchCount = 0 ∧ Starts (inRing (opOf 1 3 0)) cmd0 (opOf 1 3 0) 1 ∧ (opOf 1 3 0).launchCount ≠ 0 ∧
    (opOf 1 3 0).launchMode ≠ 2 ∧
    (let k := opOf 1 1 (2 * 2 ^ 54 + 2 ^ 56); let s := inRing k; startsTest s cmd0 k 1 = true ∧ k.launchCount ≠ 0 ∧ k.launchMode = 2 ∧ (s.ownerDie cmd0 k 0).isSome = true) ∧
    Starts (inRing (opOf 2 31 0)) cmd0 (opOf 2 31 0) 2 ∧ Starts (inRing (opOf 12 0 0)) cmd0 (opOf 12 0 0) 12 ∧ (inRing (opOf 12 0 0)).fencePassed cmd0 (opOf 12 0 0) = true :=
  ⟨by decide +kernel, starts_of (by decide +kernel), by decide +kernel, starts_of (by decide +kernel), by decide +kernel, starts_of (by decide +kernel), by decide +kernel,
    by decide +kernel, by decide +kernel, starts_of (by decide +kernel), starts_of (by decide +kernel), by decide +kernel⟩
/-- OWNER of one thread, its ARG unmapped. -/
theorem met_RingCommands_owner : let k := cmdOf [2 ^ 56, 0, 1, 2 * 2 ^ 54 + 2 ^ 56, 0, 5 * 2 ^ 25, 0, 0] .waiting false
    startsTest (inRing k) cmd0 k 1 = true ∧ k.launchCount = 1 ∧ k.launchMode = 2 ∧ (inRing k).ownerDie cmd0 k 0 = none := by decide +kernel
/-- OWNER of two threads: the first ARG is unmapped, the second is address 0. -/
theorem met_RingCommands_skip : let k := cmdOf [2 ^ 56, 0, 2, 2 * 2 ^ 54 + 2 ^ 56, 0, 5 * 2 ^ 25, BitVec.ofNat 64 (2 ^ 64 - 5 * 2 ^ 25), 0] .waiting false
    startsTest (inRing k) cmd0 k 1 = true ∧ k.launchCount = 2 ∧ k.launchMode = 2 ∧ (inRing k).ownerDie cmd0 k 0 = none ∧ ((inRing k).ownerDie cmd0 k 1).isSome = true := by
  decide +kernel
theorem met_RingCommands_signals : ∀ op ∈ [8, 9], let k := cmdOf [BitVec.ofNat 64 (op * 2 ^ 56), 0x1000000000000001, 0, 0, 0, 0, 0, 0] .waiting false
    startsTest (inRing k) cmd0 k op = true ∧ (inRing k).before cmd0 = [] := by decide +kernel
/-- A FENCE that a signal write holds. -/
theorem met_RingCommands_fence : let k := { opOf 12 0 0 with idx := 1, order := 1 }
    let b := cmdOf [8 * 2 ^ 56, 0x1000000000000001, 0, 0, 0, 0, 0, 0] .sigSet true
    let s := run0.modVi 0 1 (fun x => { x with rings := [(0, { st := .running, tail := 2, fetch := 2, held := [b, k] })] })
    s.rcmd? { cmd0 with idx := 1 } = some k ∧ s.fencePassed { cmd0 with idx := 1 } k = false := by decide +kernel

/-! ### Hypotheses that are met: messages -/

/-- A request: class, code, SEQ 1, LEN, and a body of fields as its table lays them out. -/
def requestOf (cls code : Nat) (body : List Byte) : List Byte :=
  let h := leBytes 8 (cls + code * 2 ^ 8 + 2 ^ 16 + (16 + body.length) * 2 ^ 32) ++ leBytes 8 0 ++ body
  h ++ List.replicate (256 - h.length) 0
/-- That request, taken from mailbox b and first in the order of GO. -/
def asking (s : State) (b : Nat) (cls code : Nat) (body : List Byte) : State :=
  (s.modMb 0 b (fun m => { m with owned := true, wait := .perform, req := requestOf cls code body })).modPkg 0 (fun k => { k with goQueue := [b] })
def askedTest (s : State) (m : Msg) (b : BitVec 6) : Bool :=
  let x := asker s 0 b
  let v := popped s 0
  (s.pkg 0).goQueue.head? == some b.toNat && (s.mb 0 b.toNat).cls == m.cls && (s.mb 0 b.toNat).code == m.code && (v.early 0 b.toNat m.cls).isNone &&
  !(s.mb 0 b.toNat).relayed && !m.retry v x && (m.bad v x).isNone && m.rights v x && ((v.pkg 0).clean || strapClass m.cls) && m.gone v x == 0
theorem asked_of {s : State} {m : Msg} {b : BitVec 6} (h : askedTest s m b = true) : Asked s m 0 b := by
  simp only [askedTest, Bool.and_eq_true, beq_iff_eq, Bool.not_eq_true', Option.isNone_iff_eq_none, Bool.or_eq_true] at h
  obtain ⟨⟨⟨⟨⟨⟨⟨⟨⟨h1, h2⟩, h3⟩, h4⟩, h5⟩, h6⟩, h7⟩, h8⟩, h9⟩, h10⟩ := h
  exact ⟨⟨h1, h2, h3, h4, h5⟩, ⟨h6, h7, h8, h9, h10⟩⟩

/-- A request of the function 0, of VI 1's function, of the tray controller. -/
def pf (m : Msg) (body : List Nat) (s : State := run0) : Bool := askedTest (asking s 0 m.cls m.code (body.map (BitVec.ofNat 8))) m 0
def own (m : Msg) (body : List Nat) (s : State := run0) : Bool := askedTest (asking s 1 m.cls m.code (body.map (BitVec.ofNat 8))) m 1
def tc (m : Msg) (body : List Nat) (s : State := run0) : Bool := askedTest (asking s 32 m.cls m.code (body.map (BitVec.ofNat 8))) m 32

/-- VI 2 is FREE, and the map includes the package. -/
def freeVi : State := (run0.modVi 0 2 (fun x => { x with st := .free })).modDie 0 (fun x => { x with map := ⟨1, [reg0]⟩ })
def shares (l : Nat) (x : Share) : State := (List.range 8).foldl (fun s d => s.setShare l d 1 x) run0
theorem met_TenancyMessages : own msgIdentify [] = true ∧ tc msgIdentify [] = true ∧ own msgPosition [] = true ∧
    (∀ ceiling ∈ [0, 3], pf msgBind [2, ceiling, 1, 0, 0xFF, 0x0F, 0, 0, 0, 0] freeVi = true) ∧ (freeVi.pkg 0).central = some 0 ∧
    pf msgBind [2, 0, 0, 0, 7, 0, 0, 0, 0, 0] (freeVi.modPkg 0 (fun k => { k with bindings := [7] })) = true ∧
    pf msgUnbind [1] = true ∧ pf msgReset [1, 2] = true ∧ own msgReset [1, 0] = true ∧ pf msgCeiling [1, 3] = true ∧ own msgWindow [0, 0, 0, 2, 0, 0, 0, 0] = true ∧
    own msgTrap [8, 0, 0, 0, 0, 0, 0, 0] = true ∧ pf msgQuery [31] freeVi = true ∧ own msgQuery [1] = true := by decide +kernel
/-- MOVE from the unallocated count, from a share with units free, and from one that holds all its units. -/
theorem met_TenancyMessages_move : pf msgMove [4, 1, 255, 1, 1, 0] = true ∧
    (∀ held ∈ [0, 2], let s := (shares 4 { share := 2, held := held }).modVi 0 2 (fun x => { x with st := .bound, tenant := 6 });
      pf msgMove [4, 0xFF, 1, 2, 1, 0] s = (s.goneMask 0 255 == 0) ∧ pf msgMove [4, 1, 1, 2, 1, 0] s = true ∧ (s.share 4 0 1).held ≤ (s.share 4 0 1).share ∧
      tget (s.die 0).owed 4 0 = 0) := by decide +kernel
/-- The central station has a VI of tenant 5 on package 0 on record. -/
def held5 : State := run0.modPkg 0 (fun k => { k with bindings := [5] })
/-- MAP of a new section, of the last section over the table pool, of a section that is mapped; UNMAP of both kinds. -/
theorem met_TenancyMessages_sections : own msgMap [4, 0, 0, 0, 1, 0, 0, 0, 0, 0, 0, 0, 0, 0, 0, 0xF0] held5 = true ∧
    own msgMap [0xFF, 0xFF, 0x7F, 0, 1, 0, 0, 0, 0, 0, 0, 0, 0, 0, 0, 0xF0] (held5.modPkg 0 (fun k => { k with l2 := (List.range 240).map (fun i => (2048 + i, i)) })) = true ∧
    own msgMap [0, 0, 0, 0, 64, 0, 0, 0, 0, 0, 0, 0, 0, 0, 0, 0xF0] held5 = true ∧ own msgUnmap [0, 0, 0, 0, 64, 0] = true ∧ own msgUnmap [9, 0, 0, 0, 1, 0] = true ∧
    own msgSecRead [0, 0, 0, 0, 30, 0] = true ∧ own msgTables [] = true := by decide +kernel
def conf (r cls ccount : Nat) : List Nat := [r, cls, ccount, 0, 64, 0, 0, 0, 0xE8, 3, 0, 0, 0, 0, 0, 0, 0, 0x10, 0, 0, 0, 0, 0, 0, 0, 0x20, 0, 0, 0, 0, 0, 0]
theorem met_TenancyMessages_rings : (∀ r ∈ [0, 15], own msgConfigure (conf r 2 64) = true ∧ own msgResume [r] = true ∧ own msgDisable [r] = true ∧ own msgRingQuery [r] = true ∧
      own msgCoalesce [r, 64, 0, 0, 0xE8, 3, 0, 0] = true ∧ own msgAbort [r] = true) ∧ own msgAbort [0] (ringIs { st := .stopped, size := 64, tail := 1 }) = true := by decide +kernel

theorem met_BookkeepingMessages_signals : own msgAlloc [0, 1] = true ∧ (let s := shares 5 { share := 30 }; own msgAlloc [7, 30] (s.modDie 7 id) = (s.dieUp 7) ∧ own msgAlloc [0, 30] s = true ∧
      (freeSignals (s.die 0) 30).length = 30 ∧ (s.share 5 0 1).withdraw = 0 ∧ (s.share 5 0 1).held + 30 ≤ (s.share 5 0 1).share) ∧
    own msgFree ([1, 0, 0, 0, 0, 0, 0, 0] ++ [1, 0, 0, 0, 0, 0, 0, 0x10]) = true ∧ own msgTimeout [1, 0, 0, 0] = true ∧ own msgSigEvents [0, 7] = true ∧ pf msgReports [0] = true ∧
    pf msgScan [1, 0, 0, 0, 0x10, 0x27, 0, 0] = true := by decide +kernel
/-- A signal that tenant 5 owns, and its handle. -/
def signals : State := run0.modDie 0 (fun x => { x with signals := [(3, { owner := 5 })] })
theorem met_BookkeepingMessages_owned : let h := mkHandle 1 (signals.die 0).epoch.toNat 0 3
    let body := (leBytes 8 h.toNat).map (·.toNat)
    own msgSigStatus body signals = true ∧ signals.ownsSignal 0 1 h = true ∧ own msgFree ([1, 0, 0, 0, 0, 0, 0, 0] ++ body) signals = true := by decide +kernel
theorem met_BookkeepingMessages_power : (∀ w ∈ [450, 1400], pf msgCap [w % 256, w / 256] = true ∧ tc msgCap [w % 256, w / 256] = true) ∧ pf msgPin [1, 15] = true ∧ pf msgPin [1, 255] = true ∧
    pf msgPriority [0x24, 4] = true ∧ pf msgFixed [0, 0] = true ∧ pf msgFixed [0x9A, 1] = true ∧ tc msgWatermark [15, 4, 0, 1, 0, 0, 0, 0] = true ∧ pf msgWatermark [0, 255, 0, 0, 0, 0, 0, 0] = true ∧
    pf msgNotices [] = true ∧ tc msgAck [0xFF, 0xFF] = true ∧ pf msgReadings [] = true ∧ pf msgMonitors [0] = true ∧ pf msgFuses [0] = true ∧ own msgEnergy [0] = true ∧ pf msgEnergy [1] = true := by decide +kernel
theorem met_BookkeepingMessages_faults : (∀ l ∈ [4, 5], own msgLedger [l, 0] = true) ∧ pf msgBooksFaults [0, 7] = true ∧ pf msgDeadlines [31] = true ∧ own msgDeadlines [1] = true ∧
    tc msgEvents [14] = true ∧ own msgEvents [1] = true ∧ pf msgThreads [0, 7] = true ∧ pf msgMemory [0, 1] = true ∧
    own msgRelease [0, 0, 0, 0] (withThread (fun t => { t with st := .halted })) = true ∧ tc msgPackage [] = true ∧ pf msgResetPackage [1] = true ∧ (run0.pkg 0).phase = .run := by decide +kernel

theorem met_MaintenanceMessages_firmware : let staged := run0.modPkg 0 (fun k => { k with fwState := .staging, stagedBy := 0, staged := [1] })
    pf msgFwQuery [] = true ∧ pf msgStage [0, 0, 0, 0, 1, 0, 9] = true ∧ pf msgStage ([1, 0, 0, 0, 224, 0] ++ List.replicate 224 7) staged = true ∧
    pf msgStageHost [0, 0, 0x60, 0, 0, 0, 0, 0, 0, 0, 0, 0, 0, 0, 0, 0] = true ∧
    (∀ mask ∈ [1, 0], pf (msgCommit ⟨image1⟩) [mask] staged = true) ∧ pf msgDiscard [] staged = true := by decide +kernel
theorem met_MaintenanceMessages_links : (∀ q ∈ [0, 3], pf msgPort [0, q] = true ∧ pf msgRetrain [0, q] = true) ∧ run0.neverTrains 0 0 3 = false ∧ (run0.port 0 3).st ≠ .fenced ∧
    (∀ u ∈ [0x30, 0x33, 0x34, 0x36], pf msgUnfence [0, 0, u, 0, 15] = true) ∧ pf msgRoutes [0, 1] = true ∧ tc msgJunctions [0] = true := by decide +kernel
def tabled : State := run0.modDie 0 (fun x => { x with rtables := [(0, { vi := some 1, rmax := 4 })] })
theorem met_MaintenanceMessages_points : pf msgPtGrant [0, 15, 31, 4] = true ∧ pf msgPtGrant [0, 0, 1, 0] tabled = true ∧ pf msgPtInterval [0x60, 0xEA, 0, 0] = true ∧
    (∀ n ∈ [0, 4], own msgPtPin [0, 0, 0xFF, 0x0F, n] tabled = true) ∧ pf msgPtRead [0, 0, 0xFF, 0x0F] = true ∧ own msgPtClear [0, 0] tabled = true := by decide +kernel
theorem met_MaintenanceMessages_diag : pf msgCounters [0] = true ∧ pf msgUnits [0] = true ∧ (∀ i ∈ [0, 1], pf msgSetUnit [0, 0, 0, 0, i] = true) ∧
    run0.unitOpen 0 0 = true ∧ (run0.modDie 0 (fun x => { x with gate := 0 })).unitOpen 0 0 = false ∧ own msgEcho [1, 2, 3] = true := by decide +kernel
theorem met_MaintenanceMessages_swap : let s := run0.modDie 0 (fun x => { x with swapping := some 3000000 })
    let s := s.modPkg 0 (fun k => { k with stagedImage := some image1, swapQueue := [0] })
    s.dieUp 0 = true ∧ (s.die 0).swapping = some 3000000 ∧ (s.pkg 0).tick ≤ 3000000 + 2000000 ∧ 3000000 + 2000000 ≤ (s.pkg 0).tick ∧ (s.pkg 0).swapQueue = [0 % 8] := by decide +kernel

/-- A repeat of SEQ 1; a class that is not assigned, a LEN of 15 and of 257. -/
theorem met_RepeatsAndWaits : (let m : Mailbox := { req := requestOf 1 1 [], stored := [⟨1, 1, 1, List.replicate 16 0⟩] }
      let s := boxOf (fun _ => m)
      s.mbPresent 0 1 = true ∧ m.owned = false ∧ (s.die 0).swapping = none ∧ (s.vi 0 1).st ≠ .resetting ∧ (s.pkg 0).image.isSome = true ∧
      m.stored.find? (fun e => e.seq.toNat == m.seq) = some ⟨1, 1, 1, List.replicate 16 0⟩ ∧ (1#8).toNat = m.cls ∧ (1#8).toNat = m.code) ∧
    (∀ e ∈ [(13, 1, 16), (1, 0, 16), (1, 1, 15), (1, 1, 257)], let m : Mailbox := { req := leBytes 8 (e.1 + e.2.1 * 2 ^ 8 + e.2.2 * 2 ^ 32) }
      m.stored.find? (fun e => e.seq.toNat == m.seq) = none ∧ (bodyNeed m.cls m.code = none ∨ 256 < m.len ∨ bodyNeed m.cls m.code = some 0 ∧ m.len < 16 + 0)) := by decide +kernel
def waitsFor (w : MbWait) (s : State := run0) : State := s.modMb 0 1 (fun m => { m with owned := true, wait := w })
theorem met_RepeatsAndWaits_ends : (∀ w ∈ [MbWait.viReturn 2, .pin [0, 7], .abort 0, .commit, .unitIn 0 63, .retrain 3, .answer 0 0 []], let s := waitsFor w (run0.modPort 0 3 (fun q => { q with st := .up }))
      s.mbPresent 0 1 = true ∧ (s.mb 0 1).owned = true ∧ (s.die 0).swapping = none ∧ (s.mb 0 1).wait = w ∧ (s.vi 0 2).st ≠ .resetting ∧ (s.die 0).subst.slewing = false ∧
      (s.die 7).subst.slewing = false ∧ (s.ring 0 1 0).held = [] ∧ (s.pkg 0).fwState ≠ .swapping ∧ s.dieUp 0 = true ∧ (s.die 0).returns = [] ∧ (s.port 0 3).st = .up) ∧
    ((waitsFor .commit (run0.modPkg 0 (fun k => { k with swapFailed := [7] }))).pkg 0).swapFailed ≠ [] := by decide +kernel

/-- A wait for requests under the old entries: tag 0 is out, and it is not. -/
theorem met_RepeatsAndWaits_sections : let w := MbWait.sections [(0, 128)] [0];
    (let s := waitsFor w (run0.modDie 0 (fun x => { x with outst := [(0, outOf (.store 0))] }));
      s.mbPresent 0 1 = true ∧ (s.mb 0 1).owned = true ∧ (s.mb 0 1).wait = w ∧ s.oldRequests 0 1 [(0, 128)] [0] = true) ∧
    (waitsFor w).oldRequests 0 1 [(0, 128)] [0] = false ∧ (waitsFor w).mbPresent 0 1 = true ∧ ((waitsFor w).mb 0 1).wait = w := by decide +kernel

/-! ### Hypotheses that are met: start-up and resets -/

def viIs (v : Nat) (f : Vi → Vi) : State := run0.modVi 0 v f
theorem met_ViResets : (run0.pkg 0).phase = .run ∧ (run0.vi 0 1).st = .bound ∧ run0.x8x8 0 = false ∧
    (let s := viIs 1 (fun x => { x with st := .resetting, rStep := 6, rStart := 4800000 }); (s.vi 0 1).st = .resetting ∧ (s.vi 0 1).rStep = 6 ∧ s.viOut 0 1 = 0 ∧
      (s.vi 0 1).rStart + 200000 ≤ (s.pkg 0).tick ∧ (let s := s.modDie 0 (fun x => { x with outst := [(4095, outOf (.store 0))] }); s.viOut 0 1 ≠ 0 ∧
        (tget? (s.die 0).outst 4095).map (fun o => (o.tenant, o.vi)) = some (5, 1))) ∧
    (let s := viIs 1 (fun x => { x with st := .resetting, rStep := 8 }); (s.vi 0 1).rStep = 8 ∧ (s.vi 0 1).st = .resetting) ∧
    (let s := (die0 (fun x => { x with quarantine := [(4095, 0)] })).modPkg 0 (fun k => { k with tick := 10000000 }); tget? (s.die 0).quarantine 4095 = some 0 ∧ 0 + 10000000 ≤ (s.pkg 0).tick) ∧
    1 ∈ run0.vfsOf 0 false ∧ freeVi.vfsOf 0 false ≠ [] := by decide +kernel

/-- A scrub under way and one that is done; the function 0 with a BOUND and a FREE virtual function; the second function of two links. -/
theorem met_ViResets_scrub : (∀ b ∈ [true, false], let s := (viIs 1 (fun x => { x with st := .resetting, rStep := 8 })).modDie 0 (fun x =>
      { x with engines := [(0, { chains := [ch1 (fun k => { k with scrub := true, finished := b })] })] }); s.scrubbed 0 1 = b) ∧
    (run0.vi 0 0).st = .bound ∧ (freeVi.vi 0 2).st = .free ∧ 2 ∈ freeVi.vfsOf 0 false ∧
    (let s := run0.modPkg 0 (fun k => { k with image := some { image1 with x8x8 := true } }); s.x8x8 0 = true ∧ 31 ∈ s.vfsOf 0 true) := by decide +kernel

def phase0 (ph : Phase) (f : Pkg → Pkg := id) : State := run0.modPkg 0 (fun k => f { k with phase := ph })
def levels0 : List PinLevel := List.replicate 10 .low
/-- The first and the last pin of the strap test; the five equal samples; BOOT at 1. -/
theorem met_Bringup_straps : (let s := phase0 .strap (fun k => { k with samples := [], tested := [], tick := 100000 }); (s.pkg 0).samples.length < 5 ∧
      [1, 3, 8, 9, 10].getD (s.pkg 0).samples.length 0 * 100000 ≤ (s.pkg 0).tick) ∧
    (∀ n ∈ [0, 9], let s := phase0 .strap (fun k => { k with tested := List.replicate n 2, tick := 700000 }); (s.pkg 0).tested.length + 2 = n + 2 ∧ n + 2 ≤ 11 ∧ 500000 + n * 20000 ≤ (s.pkg 0).tick) ∧
    (∀ l ∈ [levels0, levels0.set 1 .high, levels0.set 1 .mid], let k := { pkg0 with phase := .strap, samples := List.replicate 5 l, tested := List.replicate 10 0, tick := 1000000 }
      k.samples.length = 5 ∧ k.tested.length = 10 ∧ 1000000 ≤ k.tick ∧ k.samples.headD [] = l) ∧ ((2#4).toNat = 2 ∧ (1#4).toNat < 2 ∧ 11 < (12#4).toNat) := by decide +kernel
theorem met_Bringup : (State.reset.pkg 0).phase = .off ∧ (run0.pkg 0).phase ≠ .off ∧ run0.powered 0 = true ∧ (run0.pkg 0).phase ≠ .beacon ∧ 13500 < 13501 ∧
    (let s := (phase0 .load).modDie 0 (fun x => { x with subst := { st := .on } }); (s.pkg 0).phase = .load ∧ (s.die 0).subst.st = .on) ∧
    (let k := { pkg0 with beatAt := 5000000, checkin := 0 }; k.phase = .run ∧ k.beatAt ≤ k.tick ∧ k.tick ≤ k.checkin + 200000000) ∧
    (let k := { pkg0 with phase := .beacon, quarter := 4, quarterAt := 5000000 }; k.phase = .beacon ∧ k.quarterAt ≤ k.tick) ∧
    (let s := (phase0 .strap).modDie 0 (fun x => { x with subst := { st := .on } }); (s.pkg 0).phase = .strap ∧ (s.die 0).subst.st = .on) ∧
    ({ pkg0 with perst0 := true }).perst0 = true ∧ ({ pkg0 with perst0 := false }).perst0 = false ∧
    (let s := run0.modPkg 0 (fun k => { k with perst1 := true, image := some { image1 with x8x8 := true } }); (s.pkg 0).perst1 = true ∧ s.x8x8 0 = true) := by decide +kernel

theorem met_ResetsAndReconciliation : run0.dieUp 1 = true ∧ 1 % 8 ≠ 0 ∧ (run0.die 1).swapping = none ∧ run0.dieUp 0 = true ∧
    (let s := run0.modDie 7 (fun x => { x with st := .resetting, subst := { st := .on } }); (s.pkg 0).phase = .run ∧ (s.die 7).st = .resetting ∧ (s.die 7).resetAt + 5000000 ≤ (s.pkg 0).tick ∧
      (s.die 7).subst.st = .on ∧ (s.pkg 0).l2 = [(2048, 0)] ∧ 2048 < 2 ^ 16 ∧ Memory.wf s.mem = true) ∧
    ((run0.die 0).lastPass + 500000 ≤ (run0.pkg 0).tick ∧ (let s := run0.modDie 0 (fun x => { x with lastPass := 4500001 }); (s.pkg 0).tick < (s.die 0).lastPass + 500000)) ∧
    (let s := (phase0 .resetting (fun k => { k with tick := 20000000 })).modDie 0 (fun x => { x with subst := { st := .on } }); (s.pkg 0).phase = .resetting ∧ (s.die 0).subst.st = .on ∧
      (s.pkg 0).resetAt + 20000000 ≤ (s.pkg 0).tick) ∧
    0 ∈ reconciled ∧ (let x := { run0.die 0 with returns := [0] }; (x.returns.contains 0 && ! ([]).contains 0) = true ∧ (x.returns.contains 0 && ! ([0]).contains 0) = false) ∧
    (let s := run0.modDie 0 (fun x => { x with drains := [(63, 4800000)] }); tget? (s.die 0).drains 63 = some 4800000 ∧ 63 < 64 ∧ s.unitBusy 0 63 = false ∧
      4800000 + 200000 ≤ (s.pkg 0).tick) := by decide +kernel


/-! ### Flits -/

/-- Port 0 of die 0 of packages 0 and 1, up with two lanes, each the other's far end; `f` changes the sending end's port, `g` the receiving end's. -/
def linked (f g : Port → Port) : State :=
  let x : Port := { st := .up, width := 2, trained := 2, usable := 3, order := [0, 1] }
  ((run0.setPkg 1 pkg0).modDie 8 (fun y => { y with ports := [(0, f { x with far := some ⟨7, 0, 0, 0, 0⟩ })] })).modDie 0
    (fun y => { y with ports := [(0, g { x with far := some far1 })] })
/-- The lanes that bring a flit to a port of two lanes in order. -/
def lanesOf (f : Flit) : List (List (BitVec 10)) := (laneSymbols [0, 1] 2 (flitSymbols (flitOf f))).map (·.map (BitVec.ofNat 10))
/-- What a flit received leaves, by a test of the receiving port. -/
def receives (s : State) (lanes : List (List (BitVec 10))) (f : State → Bool) : Bool := match exec (.flitReceived 0 lanes) s with | .next u => f u | _ => false
def ackFrom1 : Packet := { packet0 .ack with vc := 1, spkg := 1, tag := 9 }
/-- Both packages hold a map of the two, with its routes, and package 1 answers package 0. -/
def regs : List Registration := [0, 1].map (fun p => { pkg := BitVec.ofNat 8 p, silicon := 1, pepoch := 0, depochs := List.replicate 8 0, lead := true, ports := [0], fencedJ := [] })
def mapped (f g : Port → Port) : State :=
  [0, 8].foldl (fun s d => s.modDie d (fun x => { x with map := ⟨1, regs⟩, routes := routeTable ⟨1, regs⟩ d })) { linked f g with net := [ackFrom1] }
/-- An IDLE flit, and a DATA flit with the header of an ACK. -/
def idle0 : Flit := { body := .idle, seq := 0, ack := 0, nak := false, credits := [0, 0, 0, 0, 0, 0, 0], esc := none }
def data1 : Flit := { idle0 with body := .data [.of { ackFrom1 with hops := 1 } true 0], seq := 1 }

def idleMet : Bool := ((linked id id).farSends 0 0).map (·.1) == some idle0 && decodeFlit (codeword ((linked id id).port 0 0) (lanesOf idle0)) == some (flitOf idle0) &&
  decodeFlit (codeword ((linked id id).port 0 0) (List.replicate 4 (List.replicate 110 1))) == none
def dataMet : Bool := ((mapped id id).farSends 0 0).map (·.1) == some data1 && decodeFlit (codeword ((mapped id id).port 0 0) (lanesOf data1)) == some (flitOf data1)
set_option maxRecDepth 1000000 in
/-- The far end's IDLE flit in its lanes, and lanes that bring no flit. -/
theorem met_FlitsAndReplay_idle : idleMet = true := by decide +kernel
set_option maxRecDepth 1000000 in
/-- The far end's DATA flit in its lanes. -/
theorem met_FlitsAndReplay_data : dataMet = true := by decide +kernel
/-- A SEQ that follows and one that does not; a port that discards; a NAK; a flit to send again; 256 flits unacknowledged; and a packet to send. -/
theorem met_FlitsAndReplay : (mapped id id).dieUp 0 = true ∧ ((mapped id id).port 0 0).st = .up ∧ idle0.body = .idle ∧ data1.body ≠ .idle ∧
    data1.seq = ((mapped id id).port 0 0).rxSeq + 1 ∧ data1.seq ≠ ((mapped id (fun x => { x with rxSeq := 1 })).port 0 0).rxSeq + 1 ∧
    ((linked id (fun x => { x with discarding := true })).port 0 0).discarding = true ∧
    (let x : Port := { st := .up, replay := [{ idle0 with seq := 4 }, { idle0 with seq := 5 }] }
     x.replay = [] ++ { idle0 with seq := 4 } :: [{ idle0 with seq := 5 }] ∧
     (let y : Port := { x with resend := [idle0] }; y.resend = idle0 :: []) ∧ (let y : Port := { x with replay := List.replicate 256 idle0 }; y.resend = [] ∧ 256 ≤ y.replay.length)) ∧
    (match (mapped id id).transmit 8 0 with | some (f, _) => f.body == data1.body && f.seq == 1 | none => false) = true := by decide +kernel
def dataArrives : Bool := receives (mapped id id) (lanesOf data1)
  (fun u => (u.die 0).rx.map (·.pk) == [{ ackFrom1 with hops := 1 }] && u.net == [] && (u.port 0 0).rxSeq == 1 && (u.port 8 0).replay.map (·.seq) == [1])
set_option maxRecDepth 1000000 in
/-- The flit's packet stands at its die, and the sender keeps the flit until it is acknowledged (R352, R355, R358). -/
theorem test_flit_data : dataArrives = true := by decide +kernel
/-! ### Worked examples of the spec -/

/-- Worked example of 07: an A32F dot product of E4M3 codes, stored in E4M3 and in BF16. -/
theorem test_a32_dot :
    let a := a32First (decodeFmt 3 0x4C) (decodeFmt 3 0x3A)
    let b := a32Fma a.1 (decodeFmt 3 0x5C) (decodeFmt 3 0x50)
    let c := a32Fma b.1 (decodeFmt 3 0xB8) (decodeFmt 3 0x38)
    c.1 = 0x43468000 ∧ encodeFmt 3 0 false 0 (f32Val c.1) = (0x74, fpNX) ∧ (encodeFmt 2 0 false 0 (f32Val c.1)).1 = 0x4346 := by decide +kernel

/-- Worked example of 07: SR rounds 198.5 up exactly when the draw reaches 0x8000. -/
theorem test_sr_tie : (encodeFmt 2 2 false 0x8000 (f32Val 0x43468000)).1 = 0x4347 ∧ (encodeFmt 2 2 false 0x7FFF (f32Val 0x43468000)).1 = 0x4346 := by
  decide +kernel

/-- Worked example of 07: guard overflow in an A40I sum, and its outputs. -/
theorem test_guard_overflow :
    a40Add 0x7FFFFFBF9C 16384 = (0x7FFFFFFF9C, false) ∧ a40Add 0x7FFFFFFF9C 16384 = (0x7FFFFFFFFF, true) ∧
    a40Add 0x7FFFFFFFFF (-16256) = (0x7FFFFFC07F, false) ∧ (encodeFmt 10 0 false 0 (Val.ofInt 0x7FFFFFC07F)).1 = 0x7FFFFFFF ∧
    (encodeFmt 10 0 false 0 (Val.ofInt 0x7FFFFFC07F)).2 &&& fpOF = fpOF ∧
    (encodeFmt 0 0 false 0 (Val.ofInt 0x7FFFFFC07F)).1 = 0x53000000 := by decide +kernel

/-- Worked example of 07: L8 of 0.25 and −3.0. -/
theorem test_l8 : (encodeL8 0 (f32Val 0x3E800000)).1 = 0x30 ∧ (encodeL8 0 (f32Val 0xC0400000)).1 = 0xCD ∧ (encodeL8 1 (f32Val 0xC0400000)).1 = 0xCC := by
  decide +kernel

/-- Worked example of 07: an E2M1 block of 13.0 and 1.3. -/
theorem test_e2m1_block : (mxEncode 6 0 false (fun _ => 0) [f32Val 0x41500000, f32Val 0x3FA66666]).1 = 0x80 ∧
    (mxEncode 6 0 false (fun _ => 0) [f32Val 0x41500000, f32Val 0x3FA66666]).2.1 = [7, 1] := by decide +kernel

/-- R12, R17: package 47 is rack 0, tray 11, slot 3; port S1 of package 46 leads to it. -/
theorem test_partner : mkPkg 0 11 3 = 47 ∧ partner 46 0 0 = 47 := by decide +kernel

end Sys2Proof.Tests
end

section
/-! PROOFS. Resets and reconciliation (R545 to R549, R556 to R558).  Two relations carry the frames: `Standing`, what traffic, events, the books and
a pass over the unit tables leave as it was, and the weaker `Steady`, what also the ends of threads and commands leave. -/
set_option Elab.async false
namespace Sys2Proof.Machine

/-- A die without what traffic, events, the books and reconciliation change. -/
def Die.standing (x : Die) : Die :=
  { x with ports := [], junctions := [], rx := [], arbs := [], activity := [], staleRsp := 0, badPkt := 0, routeLost := 0,
           otherFaults := [], heldEvents := [], tok := [], pool := [], tokFree := 0, poolFree := 0, dueGrants := [], shareAudit := [],
           owed := [], gate := 0, table := 0, drains := [] }

/-- A package without its VIs, its event queue, its SHUNT commands, and the central station's roster. -/
def Pkg.standing (k : Pkg) : Pkg :=
  { k with vis := [], tcEvents := [], tcDropped := 0, roster := [], mapDue := false, shCmds := [] }

theorem Kept.trans {s t u : State} (h : Kept s t) (k : Kept t u) : Kept s u := ⟨k.1.trans h.1, h.2.trans k.2⟩

/-! ### Steps that leave threads, bytes and standing records -/

/-- Threads and bytes are as they were, and dies and packages but for what events, traffic and the books change. -/
structure Standing (s t : State) : Prop where
  kept : Kept s t
  pkg : ∀ p, (t.pkg p).standing = (s.pkg p).standing
  die : ∀ d, (t.die d).standing = (s.die d).standing

namespace Standing
variable {s t u : State}

theorem refl (s : State) : Standing s s := ⟨⟨rfl, rfl, rfl, rfl⟩, fun _ => rfl, fun _ => rfl⟩

theorem trans (h : Standing s t) (k : Standing t u) : Standing s u :=
  ⟨h.kept.trans k.kept, fun p => (k.pkg p).trans (h.pkg p), fun d => (k.die d).trans (h.die d)⟩

theorem threads (h : Standing s t) : t.threads = s.threads := h.kept.1
theorem bytes (h : Standing s t) : SameBytes s t := h.kept.2
/-- A part of a package that does not change reads as before. -/
theorem pkg_eq {α : Type} (h : Standing s t) (f : Pkg → α) (p : Nat) (hf : ∀ k, f k.standing = f k := by exact fun _ => rfl) :
    f (t.pkg p) = f (s.pkg p) := by rw [← hf, h.pkg, hf]
/-- A part of a die that does not change reads as before. -/
theorem die_eq {α : Type} (h : Standing s t) (f : Die → α) (d : Nat) (hf : ∀ x, f x.standing = f x := by exact fun _ => rfl) :
    f (t.die d) = f (s.die d) := by rw [← hf, h.die, hf]
theorem thread (h : Standing s t) (n : Nat) : t.thread n = s.thread n := by unfold State.thread; rw [h.threads]

/-- Threads, bytes, packages and dies are the same. -/
theorem same (h : Standing s t) (hk : Kept t u := by exact ⟨rfl, rfl, rfl, rfl⟩) (hp : u.pkgs = t.pkgs := by rfl) (hd : u.dies = t.dies := by rfl) :
    Standing s u :=
  h.trans ⟨hk, fun p => by unfold State.pkg; rw [hp], fun d => by unfold State.die; rw [hd]⟩

theorem setDie (h : Standing s t) (d : Nat) {x : Die} (hx : x.standing = (t.die d).standing := by rfl) : Standing s (t.setDie d x) :=
  h.trans ⟨⟨rfl, rfl, rfl, rfl⟩, fun _ => rfl, fun e => by
    rw [State.die_set]
    split
    · next he => rw [he, hx]
    · rfl⟩

theorem modDie (h : Standing s t) (d : Nat) {f : Die → Die} (hf : ∀ x, (f x).standing = x.standing := by exact fun _ => rfl) :
    Standing s (t.modDie d f) := h.setDie d (hf _)

theorem modPkg (h : Standing s t) (p : Nat) {f : Pkg → Pkg} (hf : ∀ k, (f k).standing = k.standing := by exact fun _ => rfl) :
    Standing s (t.modPkg p f) :=
  h.trans ⟨⟨rfl, rfl, rfl, rfl⟩, fun q => by
    rw [State.pkg_mod]
    split
    · next hq => rw [hq, hf]
    · rfl, fun _ => rfl⟩

theorem ite {c : Prop} [Decidable c] (h : Standing s t) (k : Standing s u) : Standing s (if c then t else u) := by
  split
  · exact h
  · exact k

theorem foldl {α : Type} (h : Standing s t) {f : State → α → State} (l : List α) (hf : ∀ t a, Standing s t → Standing s (f t a)) :
    Standing s (l.foldl f t) := List.foldlRecOn l f h (fun t ht a _ => hf t a ht)

/-! ### Packets on their way -/

theorem post (h : Standing s t) (p : Packet) : Standing s (t.post p) := h.same
theorem modPort (h : Standing s t) (d q : Nat) (f : Port → Port) : Standing s (t.modPort d q f) := h.modDie d
theorem modJunction (h : Standing s t) (d j : Nat) (f : Junction → Junction) : Standing s (t.modJunction d j f) := h.modDie d
theorem staleRsp (h : Standing s t) (d : Nat) : Standing s (t.staleRsp d) := h.modDie d
theorem badPacket (h : Standing s t) (d : Nat) : Standing s (t.badPacket d) := h.modDie d
theorem setArb (h : Standing s t) (x o : Nat) (a : Arb) : Standing s (t.setArb x o a) := h.modDie x

theorem charge (h : Standing s t) (d tenant row n : Nat) : Standing s (t.charge d tenant row n) := by
  unfold State.charge
  exact .ite h (h.modDie d)

theorem freeRx (h : Standing s t) (x : Nat) (r : Rx) : Standing s (t.freeRx x r) := by
  unfold State.freeRx
  exact .ite (h.modPort _ _ _) (.ite (h.modJunction _ _ _) h)

theorem leave (h : Standing s t) (x : Nat) (r : Rx) : Standing s (t.leave x r) := by
  unfold State.leave
  exact .ite h.same ((h.modDie x).freeRx x r)

theorem land (h : Standing s t) (x : Nat) (r : Rx) : Standing s (t.land x r) := by
  unfold State.land
  exact .ite (h.modDie x) ((h.badPacket x).freeRx x r)

theorem stopPacket (h : Standing s t) (x : Nat) (p : Packet) : Standing s (t.stopPacket x p) := by
  unfold State.stopPacket
  split
  · exact h.modDie x
  · dsimp only
    split
    · exact (h.staleRsp x).same
    · exact h.staleRsp x

theorem stopAt (h : Standing s t) (x : Nat) (r : Rx) (lost : Bool) : Standing s (t.stopAt x r lost) := by
  unfold State.stopAt
  exact .ite h (stopPacket (.ite ((h.leave x r).modDie x) (h.leave x r)) x _)

theorem crossJunction (h : Standing s t) (x j : Nat) (r : Rx) (a : Arb) : Standing s (t.crossJunction x j r a) :=
  ((((h.leave x r).setArb x _ a).modJunction x j _).charge _ _ _ _).land _ _

theorem beginPacket (h : Standing s t) (x q : Nat) (r : Rx) (a : Arb) : Standing s (t.beginPacket x q r a) :=
  (((h.leave x r).setArb x q a).modPort x q _).charge _ _ _ _

theorem fillSlots (x q f : Nat) : ∀ (n : Nat) {t : State}, Standing s t → Standing s (State.fillSlots x q f n t).2 := by
  induction f with
  | zero => exact fun _ _ h => h
  | succ f ih =>
    intro n t h
    unfold State.fillSlots
    split
    · exact h
    · split
      · split
        · exact h
        · exact ih _ (h.beginPacket _ _ _ _)
      · exact ih _ (h.modPort _ _ _)

theorem newFlit (h : Standing s t) (x q : Nat) (b : FlitBody) : Standing s (t.newFlit x q b).2 := by
  unfold State.newFlit
  dsimp only
  exact h.modPort _ _ _

theorem transmit (h : Standing s t) {x q : Nat} {f : Flit} (e : t.transmit x q = some (f, u)) : Standing s u := by
  unfold State.transmit at e
  dsimp only at e
  split at e
  · cases e
  · split at e
    · cases e
      exact h.modPort _ _ _
    · split at e
      · have e := congrArg Prod.snd (Option.some.inj e)
        subst e
        split
        · exact ((h.modPort _ _ _).modPort _ _ _).newFlit _ _ _
        · exact (h.modPort _ _ _).newFlit _ _ _
      · split at e
        · have e := congrArg Prod.snd (Option.some.inj e)
          subst e
          exact (fillSlots x q 64 15 h).newFlit _ _ _
        · cases e
          exact h.modPort _ _ _

theorem farSends (h : Standing s t) {d q : Nat} {f : Flit} (e : t.farSends d q = some (f, u)) : Standing s u := by
  unfold State.farSends at e
  split at e
  · split at e
    · exact h.transmit e
    · cases e
  · cases e

theorem rawPacket (h : Standing s t) (d : Nat) (w : BitVec 128) : Standing s (t.rawPacket d w) := by
  unfold State.rawPacket
  exact .ite h (h.badPacket d)

theorem packetIn (h : Standing s t) (d q : Nat) (l : List Slot) : Standing s (t.packetIn d q l) := by
  unfold State.packetIn
  dsimp only
  split
  · exact (((h.modPort _ _ _).modPort _ _ _).charge _ _ _ _).land _ _
  · exact (h.modPort _ _ _).rawPacket _ _
  · exact h.modPort _ _ _

theorem takeSlots (d q : Nat) (l : List Slot) : ∀ {t : State}, Standing s t → Standing s (t.takeSlots d q l) := by
  induction l with
  | nil => exact fun h => h
  | cons w r ih =>
    intro t h
    unfold State.takeSlots
    exact .ite h (ih (.ite (h.packetIn _ _ _) (h.modPort _ _ _)))

theorem acceptFlit (h : Standing s t) (d q : Nat) (f : Flit) : Standing s (t.acceptFlit d q f) := by
  unfold State.acceptFlit
  dsimp only
  split
  · exact h
  · split
    · exact h.modPort _ _ _
    · split
      · exact takeSlots d q _ ((h.modPort _ _ _).modPort _ _ _)
      · exact (h.modPort _ _ _).modPort _ _ _

theorem receive (h : Standing s t) (d q : Nat) : Standing s (t.receive d q) := by
  unfold State.receive
  split
  · next e =>
    exact .ite ((h.farSends e).acceptFlit _ _ _) (h.farSends e)
  · exact h

theorem sendUntil (d q e q2 : Nat) (done : State → Bool) (f : Nat) : ∀ {t : State}, Standing s t → Standing s (State.sendUntil d q e q2 done f t) := by
  induction f with
  | zero => exact fun h => h
  | succ f ih =>
    intro t h
    unfold State.sendUntil
    exact .ite h (ih (h.receive _ _))

theorem crossLink (h : Standing s t) (x q : Nat) (p : Packet) : Standing s (t.crossLink x q p) := by
  unfold State.crossLink
  split
  · exact h
  · exact .ite (sendUntil _ _ _ _ _ _ (.ite (h.receive _ _) h))
      (sendUntil _ _ _ _ _ _ ((sendUntil _ _ _ _ _ _ (.ite (h.receive _ _) h)).receive _ _))

theorem pull (p : Packet) (f : Nat) : ∀ {t : State}, Standing s t → Standing s (State.pull p f t) := by
  induction f with
  | zero => exact fun h => h
  | succ f ih =>
    intro t h
    unfold State.pull
    split
    · split
      · dsimp only
        split
        · exact h.crossLink _ _ _
        · exact ih (h.crossLink _ _ _)
      · exact h
    · dsimp only
      split
      · exact h
      · split
        · exact h
        · exact ih (h.stopAt _ _ _)
      · exact ih (h.stopAt _ _ _)
      · split
        · split
          · exact h.crossLink _ _ _
          · exact ih (h.crossLink _ _ _)
        · split
          · exact h
          · exact ih (h.crossJunction _ _ _ _)

theorem bring (h : Standing s t) (p : Packet) : Standing s (t.bring p) := pull p _ h

/-! ### Announcements, reports and events -/

theorem sendEpoch (h : Standing s t) (p : Nat) (e : EpochMsg) : Standing s (t.sendEpoch p e) :=
  h.foldl _ (fun _ _ h => (h.post _).bring _)

theorem reportLinks (h : Standing s t) (p : Nat) : Standing s (t.reportLinks p) := by
  unfold State.reportLinks
  split
  · exact h
  · exact .ite (h.modPkg p) (h.post _)

theorem modVi (h : Standing s t) (p v : Nat) (f : Vi → Vi) : Standing s (t.modVi p v f) := by
  unfold State.modVi State.setVi
  exact h.modPkg p

theorem postEvent (h : Standing s t) (p v : Nat) (e : Word × Word) : Standing s (t.postEvent p v e) := by
  unfold State.postEvent
  exact .ite (((h.modVi p v _).modVi p v _).modPkg p) ((h.modVi p v _).modVi p v _)

theorem event (h : Standing s t) (d v code unit value : Nat) : Standing s (t.event d v code unit value) := by
  unfold State.event
  exact .ite (h.modDie d) (h.postEvent _ _ _)

/-! ### The books -/

theorem setShare (h : Standing s t) (ledger d v : Nat) (x : Share) : Standing s (t.setShare ledger d v x) :=
  h.modDie d (fun _ => by split <;> rfl)
theorem setUnalloc (h : Standing s t) (ledger d n : Nat) : Standing s (t.setUnalloc ledger d n) :=
  h.modDie d (fun _ => by split <;> rfl)
theorem auditDue (h : Standing s t) (ledger d : Nat) : Standing s (t.auditDue ledger d) := h.modDie d

theorem serveGrants (ledger d n : Nat) : ∀ {t : State}, Standing s t → Standing s (State.serveGrants ledger d n t) := by
  induction n with
  | zero => exact fun h => h
  | succ n ih =>
    intro t h
    unfold State.serveGrants
    split
    · exact h
    · exact .ite h (ih (((((h.modDie d).setShare _ _ _ _).setUnalloc _ _ _).event _ _ _ _ _).auditDue _ _))

theorem grantDue (h : Standing s t) (ledger d : Nat) : Standing s (t.grantDue ledger d) := serveGrants ledger d _ h

theorem giveUnalloc (h : Standing s t) (ledger d n : Nat) : Standing s (t.giveUnalloc ledger d n) := by
  unfold State.giveUnalloc
  exact (setUnalloc (.ite h (h.modDie d)) _ _ _).grantDue _ _

theorem grantShare (h : Standing s t) (ledger d v : Nat) : Standing s (t.grantShare ledger d v) := by
  unfold State.grantShare
  exact .ite h (.ite (((h.setShare _ _ _ _).modDie d).grantDue _ _) (((h.setShare _ _ _ _).event _ _ _ _ _).auditDue _ _))

theorem releaseUnit (h : Standing s t) (ledger d v : Nat) : Standing s (t.releaseUnit ledger d v) := by
  unfold State.releaseUnit
  have given := (h.setShare ledger d v { t.share ledger d v with
    share := (t.share ledger d v).share - 1, held := (t.share ledger d v).held - 1, withdraw := (t.share ledger d v).withdraw - 1 }).giveUnalloc ledger d 1
  exact .ite (h.setShare _ _ _ _) (.ite (given.grantShare _ _ _) given)

theorem returnUnits (h : Standing s t) (d : Nat) : Standing s (t.returnUnits d) :=
  h.foldl _ (fun _ _ h => (h.foldl _ (fun _ _ h => h.releaseUnit 4 d _)).foldl _ (fun _ _ h => h.releaseUnit 5 d _))

/-! ### Shunter segments whose die is lost -/

theorem modCluster (h : Standing s t) (c : Nat) (f : Cluster → Cluster) : Standing s (t.modCluster c f) := h.same
theorem modHub (h : Standing s t) (home : Nat) (c : CmdRef) (pos : Nat) (f : Hub → Hub) : Standing s (t.modHub home c pos f) := h.same
theorem badRow (h : Standing s t) (c : CmdRef) (pos reason : Nat) : Standing s (t.badRow c pos reason) := by
  unfold State.badRow State.modShCmd
  exact h.modPkg c.p

theorem segFail (h : Standing s t) (home : Nat) (c : CmdRef) (pos n reason : Nat) : Standing s (t.segFail home c pos n reason) := by
  unfold State.segFail State.hubSettle
  have failed := modHub h home c pos (fun g => { g.fail n reason with running := g.running.filter (· != n) })
  split
  · split
    · exact .ite ((failed.modCluster home _).badRow _ _ _) failed
    · exact failed
  · exact failed

theorem segsLost (h : Standing s t) (lost : Nat → Bool) : Standing s (t.segsLost lost) := by
  refine h.foldl _ (fun t e h => ?_)
  split
  · split
    · exact .ite h (h.segFail _ _ _ _ _)
    · exact h
  · exact h

/-! ### Queues, junctions and ports of a die that leaves or returns -/

theorem loseQueues (h : Standing s t) (d : Nat) : Standing s (t.loseQueues d) := by
  have emptied := h.modDie d (f := fun x => { x with rx := [] })
  refine Standing.foldl (t := { t.modDie d (fun x => { x with rx := [] }) with net := _ }) emptied.same _ (fun t r h => ?_)
  split
  · exact .ite (h.stopPacket _ _) h
  · exact h

theorem syncJunction (h : Standing s t) (x j : Nat) : Standing s (t.syncJunction x j) := by
  unfold State.syncJunction
  exact h.modJunction _ _ _
theorem syncJunctions (h : Standing s t) (d : Nat) : Standing s (t.syncJunctions d) :=
  h.foldl _ (fun _ _ h => (h.syncJunction _ _).syncJunction _ _)

theorem fenceNeighbours (h : Standing s t) (d : Nat) : Standing s (t.fenceNeighbours d) :=
  reportLinks (h.foldl _ (fun _ _ h => .ite (((h.modJunction _ _ _).modDie _).event _ _ _ _ _) h)) _

theorem unfenceNeighbours (h : Standing s t) (d : Nat) : Standing s (t.unfenceNeighbours d) :=
  h.foldl _ (fun _ _ h => .ite ((h.modJunction _ _ _).modJunction _ _ _) ((h.modJunction _ _ _).modJunction _ _ _))

theorem trainPorts (h : Standing s t) (d : Nat) : Standing s (t.trainPorts d) := h.modDie d

/-! ### Units -/

theorem closeGate (h : Standing s t) (d u : Nat) : Standing s (t.closeGate d u) := h.modDie d

theorem returnUnit (h : Standing s t) (d u : Nat) : Standing s (t.returnUnit d u) := by
  unfold State.returnUnit
  exact .ite (modCluster (h.modDie d) _ _) (h.modDie d)

theorem reconcile (h : Standing s t) (d u : Nat) : Standing s (t.reconcile d u) := by
  unfold State.reconcile
  dsimp only
  split
  · exact .ite (.ite h (h.closeGate _ _))
      (.ite ((h.setDie d).event _ _ _ _ _) (((h.setDie d).event _ _ _ _ _).closeGate _ _))
  · exact (h.setDie d).event _ _ _ _ _
  · exact h

end Standing
end Sys2Proof.Machine
end

section
/-! PROOFS. The ends of threads and commands leave every package standing and every die with its epoch. -/
set_option Elab.async false
namespace Sys2Proof.Machine

/-! ### Steady steps -/

/-- Packages stand but for what events and the ends of commands change, and every die keeps its epoch. -/
structure Steady (s t : State) : Prop where
  pkg : ∀ p, (t.pkg p).standing = (s.pkg p).standing
  epoch : ∀ d, (t.die d).epoch = (s.die d).epoch

theorem Standing.steady {s t : State} (h : Standing s t) : Steady s t := ⟨h.pkg, h.die_eq Die.epoch⟩

/-- What is done to each entry of a table is done to what the table answers, if it fixes the default. -/
theorem tget_tmap_proj {α β : Type} (t : Tab α) (k : Nat) (x : α) {f : Nat → α → α} (g : α → β) (hf : ∀ a, g (f k a) = g a) :
    g (tget (tmap t f) k x) = g (tget t k x) := by
  unfold tget
  rw [tget?_tmap]
  cases tget? t k with
  | none => rfl
  | some a => exact hf a

namespace Steady
variable {s t u : State}

theorem refl (s : State) : Steady s s := (Standing.refl s).steady
theorem trans (h : Steady s t) (k : Steady t u) : Steady s u :=
  ⟨fun p => (k.pkg p).trans (h.pkg p), fun d => (k.epoch d).trans (h.epoch d)⟩


/-- A part of a package that does not change reads as before. -/
theorem pkg_eq {α : Type} (h : Steady s t) (f : Pkg → α) (p : Nat) (hf : ∀ k, f k.standing = f k := by exact fun _ => rfl) :
    f (t.pkg p) = f (s.pkg p) := by rw [← hf, h.pkg, hf]

/-- Steps of traffic, events and the books after steady ones. -/
theorem standing (h : Steady s t) (k : Standing t u) : Steady s u := h.trans k.steady

/-- Packages and dies are the same. -/
theorem same (h : Steady s t) (hp : u.pkgs = t.pkgs := by rfl) (hd : u.dies = t.dies := by rfl) : Steady s u :=
  h.trans ⟨fun p => by unfold State.pkg; rw [hp], fun d => by unfold State.die; rw [hd]⟩

/-- Every die is changed alike, but for its epoch. -/
theorem mapDies (h : Steady s t) (l : Tab Thread) {f : Nat → Die → Die} (hf : ∀ d x, (f d x).epoch = x.epoch := by exact fun _ _ => rfl) :
    Steady s { t with threads := l, dies := tmap t.dies f } :=
  h.trans ⟨fun _ => rfl, fun d => tget_tmap_proj _ d _ Die.epoch (hf d)⟩

theorem setDie (h : Steady s t) (d : Nat) {x : Die} (hx : x.epoch = (t.die d).epoch := by rfl) : Steady s (t.setDie d x) :=
  h.trans ⟨fun _ => rfl, fun e => by
    rw [State.die_set]
    split
    · next he => rw [he, hx]
    · rfl⟩

theorem modDie (h : Steady s t) (d : Nat) {f : Die → Die} (hf : ∀ x, (f x).epoch = x.epoch := by exact fun _ => rfl) :
    Steady s (t.modDie d f) := h.setDie d (hf _)

theorem ite {c : Prop} [Decidable c] (h : Steady s t) (k : Steady s u) : Steady s (if c then t else u) := by
  split
  · exact h
  · exact k

theorem foldl {α : Type} (h : Steady s t) {f : State → α → State} (l : List α) (hf : ∀ t a, Steady s t → Steady s (f t a)) :
    Steady s (l.foldl f t) := List.foldlRecOn l f h (fun t ht a _ => hf t a ht)

theorem setThread (h : Steady s t) (n : Nat) (x : Thread) : Steady s (t.setThread n x) := h.same
theorem modThread (h : Steady s t) (n : Nat) (f : Thread → Thread) : Steady s (t.modThread n f) := h.same
theorem modCluster (h : Steady s t) (c : Nat) (f : Cluster → Cluster) : Steady s (t.modCluster c f) := h.same
theorem withThreads (h : Steady s t) (l : Tab Thread) : Steady s { t with threads := l } := h.same
theorem withClusters (h : Steady s t) (l : Tab Cluster) : Steady s { t with clusters := l } := h.same
theorem hostWrite (h : Steady s t) (p a : Nat) (b : List Byte) : Steady s (t.hostWrite p a b) := h.same
theorem writeMasked (h : Steady s t) (a : Nat) (b : List (Bool × Byte)) : Steady s (t.writeMasked a b) := h.same
theorem modPkg (h : Steady s t) (p : Nat) {f : Pkg → Pkg} (hf : ∀ k, (f k).standing = k.standing := by exact fun _ => rfl) :
    Steady s (t.modPkg p f) := h.standing ((Standing.refl t).modPkg p hf)
theorem modVi (h : Steady s t) (p v : Nat) (f : Vi → Vi) : Steady s (t.modVi p v f) := h.standing ((Standing.refl t).modVi p v f)
theorem msix (h : Steady s t) (p v vec : Nat) : Steady s (t.msix p v vec) := h.modVi p v _
theorem modRing (h : Steady s t) (p v r : Nat) (f : Ring → Ring) : Steady s (t.modRing p v r f) := h.modVi p v _
theorem modCmd (h : Steady s t) (c : CmdRef) (f : RCmd → RCmd) : Steady s (t.modCmd c f) := h.modRing _ _ _ _
theorem event (h : Steady s t) (d v code unit value : Nat) : Steady s (t.event d v code unit value) :=
  h.standing ((Standing.refl t).event d v code unit value)

/-! ### Requests -/

theorem emitNew (h : Steady s t) {d : Nat} {o : Outst} {p : Packet} (e : t.emitNew d o p = some u) : Steady s u := by
  unfold State.emitNew at e
  split at e
  · cases e
    exact h.same
  · obtain ⟨tag, -, rfl⟩ := Option.map_eq_some_iff.1 e
    have tagged := h.setDie d (x := { t.die d with outst := tset (t.die d).outst tag o, nextTag := (tag + 1) % 4096 })
    exact tagged.same

theorem sendPk (h : Steady s t) (d : Nat) (kind : OKind) (vi cls : Nat) (p : Packet) : Steady s (t.sendPk d kind vi cls p) := by
  unfold State.sendPk
  dsimp only
  split
  · next e =>
    split at e
    · cases e
    · exact h.emitNew e
  · exact h.setDie d

theorem flushSendQ (d : Nat) (q : List (Outst × Packet)) : ∀ (kept : List (Outst × Packet)) {t : State}, Steady s t → Steady s (t.flushSendQ d q kept) := by
  induction q with
  | nil => exact fun _ _ h => h.modDie d
  | cons e r ih =>
    intro kept t h
    unfold State.flushSendQ
    dsimp only
    split
    · next e =>
      split at e
      · cases e
      · exact ih _ (h.emitNew e)
    · exact ih _ h

theorem retire (h : Steady s t) (d tag : Nat) : Steady s (t.retire d tag) := by
  unfold State.retire
  exact flushSendQ d _ _ (h.setDie d)

theorem purge (h : Steady s t) (f : Packet → Bool) : Steady s (t.purge f) := by
  unfold State.purge
  have filtered : Steady s { t with net := t.net.filter (fun p => !f p) } := h.same
  exact filtered.foldl _ (fun t _ h => h.standing ((Standing.refl t).leave _ _))

/-! ### Waits -/

theorem dropWait (h : Steady s t) (d e : Nat) (w : WaiterRef) : Steady s (t.dropWait d e w) := by
  unfold State.dropWait
  dsimp only
  split
  · exact (h.modDie d).modDie e
  · exact (((h.modDie d).modDie e).purge _).retire d _

theorem cancelWait (h : Steady s t) (d : Nat) (w : WaiterRef) (handle : Word) (cls deadline : Nat) : Steady s (t.cancelWait d w handle cls deadline) := by
  unfold State.cancelWait
  split
  · exact h.modDie d
  · exact h.sendPk _ _ _ _ _

theorem leaveWait (h : Steady s t) (d : Nat) (w : WaiterRef) (handle : Word) (cls deadline : Nat) : Steady s (t.leaveWait d w handle cls deadline) := by
  unfold State.leaveWait
  exact .ite (h.dropWait _ _ _) ((h.cancelWait _ _ _ _ _).modDie d)

/-! ### The ends of commands -/

theorem writeEntryAs (h : Steady s t) (c : CmdRef) (stops : Bool) : Steady s (t.writeEntryAs c stops) := by
  unfold State.writeEntryAs
  split
  · exact h
  · split
    · exact h
    · dsimp only
      refine .ite h (.ite (event ?entry _ _ _ _ _) ?entry)
      refine .ite (msix ?late _ _ _) ?late
      exact .ite (((h.hostWrite _ _ _).modRing _ _ _ _).modVi _ _ _) ((h.hostWrite _ _ _).modRing _ _ _ _)

theorem finishCmd (h : Steady s t) (c : CmdRef) (status : Nat) (result : Word) : Steady s (t.finishCmd c status result) := by
  unfold State.finishCmd
  split
  · exact h
  · exact .ite h ((Steady.ite ((h.modCmd _ _).sendPk _ _ _ _ _) (h.modCmd _ _)).writeEntryAs _ _)

theorem launchDone (h : Steady s t) (c : CmdRef) : Steady s (t.launchDone c) := by
  unfold State.launchDone
  split
  · exact h
  · split
    · exact .ite (.ite (h.finishCmd _ _ _) (h.finishCmd _ _ _)) h
    · exact h

theorem launchEnd (h : Steady s t) (c : CmdRef) (err : Bool) : Steady s (t.launchEnd c err) := by
  unfold State.launchEnd
  exact (h.modCmd _ _).launchDone c

theorem dropCmdDie (h : Steady s t) (c : CmdRef) (d : Nat) : Steady s (t.dropCmdDie c d) := by
  unfold State.dropCmdDie
  exact Steady.foldl (h.setDie d) _ (fun t _ h => h.standing ((Standing.refl t).releaseUnit _ _ _))

theorem dropCmd (h : Steady s t) (c : CmdRef) : Steady s (t.dropCmd c) := by
  unfold State.dropCmd
  refine withClusters (modPkg (foldl ?_ _ (fun _ _ h => h.dropCmdDie _ _)) _) _
  split
  · split
    · exact h.leaveWait _ _ _ _ _
    · exact h
  · exact h

theorem failCmdN (h : Steady s t) (c : CmdRef) (ending : Nat) : Steady s (t.failCmdN c ending) := by
  unfold State.failCmdN
  split
  · exact h
  · exact .ite ((h.dropCmd c).finishCmd _ _ _) h

theorem failDie (h : Steady s t) (d : Nat) : Steady s (t.failDie d) := by
  refine h.foldl _ (fun t c h => ?_)
  split
  · exact .ite (h.writeEntryAs _ _) (.ite (h.failCmdN _ _) h)
  · exact h

/-! ### The ends of threads -/

theorem releaseCore (h : Steady s t) (d tp : Nat) : Steady s (t.releaseCore d tp) := h.modDie d

theorem freeThread (h : Steady s t) (th : Nat) : Steady s (t.freeThread th) := by
  unfold State.freeThread State.scopeChanged
  dsimp only
  refine .ite h (releaseCore (modDie (modCluster (modDie (setThread ?_ _ _) _) _ _) _) _ _)
  split
  · exact h.leaveWait _ _ _ _ _
  · exact h

theorem leaveOrigin (h : Steady s t) (a : Journey) : Steady s (t.leaveOrigin a) := by
  unfold State.leaveOrigin
  exact .ite h.same h

theorem countedOnce (h : Steady s t) (th : Nat) (x : Thread) : Steady s (t.countedOnce th x) := by
  unfold State.countedOnce
  dsimp only
  refine .ite (mapDies ?left _) ?left
  split
  · exact h.leaveOrigin _
  · exact h

theorem endThread (h : Steady s t) (th : Nat) (err : Bool) : Steady s (t.endThread th err) := by
  unfold State.endThread
  dsimp only
  split
  · exact ((h.countedOnce _ _).freeThread _).launchEnd _ _
  · exact (h.countedOnce _ _).freeThread _

theorem endTicket (h : Steady s t) (q : QTicket) : Steady s (t.endTicket q) := by
  unfold State.endTicket
  dsimp only
  split
  · exact (h.leaveOrigin _).launchEnd _ _
  · exact h.leaveOrigin _

theorem endDieThreads (h : Steady s t) (d : Nat) : Steady s (t.endDieThreads d) := by
  unfold State.endDieThreads
  exact withThreads (foldl (modDie (h.foldl _ (fun _ _ h => (h.modThread _ _).endThread _ _)) d) _ (fun _ _ h => h.endTicket _)) _

/-! ### The arrays of a die, and what its clusters had not written -/

theorem zeroRange (h : Steady s t) (lo hi : Nat) : Steady s (t.zeroRange lo hi) := h.same

theorem wipeArrays (h : Steady s t) (d : Nat) : Steady s (t.wipeArrays d) := by
  unfold State.wipeArrays
  exact zeroRange (withClusters (h.standing ((Standing.refl t).segsLost _)) _) _ _

theorem flushCluster (h : Steady s t) (c : Nat) : Steady s (t.flushCluster c) := by
  unfold State.flushCluster
  exact foldl (foldl (h.foldl _ (fun _ _ h => .ite h (h.writeMasked _ _))) _ (fun _ _ h => .ite h (h.writeMasked _ _)))
    _ (fun _ _ h => h.foldl _ (fun _ _ h => h.writeMasked _ _))

end Steady
end Sys2Proof.Machine
end

section
/-! PROOFS. Die and package resets, and their ends (R545 to R549). -/
set_option Elab.async false
namespace Sys2Proof.Machine

/-! ### A die that resets (R546) -/

theorem tget?_filter_none {α : Type} {t : Tab α} {k : Nat} {f : Nat × α → Bool} (h : ∀ a, f (k, a) = false) : tget? (t.filter f) k = none := by
  cases e : tget? (t.filter f) k with
  | none => rfl
  | some a =>
    have kept := (List.mem_filter.1 (tget?_mem e)).2
    rw [h a] at kept
    cases kept

/-- No thread is left on a die whose threads have ended. -/
theorem State.endDieThreads_thread {s : State} {d n : Nat} (h : thDie n = d) : (s.endDieThreads d).thread n = {} := by
  unfold State.endDieThreads State.thread tget
  rw [tget?_filter_none (by simp [h])]
  rfl

theorem State.wipeArrays_threads (s : State) (d : Nat) : (s.wipeArrays d).threads = s.threads :=
  ((Standing.refl s).segsLost _).threads

/-- R546: what the reset of a die other than die 0 leaves: its record is a fresh one, and only reports and the neighbours' fences follow. -/
theorem State.resetDie_leaves {s : State} {d : Nat} (hup : s.dieUp d = true) (hd : dieNo d ≠ 0) (hw : (s.die d).swapping = none) :
    ∃ (m : State) (x : Die), Steady s m ∧ (∀ n, thDie n = d → m.thread n = {}) ∧
      (x.st = .resetting ∧ x.epoch = (s.die d).epoch + 1 ∧ x.resetAt = s.now d ∧ x.outst = [] ∧ x.signals = [] ∧ x.arrivals = []) ∧
      Standing (m.setDie d x) (s.resetDie d false) := by
  unfold State.resetDie
  simp only [hup, hd, hw, Bool.not_true, Bool.false_eq_true, if_false, Option.isSome_none]
  refine ⟨_, _, ?_, fun n hn => ?_, ?_, ((Standing.refl _).syncJunctions d).fenceNeighbours d⟩
  · exact Steady.standing (Steady.wipeArrays (Steady.standing (Steady.endDieThreads (Steady.failDie (Steady.modDie
      ((Steady.refl s).standing ((Standing.refl s).sendEpoch _ _)) d) d) d) ((Standing.refl _).returnUnits d)) d) ((Standing.refl _).loseQueues d)
  · rw [((Standing.refl _).loseQueues d).thread]
    unfold State.thread
    rw [State.wipeArrays_threads, ((Standing.refl _).returnUnits d).threads]
    exact State.endDieThreads_thread hn
  · exact ⟨rfl, rfl, rfl, rfl, rfl, rfl⟩

/-! ### A package that resets (R547 to R549) -/

/-- Step `i` renews die `i` of a package: after steady steps, the die gets a record with its next epoch. -/
def RenewsDies (p : Nat) (f : State → Nat → State) : Prop :=
  ∀ t i, ∃ m x, Steady t m ∧ x.epoch = (m.die (p * 8 + i)).epoch + 1 ∧ f t i = m.setDie (p * 8 + i) x

/-- Dies other than die 0 are renewed: the packages stand, and die 0 keeps its epoch. -/
theorem RenewsDies.others {p : Nat} {f : State → Nat → State} (hf : RenewsDies p f) :
    ∀ (l : List Nat) (t : State), 0 ∉ l → (∀ q, ((l.foldl f t).pkg q).standing = (t.pkg q).standing) ∧
      ((l.foldl f t).die (p * 8)).epoch = (t.die (p * 8)).epoch := by
  intro l
  induction l with
  | nil => exact fun t _ => ⟨fun _ => rfl, rfl⟩
  | cons i r ih =>
    intro t h0
    obtain ⟨m, x, hm, -, e⟩ := hf t i
    obtain ⟨hi, hr⟩ := List.ne_and_not_mem_of_not_mem_cons h0
    obtain ⟨hp, hd⟩ := ih (f t i) hr
    rw [List.foldl_cons]
    refine ⟨fun q => (hp q).trans ?_, hd.trans ?_⟩
    · rw [e]
      exact hm.pkg q
    · rw [e, State.die_set_other _ _ _ _ (by omega)]
      exact hm.epoch _

/-- All eight dies are renewed: the package stands, and die 0 has its next epoch. -/
theorem RenewsDies.all {p : Nat} {f : State → Nat → State} (hf : RenewsDies p f) (t : State) :
    (((List.range 8).foldl f t).pkg p).standing = (t.pkg p).standing ∧
      (((List.range 8).foldl f t).die (p * 8)).epoch = (t.die (p * 8)).epoch + 1 := by
  obtain ⟨m, x, hm, hx, e⟩ := hf t 0
  obtain ⟨hp, hd⟩ := hf.others [1, 2, 3, 4, 5, 6, 7] (f t 0) (by decide)
  refine ⟨(hp p).trans ?_, hd.trans ?_⟩
  · rw [e]
    exact hm.pkg p
  · rw [e, Nat.add_zero, State.die_set_same, hx, Nat.add_zero, hm.epoch]

theorem resetPkgRecord_epoch (k : Pkg) (preserve : Bool) : (resetPkgRecord k preserve).epoch = k.epoch + 1 := rfl

/-- R548: a package that resets with PRESERVE has its next epoch, and its die 0 too. -/
theorem State.resetPkg_leaves {s : State} {p : Nat} (h : (s.pkg p).phase = .run) (lose0 : Bool) :
    ((s.resetPkg p true lose0).pkg p).phase = .resetting ∧ ((s.resetPkg p true lose0).pkg p).preserve = true ∧
      ((s.resetPkg p true lose0).pkg p).epoch = (s.pkg p).epoch + 1 ∧
      ((s.resetPkg p true lose0).die (p * 8)).epoch = (s.die (p * 8)).epoch + 1 := by
  generalize hu : s.resetPkg p true lose0 = u
  unfold State.resetPkg at hu
  rw [if_neg (by simp [h])] at hu
  extract_lets k flushed told own entered fresh base at hu
  -- the package's record
  have hentered : entered.pkg p = resetPkgRecord k true := State.pkg_set_same _ _ _
  have hfresh : fresh.pkg p = { entered.pkg p with vis := freshVis (entered.x8x8 p), central := if k.central == some p then none else k.central } := State.pkg_mod_same _ _ _
  -- die 0 until its own reset
  have htold : Steady s told :=
    (Steady.foldl (t := s) (Steady.refl s) _ (fun _ _ h => h.flushCluster _)).standing ((Standing.refl flushed).sendEpoch _ _)
  have hdie : fresh.die (p * 8) = told.die (p * 8) := (State.modPkg_die entered p _ _).trans (State.setPkg_die told p _ _)
  have hbase : Steady fresh base := Steady.mapDies (Steady.refl fresh) _
  -- the loss of the eight dies
  obtain ⟨hk, he⟩ : (u.pkg p).standing = (base.pkg p).standing ∧ (u.die (p * 8)).epoch = (base.die (p * 8)).epoch + 1 := by
    rw [← hu]
    refine RenewsDies.all (fun t i => ⟨_, _, ?_, rfl, rfl⟩) base
    exact (((Steady.standing ((Steady.refl t).modDie _) ((Standing.refl _).loseQueues _)).endDieThreads _).wipeArrays _)
  have hp : (u.pkg p).standing = (fresh.pkg p).standing := hk.trans (hbase.pkg p)
  rw [hfresh, hentered] at hp
  have hphase := congrArg Pkg.phase hp
  have hpreserve := congrArg Pkg.preserve hp
  have hepoch := congrArg Pkg.epoch hp
  dsimp only [Pkg.standing] at hphase hpreserve hepoch
  rw [hphase, hpreserve, hepoch, he, hbase.epoch, hdie, htold.epoch]
  exact ⟨rfl, rfl, resetPkgRecord_epoch _ _, rfl⟩

/-! ### The ends of a reset (R547, R549) -/

/-- R547: 50 ms after its reset a die that has not returned is out of service. -/
theorem execDieResetTimeout_leaves {s : State} {die : BitVec 11} (hp : (s.pkg (diePkg die.toNat)).phase = .run)
    (hx : (s.die die.toNat).st = .resetting) (ht : (s.die die.toNat).resetAt + 5000000 ≤ s.now die.toNat) :
    ∃ u, execDieResetTimeout die s = .next u ∧ Standing (s.setDie die.toNat { s.die die.toNat with st := .outOfService, cause := 3 }) u := by
  unfold execDieResetTimeout
  rw [if_pos (by simp [State.pkgUp, hp, hx, after, tickMs, ht])]
  exact ⟨_, rfl, ((Standing.refl _).sendEpoch _ _).reportLinks _⟩

theorem net_foldl_modDie (s : State) (b : Nat) (f : Die → Die) (n : Nat) :
    NetOnly s ((List.range n).foldl (fun s i => s.modDie (b + i) f) s) :=
  List.foldlRecOn _ _ (NetOnly.refl s) (fun _ h _ _ => h.modDie _ _)

/-- What a change of `n` consecutive dies does to a die. -/
theorem die_foldl_modDie (s : State) (b : Nat) (f : Die → Die) (n i : Nat) :
    ((List.range n).foldl (fun s i => s.modDie (b + i) f) s).die (b + i) = if i < n then f (s.die (b + i)) else s.die (b + i) := by
  induction n with
  | zero => rfl
  | succ n ih =>
    rw [List.range_succ, List.foldl_append, List.foldl_cons, List.foldl_nil, State.die_mod]
    by_cases h : i = n
    · subst h
      rw [if_pos rfl, if_pos (Nat.lt_succ_self i), ih, if_neg (Nat.lt_irrefl i)]
    · rw [if_neg (by omega), ih]
      by_cases hi : i < n
      · rw [if_pos hi, if_pos (by omega)]
      · rw [if_neg hi, if_neg (by omega)]

theorem Kept.setPkg {s t : State} (h : Kept s t) (p : Nat) (k : Pkg) : Kept s (t.setPkg p k) := h

/-- R549: the end of a package's reset. -/
theorem execPackageResetComplete_leaves {s : State} {pkg : BitVec 8} (hp : (s.pkg pkg.toNat).phase = .resetting)
    (hs : (s.die (pkg.toNat * 8)).subst.st = .on) :
    ∃ m u, execPackageResetComplete pkg s = .next u ∧ Kept s m ∧ Standing m u ∧
      (m.pkg pkg.toNat).phase = .run ∧ (m.pkg pkg.toNat).pulses = 2 ∧ (m.pkg pkg.toNat).epoch = (s.pkg pkg.toNat).epoch ∧
      ∀ i, i < 8 → (m.die (pkg.toNat * 8 + i)).st = if (s.die (pkg.toNat * 8 + i)).subst.st = .on then .inService else .outOfService := by
  unfold execPackageResetComplete
  rw [if_neg (by simp [hp, headDie, hs])]
  extract_lets returned running
  have hreturned : NetOnly s returned := net_foldl_modDie s _ _ _
  have hrunning : running.pkg pkg.toNat = _ := State.pkg_set_same returned pkg.toNat _
  refine ⟨running, _, rfl, hreturned.kept.setPkg _ _, ?_, ?_, ?_, ?_, fun i hi => ?_⟩
  · refine Standing.reportLinks (Standing.foldl (Standing.sendEpoch (Standing.foldl (Standing.foldl (Standing.refl running) _ ?_) _ ?_) _ _) _ ?_) _
    · exact fun _ _ h => .ite (h.trainPorts _) h
    · exact fun _ _ h => .ite h (h.fenceNeighbours _)
    · exact fun _ _ h => h.sendEpoch _ _
  · rw [hrunning]
  · rw [hrunning]
  · rw [hrunning]
  · rw [State.setPkg_die, die_foldl_modDie, if_pos hi]
    by_cases hon : (s.die (pkg.toNat * 8 + i)).subst.st = .on
    · simp [hon]
    · simp [hon]
end Sys2Proof.Machine
end

section
/-! PROOFS. The section tables that a returning die gets (R133, R546). -/
set_option Elab.async false
namespace Sys2Proof.Machine

/-! ### Blocks of bytes written one after the other -/

/-- Blocks of bytes written in order, each at its address. -/
def State.writeAll (s : State) (ws : List (Nat × List Byte)) : State := ws.foldl (fun s w => s.writePa w.1 w.2) s

/-- An address lies outside every block. -/
def outsideAll (ws : List (Nat × List Byte)) (a : Nat) : Prop := ∀ w ∈ ws, a < w.1 ∨ w.1 + w.2.length ≤ a

/-- Only bytes and error marks of home memory changed. -/
structure MemoryOnly (s t : State) : Prop where
  hostMem : t.hostMem = s.hostMem
  pkgs : t.pkgs = s.pkgs
  dies : t.dies = s.dies
  threads : t.threads = s.threads

theorem MemoryOnly.die {s t : State} (h : MemoryOnly s t) (d : Nat) : t.die d = s.die d := by unfold State.die; rw [h.dies]

theorem State.writeAll_only (s : State) (ws : List (Nat × List Byte)) : MemoryOnly s (s.writeAll ws) := by
  induction ws generalizing s with
  | nil => exact ⟨rfl, rfl, rfl, rfl⟩
  | cons w r ih =>
    obtain ⟨h1, h2, h3, h4⟩ := ih (s.writePa w.1 w.2)
    exact ⟨h1, h2, h3, h4⟩

theorem State.writeAll_append (s : State) (v w : List (Nat × List Byte)) : (s.writeAll v).writeAll w = s.writeAll (v ++ w) :=
  List.foldl_append.symm

theorem State.memGet_writeAll {s : State} {ws : List (Nat × List Byte)} {a : Nat} (h : Memory.wf s.mem = true) (ho : outsideAll ws a) :
    memGet (s.writeAll ws).mem a = memGet s.mem a := by
  induction ws generalizing s with
  | nil => rfl
  | cons w r ih =>
    obtain ⟨hw, hr⟩ := List.forall_mem_cons.1 ho
    refine (ih (wf_writePa w.1 w.2 h) hr).trans ?_
    show memGet (memWrite s.mem w.1 w.2) a = _
    rw [memGet_memWrite _ _ _ h, if_neg (by omega)]

/-- A block reads back when every other block lies apart from it. -/
theorem State.readPa_writeAll {s : State} {ws : List (Nat × List Byte)} {w : Nat × List Byte} (h : Memory.wf s.mem = true) (hw : w ∈ ws)
    (hd : ∀ v ∈ ws, v = w ∨ v.1 + v.2.length ≤ w.1 ∨ w.1 + w.2.length ≤ v.1) : (s.writeAll ws).readPa w.1 w.2.length = w.2 := by
  induction ws generalizing s with
  | nil => cases hw
  | cons v r ih =>
    obtain ⟨hv, hr⟩ := List.forall_mem_cons.1 hd
    by_cases hin : w ∈ r
    · exact ih (wf_writePa v.1 v.2 h) hin hr
    · obtain rfl : w = v := (List.mem_cons.1 hw).resolve_right hin
      refine (memRead_congr _ _ (fun i hi => ?_)).trans (State.readPa_writePa s w.1 w.2 h)
      refine State.memGet_writeAll (wf_writePa w.1 w.2 h) (fun u hu => ?_)
      rcases hr u hu with rfl | hu'
      · exact absurd hu hin
      · omega

/-! ### The tables of a die -/

/-- The level-1 words of a package's tables in the area of a die. -/
def level1Blocks (k : Pkg) (x : Die) (d : Nat) : List (Nat × List Byte) :=
  k.l2.map (fun e => (mkPa 1 d (level1Off x (e.1 / 2048) (e.1 % 2048)), leBytes 8 (level1Word e.2)))

/-- Its section entries: those whose level-2 table is in use. -/
def level2Blocks (k : Pkg) (x : Die) (d : Nat) : List (Nat × List Byte) :=
  k.sections.filterMap (fun e => (tget? k.l2 (e.1 / 4096)).map (fun n => (mkPa 1 d (level2Off x n (e.1 % 4096)), leBytes 8 e.2.toNat)))

/-- The tables are the cleared area with both levels written. -/
theorem State.copyTables_eq (s : State) (p d : Nat) :
    s.copyTables p d = (s.zeroRange (mkPa 1 d (tableArea (s.die d))) (mkPa 1 d (tableArea (s.die d) + 0x800000))).writeAll
      (level1Blocks (s.pkg p) (s.die d) d ++ level2Blocks (s.pkg p) (s.die d) d) := by
  rw [← State.writeAll_append]
  unfold State.copyTables State.writeAll level1Blocks level2Blocks
  rw [List.foldl_map, List.foldl_filterMap]
  dsimp only
  congr 1
  funext t e
  cases tget? (s.pkg p).l2 (e.1 / 4096) <;> rfl

theorem State.copyTables_only (s : State) (p d : Nat) : MemoryOnly s (s.copyTables p d) := by
  rw [State.copyTables_eq]
  obtain ⟨h1, h2, h3, h4⟩ := State.writeAll_only (s.zeroRange (mkPa 1 d (tableArea (s.die d))) (mkPa 1 d (tableArea (s.die d) + 0x800000)))
    (level1Blocks (s.pkg p) (s.die d) d ++ level2Blocks (s.pkg p) (s.die d) d)
  exact ⟨h1, h2, h3, h4⟩

/-- R133: 65,536 level-1 words stand first in the area. -/
theorem mem_level1Blocks {k : Pkg} {x : Die} {d : Nat} {w : Nat × List Byte} (hk : ∀ e ∈ k.l2, e.1 < 2 ^ 16 ∧ e.2 < 240) (h : w ∈ level1Blocks k x d) :
    ∃ e ∈ k.l2, w.1 = mkPa 1 d (tableArea x) + 8 * e.1 ∧ w.2 = leBytes 8 (level1Word e.2) ∧ e.1 < 2 ^ 16 := by
  obtain ⟨e, he, rfl⟩ := List.mem_map.1 h
  refine ⟨e, he, ?_, rfl, (hk e he).1⟩
  show mkPa 1 d (tableArea x + e.1 / 2048 * 16384 + e.1 % 2048 * 8) = _
  unfold mkPa
  omega

/-- R133: the 240 level-2 tables follow. -/
theorem mem_level2Blocks {k : Pkg} {x : Die} {d : Nat} {w : Nat × List Byte} (hk : ∀ e ∈ k.l2, e.1 < 2 ^ 16 ∧ e.2 < 240) (h : w ∈ level2Blocks k x d) :
    mkPa 1 d (tableArea x) + 0x80000 ≤ w.1 ∧ w.1 + 8 ≤ mkPa 1 d (tableArea x) + 0x800000 ∧ w.2.length = 8 := by
  obtain ⟨e, -, he⟩ := List.mem_filterMap.1 h
  obtain ⟨n, hn, rfl⟩ := Option.map_eq_some_iff.1 he
  have hn240 : n < 240 := (hk _ (tget?_mem hn)).2
  refine ⟨?_, ?_, leBytes_length _ _⟩
  · show _ ≤ mkPa 1 d (tableArea x + 32 * 16384 + n * 32768 + e.1 % 4096 * 8)
    unfold mkPa
    omega
  · show mkPa 1 d (tableArea x + 32 * 16384 + n * 32768 + e.1 % 4096 * 8) + 8 ≤ _
    unfold mkPa
    omega

/-- Outside the area every byte is as it was. -/
theorem State.copyTables_outside {s : State} {p d : Nat} (h : Memory.wf s.mem = true) (hk : ∀ e ∈ (s.pkg p).l2, e.1 < 2 ^ 16 ∧ e.2 < 240) :
    SameOutside s (s.copyTables p d) (mkPa 1 d (tableArea (s.die d))) 0x800000 := by
  intro a ha
  rw [State.copyTables_eq, State.memGet_writeAll (wf_memClear _ _ h)]
  · show memGet (memClear s.mem _ _) a = _
    have hend : mkPa 1 d (tableArea (s.die d) + 0x800000) = mkPa 1 d (tableArea (s.die d)) + 0x800000 := (Nat.add_assoc _ _ _).symm
    rw [memGet_memClear, hend, if_neg (by omega)]
  · intro w hw
    rcases List.mem_append.1 hw with h1 | h2
    · obtain ⟨e, -, haddr, hbytes, he⟩ := mem_level1Blocks hk h1
      rw [haddr, hbytes, leBytes_length]
      omega
    · obtain ⟨hlo, hhi, hlen⟩ := mem_level2Blocks hk h2
      omega

/-- A table whose keys are distinct holds one value for a key. -/
theorem eq_of_mem_of_nodup {α : Type} {t : Tab α} {k : Nat} {a b : α} (h : (t.map (·.1)).Nodup) (ha : (k, a) ∈ t) (hb : (k, b) ∈ t) : a = b := by
  induction t with
  | nil => cases ha
  | cons e r ih =>
    rw [List.map_cons, List.nodup_cons] at h
    obtain ⟨hnew, hr⟩ := h
    have other {c : α} (hc : (k, c) ∈ r) : e.1 ≠ k := fun he => hnew (List.mem_map.2 ⟨(k, c), hc, he.symm⟩)
    rcases List.mem_cons.1 ha with ea | ha
    · rcases List.mem_cons.1 hb with eb | hb
      · exact congrArg Prod.snd (ea.trans eb.symm)
      · exact absurd (congrArg Prod.fst ea.symm) (other hb)
    · rcases List.mem_cons.1 hb with eb | hb
      · exact absurd (congrArg Prod.fst eb.symm) (other ha)
      · exact ih hr ha hb

/-- R133: a level-1 word names its level-2 table. -/
theorem State.copyTables_level1 {s : State} {p d e n : Nat} (h : Memory.wf s.mem = true) (hk : ∀ e ∈ (s.pkg p).l2, e.1 < 2 ^ 16 ∧ e.2 < 240)
    (he : tget? (s.pkg p).l2 e = some n) (hone : ((s.pkg p).l2.map (·.1)).Nodup) :
    leNat ((s.copyTables p d).readPa (mkPa 1 d (level1Off (s.die d) (e / 2048) (e % 2048))) 8) = 2 ^ 63 + n := by
  have hmem : (e, n) ∈ (s.pkg p).l2 := tget?_mem he
  have hn : n < 240 := (hk _ hmem).2
  have hblock : (mkPa 1 d (level1Off (s.die d) (e / 2048) (e % 2048)), leBytes 8 (level1Word n)) ∈ level1Blocks (s.pkg p) (s.die d) d :=
    List.mem_map.2 ⟨(e, n), hmem, rfl⟩
  have hread := State.readPa_writeAll (s := s.zeroRange (mkPa 1 d (tableArea (s.die d))) (mkPa 1 d (tableArea (s.die d) + 0x800000)))
    (wf_memClear _ _ h) (List.mem_append_left (level2Blocks (s.pkg p) (s.die d) d) hblock) ?_
  · rw [leBytes_length, ← State.copyTables_eq] at hread
    rw [hread, leNat_leBytes]
    unfold level1Word
    omega
  · have haddr : mkPa 1 d (level1Off (s.die d) (e / 2048) (e % 2048)) = mkPa 1 d (tableArea (s.die d)) + 8 * e := by
      show mkPa 1 d (tableArea (s.die d) + e / 2048 * 16384 + e % 2048 * 8) = _
      unfold mkPa
      omega
    have he16 : e < 2 ^ 16 := (hk _ hmem).1
    intro v hv
    rw [haddr, leBytes_length]
    rcases List.mem_append.1 hv with h1 | h2
    · obtain ⟨f, hf, hfaddr, hfbytes, -⟩ := mem_level1Blocks hk h1
      by_cases hef : f.1 = e
      · left
        obtain ⟨i, m⟩ := f
        obtain rfl : i = e := hef
        obtain rfl : m = n := eq_of_mem_of_nodup hone hf hmem
        exact Prod.ext hfaddr hfbytes
      · right
        rw [hfaddr, hfbytes, leBytes_length]
        omega
    · obtain ⟨hlo, -, -⟩ := mem_level2Blocks hk h2
      omega

end Sys2Proof.Machine
end

section
/-! PROOFS. Reconciliation of the hardware gates with the unit tables (R556 to R558), and the return of a die (R546). -/
set_option Elab.async false
namespace Sys2Proof.Machine

/-! ### What a pass leaves as it was -/

/-- The part of a cluster that counts as work in progress. -/
def Cluster.inProgress (c : Cluster) : List MissReg × Option WalkWork × List Hub := (c.miss, c.work, c.hubs)

/-- A standing step in which no cluster's work changed. -/
structure SameWork (s t : State) : Prop where
  standing : Standing s t
  progress : ∀ c, (t.cluster c).inProgress = (s.cluster c).inProgress

theorem SameWork.refl (s : State) : SameWork s s := ⟨Standing.refl s, fun _ => rfl⟩
theorem SameWork.trans {s t u : State} (h : SameWork s t) (k : SameWork t u) : SameWork s u :=
  ⟨h.standing.trans k.standing, fun c => (k.progress c).trans (h.progress c)⟩
theorem Standing.sameWork {s t : State} (h : Standing s t) (hc : t.clusters = s.clusters) : SameWork s t :=
  ⟨h, fun c => by unfold State.cluster; rw [hc]⟩

/-- Work in progress on a unit is what it was. -/
theorem SameWork.unitBusy {s t : State} (h : SameWork s t) (d u : Nat) : t.unitBusy d u = s.unitBusy d u := by
  have hc := h.progress (d * 32 + u)
  simp only [Cluster.inProgress, Prod.mk.injEq] at hc
  obtain ⟨hmiss, hwork, hhubs⟩ := hc
  unfold State.unitBusy State.mu State.eng
  simp only [hmiss, hwork, hhubs, h.standing.threads, h.standing.die_eq Die.mus d, h.standing.die_eq Die.engines d,
    h.standing.die_eq Die.ptCmds d, h.standing.die_eq Die.sigQueue d, h.standing.die_eq Die.signals d]

theorem State.postEvent_parts (s : State) (p v : Nat) (e : Word × Word) : (s.postEvent p v e).dies = s.dies ∧ (s.postEvent p v e).clusters = s.clusters := by
  unfold State.postEvent
  dsimp only
  split
  · exact ⟨rfl, rfl⟩
  · exact ⟨rfl, rfl⟩

theorem State.event_clusters (s : State) (d v code unit value : Nat) : (s.event d v code unit value).clusters = s.clusters := by
  unfold State.event
  dsimp only
  split
  · rfl
  · exact (State.postEvent_parts _ _ _ _).2

/-- An event changes no more of a die than the events that it holds. -/
theorem State.event_die_eq {α : Type} (s : State) (d v code unit value e : Nat) (f : Die → α)
    (hf : ∀ x l, f { x with heldEvents := l } = f x := by exact fun _ _ => rfl) : f ((s.event d v code unit value).die e) = f (s.die e) := by
  unfold State.event
  dsimp only
  split
  · rw [State.die_mod]
    split
    · next he => rw [he, hf]
    · rfl
  · unfold State.die
    rw [(State.postEvent_parts _ _ _ _).1]

theorem State.returnUnit_sameWork (s : State) (d u : Nat) : SameWork s (s.returnUnit d u) := by
  refine ⟨(Standing.refl s).returnUnit d u, fun c => ?_⟩
  unfold State.returnUnit
  dsimp only
  split
  · rw [State.cluster_mod]
    split
    · next hc =>
      rw [hc]
      split
      · rfl
      · rfl
    · rfl
  · rfl

theorem State.reconcile_sameWork (s : State) (d u : Nat) : SameWork s (s.reconcile d u) := by
  refine Standing.sameWork ((Standing.refl s).reconcile d u) ?_
  unfold State.reconcile State.closeGate
  dsimp only
  split
  · split
    · split
      · rfl
      · rfl
    · split
      · exact State.event_clusters _ _ _ _ _ _
      · exact State.event_clusters _ _ _ _ _ _
  · exact State.event_clusters _ _ _ _ _ _
  · rfl

/-! ### The gate and the table bit of a unit -/

/-- A unit's gate and its bit in the table. -/
def unitBits (x : Die) (n : Nat) : Bool × Bool := (x.gate.getLsbD n, x.table.getLsbD n)

/-- R556, R557: what a pass makes of a unit's bits: a unit taken out of the table keeps its gate while it is busy, and a unit whose gate
is closed leaves the table. -/
def settled (busy : Bool) : Bool × Bool → Bool × Bool
  | (true, false) => (busy, false)
  | (false, true) => (false, false)
  | b => b

theorem settled_settled (busy : Bool) (b : Bool × Bool) : settled busy (settled busy b) = settled busy b := by
  obtain ⟨gate, table⟩ := b
  revert busy gate table
  decide

theorem getLsbD_gateMask {u n : Nat} (h : n < 64) : (gateMask u).getLsbD n = decide (n = u) := by
  unfold gateMask
  rw [BitVec.getLsbD_ofNat, Nat.testBit_two_pow, decide_eq_true h, Bool.true_and]
  exact decide_eq_decide.2 eq_comm

theorem getLsbD_clear {x : BitVec 64} {u n : Nat} (h : n < 64) : (x &&& ~~~(gateMask u)).getLsbD n = (x.getLsbD n && !decide (n = u)) := by
  rw [BitVec.getLsbD_and, BitVec.getLsbD_not, getLsbD_gateMask h, decide_eq_true h, Bool.true_and]

theorem State.event_unitBits (s : State) (d v code unit value e n : Nat) : unitBits ((s.event d v code unit value).die e) n = unitBits (s.die e) n :=
  State.event_die_eq s d v code unit value e (unitBits · n)

theorem State.closeGate_unitBits (s : State) (d u : Nat) {n : Nat} (h : n < 64) :
    unitBits ((s.closeGate d u).die d) n = if n = u then (false, (unitBits (s.die d) n).2) else unitBits (s.die d) n := by
  unfold State.closeGate
  rw [State.die_mod_same]
  simp only [unitBits, getLsbD_clear h]
  by_cases hn : n = u
  · simp [hn]
  · simp [hn]

theorem State.returnUnit_unitBits (s : State) (d u : Nat) {n : Nat} (h : n < 64) :
    unitBits ((s.returnUnit d u).die d) n = if n = u then (true, true) else unitBits (s.die d) n := by
  have hd : (s.returnUnit d u).die d = { s.die d with
      gate := (s.die d).gate ||| gateMask u, table := (s.die d).table ||| gateMask u, drains := terase (s.die d).drains u } := by
    unfold State.returnUnit
    dsimp only
    split
    · rw [State.modCluster_die, State.die_mod_same]
    · rw [State.die_mod_same]
  rw [hd]
  simp only [unitBits, BitVec.getLsbD_or, getLsbD_gateMask h]
  by_cases hn : n = u
  · simp [hn]
  · simp [hn]

/-- R557: the gate of a unit in drain closes unless work is in progress. -/
theorem State.drain_unitBits (s : State) (d u : Nat) {n : Nat} (h : n < 64) :
    unitBits ((if s.unitBusy d u then s else s.closeGate d u).die d) n =
      if n = u then ((unitBits (s.die d) n).1 && s.unitBusy d n, (unitBits (s.die d) n).2) else unitBits (s.die d) n := by
  by_cases hn : n = u
  · subst hn
    rw [if_pos rfl]
    cases hb : s.unitBusy d n with
    | true => rw [if_pos rfl, Bool.and_true]
    | false => rw [if_neg Bool.false_ne_true, State.closeGate_unitBits s d n h, if_pos rfl, Bool.and_false]
  · rw [if_neg hn]
    split
    · rfl
    · rw [State.closeGate_unitBits s d u h, if_neg hn]

/-- R556: one unit in a pass. -/
theorem State.reconcile_unitBits (s : State) (d u : Nat) {n : Nat} (h : n < 64) :
    unitBits ((s.reconcile d u).die d) n = if n = u then settled (s.unitBusy d n) (unitBits (s.die d) n) else unitBits (s.die d) n := by
  unfold State.reconcile
  dsimp only
  split
  · next hg ht =>
    have hbits : n = u → unitBits (s.die d) n = (true, false) := fun hn => by rw [hn]; exact Prod.ext hg ht
    split
    · rw [State.drain_unitBits s d u h]
      split
      · next hn => rw [hbits hn]; rfl
      · rfl
    · have started : SameWork s ((s.setDie d { s.die d with drains := tset (s.die d).drains u (s.now d) }).event d 0 evReconcile u 0) :=
        (((Standing.refl s).setDie d).event _ _ _ _ _).sameWork (State.event_clusters _ _ _ _ _ _)
      rw [State.drain_unitBits _ d u h, started.unitBusy, State.event_unitBits, State.die_set_same]
      split
      · next hn =>
        show ((unitBits (s.die d) n).1 && _, (unitBits (s.die d) n).2) = _
        rw [hbits hn]
        rfl
      · rfl
  · next hg ht =>
    rw [State.event_unitBits, State.die_set_same]
    simp only [unitBits, getLsbD_clear h]
    split
    · next hn =>
      rw [hn, hg, ht, decide_eq_true rfl]
      rfl
    · next hn => simp [hn]
  · next hopen hclosed =>
    split
    · next hn =>
      subst hn
      unfold unitBits
      cases hg : (s.die d).gate.getLsbD n <;> cases ht : (s.die d).table.getLsbD n
      · rfl
      · exact (hclosed hg ht).elim
      · exact (hopen hg ht).elim
      · rfl
    · rfl

/-! ### A pass over a die's units -/

/-- R558: the units that return, but for those whose test fails. -/
theorem foldl_returnUnit (d : Nat) (failed : List Nat) {n : Nat} (h : n < 64) (l : List Nat) : ∀ s : State,
    SameWork s (l.foldl (fun s u => if failed.contains u then s else s.returnUnit d u) s) ∧
    unitBits ((l.foldl (fun s u => if failed.contains u then s else s.returnUnit d u) s).die d) n =
      if l.contains n && !failed.contains n then (true, true) else unitBits (s.die d) n := by
  induction l with
  | nil => exact fun s => ⟨SameWork.refl s, rfl⟩
  | cons u r ih =>
    intro s
    rw [List.foldl_cons]
    by_cases hu : failed.contains u = true
    · rw [if_pos hu]
      obtain ⟨hw, hb⟩ := ih s
      refine ⟨hw, hb.trans ?_⟩
      by_cases hn : n = u
      · have hf : n ∈ failed := by simpa [hn] using hu
        simp [hf]
      · simp [hn]
    · rw [if_neg hu]
      obtain ⟨hw, hb⟩ := ih (s.returnUnit d u)
      refine ⟨(s.returnUnit_sameWork d u).trans hw, hb.trans ?_⟩
      rw [State.returnUnit_unitBits s d u h]
      by_cases hn : n = u
      · have hf : n ∉ failed := by simpa [hn] using hu
        simp [hn, hn ▸ hf]
      · simp [hn]

/-- R556: every unit of a list is settled. -/
theorem foldl_reconcile (d : Nat) {n : Nat} (h : n < 64) (l : List Nat) : ∀ s : State,
    unitBits ((l.foldl (fun s u => s.reconcile d u) s).die d) n =
      if n ∈ l then settled (s.unitBusy d n) (unitBits (s.die d) n) else unitBits (s.die d) n := by
  induction l with
  | nil => exact fun s => rfl
  | cons u r ih =>
    intro s
    rw [List.foldl_cons, ih, (s.reconcile_sameWork d u).unitBusy, State.reconcile_unitBits s d u h]
    by_cases hn : n = u
    · rw [if_pos hn, settled_settled, ite_self, if_pos (hn ▸ List.mem_cons_self)]
    · simp only [if_false, List.mem_cons, hn, false_or]

/-- The state in which a pass begins to look at the units. -/
def State.passStart (s : State) (d : Nat) : State := s.modDie d (fun x => { x with returns := [], lastPass := s.now d })

theorem State.reconcileDie_eq (s : State) (d : Nat) (failed : List Nat) : s.reconcileDie d failed =
    reconciled.foldl (fun s u => s.reconcile d u)
      ((s.die d).returns.foldl (fun s u => if failed.contains u then s else s.returnUnit d u) (s.passStart d)) := rfl

theorem State.reconcileDie_standing (s : State) (d : Nat) (failed : List Nat) : Standing (s.passStart d) (s.reconcileDie d failed) := by
  rw [State.reconcileDie_eq]
  exact Standing.foldl (Standing.foldl (Standing.refl _) _ (fun _ _ h => .ite h (h.returnUnit d _))) _ (fun _ _ h => h.reconcile d _)

theorem State.passStart_service (s : State) (d : Nat) :
    ((s.passStart d).die d).st = (s.die d).st ∧ ((s.passStart d).die d).epoch = (s.die d).epoch ∧ ((s.passStart d).die d).cause = (s.die d).cause := by
  unfold State.passStart
  rw [State.die_mod_same]
  exact ⟨rfl, rfl, rfl⟩

theorem State.passStart_kept (s : State) (d : Nat) : Kept s (s.passStart d) := ⟨rfl, rfl, rfl, rfl⟩

theorem State.passStart_unitBusy (s : State) (d u : Nat) : (s.passStart d).unitBusy d u = s.unitBusy d u := by
  unfold State.unitBusy State.mu State.eng State.passStart
  simp only [State.die_mod_same, State.modDie_cluster, State.modDie_threads]

theorem lt_of_mem_reconciled : ∀ n ∈ reconciled, n < 64 := by decide

/-- R556, R558: a pass settles every unit, after those that pass their test have returned. -/
theorem State.reconcileDie_unitBits (s : State) (d : Nat) (failed : List Nat) {n : Nat} (h : n ∈ reconciled) :
    unitBits ((s.reconcileDie d failed).die d) n = settled (s.unitBusy d n)
      (if (s.die d).returns.contains n && !failed.contains n then (true, true) else unitBits (s.die d) n) := by
  have h64 := lt_of_mem_reconciled n h
  obtain ⟨hwork, hbits⟩ := foldl_returnUnit d failed h64 (s.die d).returns (s.passStart d)
  rw [State.reconcileDie_eq, foldl_reconcile d h64, if_pos h, hwork.unitBusy, State.passStart_unitBusy, hbits]
  unfold State.passStart
  rw [State.die_mod_same]
  rfl

/-! ### The commands -/

/-- R556: a pass that is due. -/
theorem execReconcilePass_leaves {s : State} {die : BitVec 11} {failed : List Nat} (hup : s.dieUp die.toNat = true)
    (hw : (s.die die.toNat).swapping = none) (ht : (s.die die.toNat).lastPass + 500000 ≤ s.now die.toNat) :
    ∃ c, execReconcilePass die failed s = .next (c.reconcileDie die.toNat failed) ∧ Kept s c ∧ c.dies = s.dies ∧ (∀ u, c.unitBusy die.toNat u = s.unitBusy die.toNat u) ∧
      c.now die.toNat = s.now die.toNat ∧ (dieNo die.toNat = 0 → (c.pkg (diePkg die.toNat)).checkin = s.now die.toNat) := by
  unfold execReconcilePass
  rw [if_pos (by simp [hup, hw, after, tickMs, ht])]
  refine ⟨_, rfl, ?_⟩
  split
  · exact ⟨⟨rfl, rfl, rfl, rfl⟩, rfl, fun _ => rfl, by unfold State.now; rw [State.pkg_mod_same], fun _ => by rw [State.pkg_mod_same]; rfl⟩
  · next hd => exact ⟨⟨rfl, rfl, rfl, rfl⟩, rfl, fun _ => rfl, rfl, fun h => absurd h hd⟩

/-- The record of a die as it comes back into service. -/
def Die.back (x : Die) (now : Nat) : Die := { x with st := .inService, cause := 0, upSince := now }

theorem Die.back_epoch (x : Die) (now : Nat) : (x.back now).epoch = x.epoch := rfl

/-- R546: a die that returns has the section tables; what follows leaves threads and bytes. -/
theorem execDieResetComplete_leaves {s : State} {die : BitVec 11} (hp : (s.pkg (diePkg die.toNat)).phase = .run)
    (hx : (s.die die.toNat).st = .resetting) (hs : (s.die die.toNat).subst.st = .on) :
    ∃ u, execDieResetComplete die s = .next u ∧
      Kept ((s.setDie die.toNat ((s.die die.toNat).back (s.now die.toNat))).copyTables (diePkg die.toNat) die.toNat) u ∧
      (u.die die.toNat).st = .inService ∧ (u.die die.toNat).epoch = (s.die die.toNat).epoch ∧ (u.die die.toNat).cause = 0 := by
  unfold execDieResetComplete
  rw [if_neg (by simp [State.pkgUp, hp, hx, hs])]
  extract_lets now copied trained unfenced reported passed
  have hreported : Standing copied reported := (((Standing.refl copied).trainPorts _).unfenceNeighbours _).reportLinks _
  have hpassed : Standing (reported.passStart die.toNat) passed := State.reconcileDie_standing _ _ _
  have hsent := hpassed.sendEpoch (diePkg die.toNat)
    (epochDie (diePkg die.toNat) (dieNo die.toNat) 1 ((s.die die.toNat).epoch - 1).toNat (s.die die.toNat).epoch.toNat now)
  generalize passed.sendEpoch _ _ = u at hsent ⊢
  have hcopied : copied.die die.toNat = (s.die die.toNat).back now :=
    ((State.copyTables_only _ _ _).die _).trans (State.die_set_same s _ _)
  obtain ⟨hst, hepoch, hcause⟩ := reported.passStart_service die.toNat
  refine ⟨u, rfl, Kept.trans (Kept.trans hreported.kept (reported.passStart_kept _)) hsent.kept, ?_, ?_, ?_⟩
  · exact (hsent.die_eq Die.st _).trans (hst.trans ((hreported.die_eq Die.st _).trans (congrArg Die.st hcopied)))
  · exact (hsent.die_eq Die.epoch _).trans (hepoch.trans ((hreported.die_eq Die.epoch _).trans ((congrArg Die.epoch hcopied).trans (Die.back_epoch _ _))))
  · exact (hsent.die_eq Die.cause _).trans (hcause.trans ((hreported.die_eq Die.cause _).trans (congrArg Die.cause hcopied)))

/-- R557: the command of a drained unit that is idle. -/
theorem execDrainTimeout_idle {s : State} {die : BitVec 11} {unit : BitVec 9} {since : Nat} (hup : s.dieUp die.toNat = true)
    (hd : tget? (s.die die.toNat).drains unit.toNat = some since) (hb : s.unitBusy die.toNat unit.toNat = false) :
    execDrainTimeout die unit s = .next (s.closeGate die.toNat unit.toNat) := by
  unfold execDrainTimeout
  simp only [hd, hup, hb, Bool.not_true, Bool.not_false, Bool.false_eq_true, if_false, if_true]

/-- R557: after 2 ms the gate closes, whatever the unit's work. -/
theorem execDrainTimeout_due {s : State} {die : BitVec 11} {unit : BitVec 9} {since : Nat} (hup : s.dieUp die.toNat = true)
    (hd : tget? (s.die die.toNat).drains unit.toNat = some since) (ht : since + 200000 ≤ s.now die.toNat) :
    ∃ m : State, execDrainTimeout die unit s = .next (m.closeGate die.toNat unit.toNat) := by
  cases hb : s.unitBusy die.toNat unit.toNat with
  | false => exact ⟨s, execDrainTimeout_idle hup hd hb⟩
  | true =>
    refine ⟨s.failUnit die.toNat unit.toNat, ?_⟩
    have due : after (s.now die.toNat) since (2 * tickMs) = true := decide_eq_true ht
    unfold execDrainTimeout
    simp only [hd, hup, hb, due, Bool.not_true, Bool.false_eq_true, if_false, if_true]

/-- A closed gate is no longer in drain. -/
theorem State.closeGate_closed (s : State) (d : Nat) {u : Nat} (h : u < 64) :
    ((s.closeGate d u).die d).gate.getLsbD u = false ∧ tget? ((s.closeGate d u).die d).drains u = none := by
  refine ⟨?_, ?_⟩
  · have hbits := State.closeGate_unitBits s d u h
    rw [if_pos rfl] at hbits
    exact congrArg Prod.fst hbits
  · unfold State.closeGate
    rw [State.die_mod_same]
    exact tget?_terase_same _ _

end Sys2Proof.Machine
end

section
/-! PROOFS. The statement on resets and reconciliation, command by command. -/
set_option Elab.async false
namespace Sys2Proof.Machine

section
variable {s : State}

theorem State.dieUp_run {d : Nat} (h : s.dieUp d = true) : (s.pkg (diePkg d)).phase = .run := by
  unfold State.dieUp State.pkgUp at h
  rw [Bool.and_eq_true] at h
  exact eq_of_beq h.1

/-! ### The resets of a die -/

theorem exec_dieReset {die : BitVec 11} (h : s.dieUp die.toNat = true) (hd : die.toNat % 8 ≠ 0) (hw : (s.die die.toNat).swapping = none) :
    ∃ u, exec (.dieReset die) s = .next u ∧ (u.die die.toNat).st = .resetting ∧ (u.die die.toNat).epoch = (s.die die.toNat).epoch + 1 ∧
      (u.die die.toNat).resetAt = (s.pkg (die.toNat / 8)).tick ∧ (u.die die.toNat).outst = [] ∧ (u.die die.toNat).signals = [] ∧
      (u.die die.toNat).arrivals = [] ∧ (u.pkg (die.toNat / 8)).phase = .run ∧ ∀ n, n / 4096 = die.toNat → u.thread n = {} := by
  obtain ⟨m, x, hm, hthreads, ⟨hst, hepoch, hat, houtst, hsignals, harrivals⟩, hu⟩ := State.resetDie_leaves h hd hw
  have hx : (m.setDie die.toNat x).die die.toNat = x := State.die_set_same m _ _
  refine ⟨_, rfl, ?_, ?_, ?_, ?_, ?_, ?_, ?_, fun n hn => ?_⟩
  · rw [hu.die_eq Die.st, hx, hst]
  · rw [hu.die_eq Die.epoch, hx, hepoch]
  · rw [hu.die_eq Die.resetAt, hx, hat]
    rfl
  · rw [hu.die_eq Die.outst, hx, houtst]
  · rw [hu.die_eq Die.signals, hx, hsignals]
  · rw [hu.die_eq Die.arrivals, hx, harrivals]
  · rw [hu.pkg_eq Pkg.phase, State.setDie_pkg, hm.pkg_eq Pkg.phase]
    exact State.dieUp_run h
  · rw [hu.thread, State.setDie_thread]
    exact hthreads n hn

theorem State.resetDie_head {d : Nat} (h : s.dieUp d = true) (hd : dieNo d = 0) :
    s.resetDie d false = (s.resetPkg (diePkg d) true true).modDie d (fun x => restartSubst x false (s.now d)) := by
  unfold State.resetDie
  rw [if_neg (by simp [h]), if_pos hd]

theorem exec_dieReset_head {die : BitVec 11} (h : s.dieUp die.toNat = true) (hd : die.toNat % 8 = 0) :
    ∃ u, exec (.dieReset die) s = .next u ∧ (u.pkg (die.toNat / 8)).phase = .resetting ∧ (u.pkg (die.toNat / 8)).preserve = true ∧
      (u.pkg (die.toNat / 8)).epoch = (s.pkg (die.toNat / 8)).epoch + 1 ∧ (u.die die.toNat).epoch = (s.die die.toNat).epoch + 1 := by
  obtain ⟨hphase, hpreserve, hepoch, hdie⟩ := State.resetPkg_leaves (State.dieUp_run h) true
  rw [show diePkg die.toNat * 8 = die.toNat by unfold diePkg; omega] at hdie
  have e : exec (.dieReset die) s = .next ((s.resetPkg (diePkg die.toNat) true true).modDie die.toNat (fun x => restartSubst x false (s.now die.toNat))) :=
    congrArg Host.Outcome.next (State.resetDie_head h hd)
  refine ⟨_, e, hphase, hpreserve, hepoch, ?_⟩
  rw [State.die_mod_same]
  exact hdie

theorem exec_dieResetTimeout {die : BitVec 11} (hp : (s.pkg (die.toNat / 8)).phase = .run) (hx : (s.die die.toNat).st = .resetting)
    (ht : (s.die die.toNat).resetAt + 5000000 ≤ (s.pkg (die.toNat / 8)).tick) :
    ∃ u, exec (.dieResetTimeout die) s = .next u ∧ u.threads = s.threads ∧ SameBytes s u ∧ (u.die die.toNat).st = .outOfService ∧
      (u.die die.toNat).cause = 3 := by
  obtain ⟨u, e, hu⟩ := execDieResetTimeout_leaves hp hx ht
  refine ⟨u, e, hu.threads, hu.bytes, ?_, ?_⟩
  · rw [hu.die_eq Die.st, State.die_set_same]
  · rw [hu.die_eq Die.cause, State.die_set_same]

theorem exec_dieResetComplete {die : BitVec 11} (hp : (s.pkg (die.toNat / 8)).phase = .run) (hx : (s.die die.toNat).st = .resetting)
    (hs : (s.die die.toNat).subst.st = .on) (hm : Memory.wf s.mem = true) (hk : ∀ e ∈ (s.pkg (die.toNat / 8)).l2, e.1 < 2 ^ 16 ∧ e.2 < 240) :
    ∃ u, exec (.dieResetComplete die) s = .next u ∧ u.threads = s.threads ∧ u.hostMem = s.hostMem ∧
      SameOutside s u (mkPa 1 die.toNat (tableArea (s.die die.toNat))) 0x800000 ∧ (u.die die.toNat).st = .inService ∧
      (u.die die.toNat).epoch = (s.die die.toNat).epoch ∧ (u.die die.toNat).cause = 0 ∧
      ∀ e n, tget? (s.pkg (die.toNat / 8)).l2 e = some n → ((s.pkg (die.toNat / 8)).l2.map (·.1)).Nodup → ((s.pkg (die.toNat / 8)).l2.map (·.2)).Nodup →
        leNat (u.readPa (mkPa 1 die.toNat (level1Off (s.die die.toNat) (e / 2048) (e % 2048))) 8) = 2 ^ 63 + n := by
  obtain ⟨u, e, ⟨hthreads, hmem, hhost, -⟩, hst, hepoch, hcause⟩ := execDieResetComplete_leaves hp hx hs
  generalize hb : s.setDie die.toNat ((s.die die.toNat).back (s.now die.toNat)) = b at hthreads hmem hhost
  have only := State.copyTables_only b (diePkg die.toNat) die.toNat
  have hdie : b.die die.toNat = (s.die die.toNat).back (s.now die.toNat) := hb ▸ State.die_set_same s _ _
  have harea : tableArea (b.die die.toNat) = tableArea (s.die die.toNat) := by simp only [hdie, tableArea, rhSize, Die.back]
  have hpkg : b.pkg (diePkg die.toNat) = s.pkg (die.toNat / 8) := hb ▸ rfl
  have hbmem : b.mem = s.mem := hb ▸ rfl
  refine ⟨u, e, hthreads.trans (only.threads.trans (hb ▸ rfl)), hhost.trans (only.hostMem.trans (hb ▸ rfl)), fun a ha => ?_, hst, hepoch, hcause,
    fun i n hi hone _ => ?_⟩
  · have hout := State.copyTables_outside (d := die.toNat) (hbmem ▸ hm) (hpkg ▸ hk)
    rw [harea] at hout
    rw [hmem, hout a ha, hbmem]
  · rw [← hpkg] at hi hone
    have hread := State.copyTables_level1 (d := die.toNat) (hbmem ▸ hm) (hpkg ▸ hk) hi hone
    rw [level1Off, harea, State.readPa, ← hmem] at hread
    exact hread

/-! ### The end of a package's reset -/

theorem exec_packageResetComplete {pkg : BitVec 8} (hp : (s.pkg pkg.toNat).phase = .resetting) (hs : (s.die (pkg.toNat * 8)).subst.st = .on) :
    ∃ u, exec (.packageResetComplete pkg) s = .next u ∧ u.threads = s.threads ∧ SameBytes s u ∧ (u.pkg pkg.toNat).phase = .run ∧
      (u.pkg pkg.toNat).pulses = 2 ∧ (u.pkg pkg.toNat).epoch = (s.pkg pkg.toNat).epoch ∧
      ∀ i, i < 8 → (u.die (pkg.toNat * 8 + i)).st = if (s.die (pkg.toNat * 8 + i)).subst.st = .on then .inService else .outOfService := by
  obtain ⟨m, u, e, hm, hu, hphase, hpulses, hepoch, hdies⟩ := execPackageResetComplete_leaves hp hs
  obtain ⟨hthreads, hbytes⟩ := Kept.trans hm hu.kept
  refine ⟨u, e, hthreads, hbytes, ?_, ?_, ?_, fun i hi => ?_⟩
  · rw [hu.pkg_eq Pkg.phase, hphase]
  · rw [hu.pkg_eq Pkg.pulses, hpulses]
  · rw [hu.pkg_eq Pkg.epoch, hepoch]
  · rw [hu.die_eq Die.st, hdies i hi]

theorem exec_packageResetTimeout {pkg : BitVec 8} (hp : (s.pkg pkg.toNat).phase = .resetting)
    (ht : (s.pkg pkg.toNat).resetAt + 20000000 ≤ (s.pkg pkg.toNat).tick) :
    ∃ u, exec (.packageResetTimeout pkg) s = .next u ∧ Kept s u ∧ u.dies = s.dies ∧ (u.pkg pkg.toNat).phase = .beacon ∧
      (u.pkg pkg.toNat).beacon = 0x31 ∧ (u.pkg pkg.toNat).pulses = 3 := by
  have e : exec (.packageResetTimeout pkg) s = .next (s.enterBeacon pkg.toNat 0x31) := by
    show execPackageResetTimeout pkg s = _
    unfold execPackageResetTimeout
    rw [if_pos (by simp [hp, after, tickMs, ht])]
  refine ⟨_, e, ⟨rfl, rfl, rfl, rfl⟩, rfl, ?_⟩
  unfold State.enterBeacon
  rw [State.pkg_mod_same, if_neg (by simp [hp])]
  exact ⟨rfl, rfl, rfl⟩

/-! ### Reconciliation -/

theorem exec_reconcilePass_early {die : BitVec 11} (failed : List Nat) (ht : (s.pkg (die.toNat / 8)).tick < (s.die die.toNat).lastPass + 500000) :
    exec (.reconcilePass die failed) s = .next s := by
  have early : after (s.now die.toNat) (s.die die.toNat).lastPass (5 * tickMs) = false := decide_eq_false (Nat.not_le.2 ht)
  show execReconcilePass die failed s = _
  unfold execReconcilePass
  rw [if_neg (by simp [early])]

theorem exec_reconcilePass {die : BitVec 11} (failed : List Nat) (h : s.dieUp die.toNat = true) (hw : (s.die die.toNat).swapping = none)
    (ht : (s.die die.toNat).lastPass + 500000 ≤ (s.pkg (die.toNat / 8)).tick) :
    ∃ t, exec (.reconcilePass die failed) s = .next t ∧ Kept s t ∧ (t.die die.toNat).returns = [] ∧
      (t.die die.toNat).lastPass = (s.pkg (die.toNat / 8)).tick ∧
      (die.toNat % 8 = 0 → (t.pkg (die.toNat / 8)).checkin = (s.pkg (die.toNat / 8)).tick) ∧
      ∀ n ∈ reconciled, unitBits (t.die die.toNat) n = settled (s.unitBusy die.toNat n)
        (if (s.die die.toNat).returns.contains n && !failed.contains n then (true, true) else unitBits (s.die die.toNat) n) := by
  obtain ⟨c, e, hc, hdies, hbusy, hnow, hcheckin⟩ := execReconcilePass_leaves (failed := failed) h hw ht
  have hdie : c.die die.toNat = s.die die.toNat := by unfold State.die; rw [hdies]
  have hpass := c.reconcileDie_standing die.toNat failed
  refine ⟨_, e, Kept.trans (Kept.trans hc (c.passStart_kept _)) hpass.kept, ?_, ?_, fun hd => ?_, fun n hn => ?_⟩
  · rw [hpass.die_eq Die.returns, State.passStart, State.die_mod_same]
  · rw [hpass.die_eq Die.lastPass, State.passStart, State.die_mod_same]
    exact hnow
  · rw [hpass.pkg_eq Pkg.checkin, State.passStart, State.modDie_pkg]
    exact hcheckin hd
  · rw [State.reconcileDie_unitBits c die.toNat failed hn, hbusy, hdie]

/-- R556, R557: what a pass makes of a unit's bits, case by case. -/
theorem settled_cases {x y : Die} {n : Nat} {busy back : Bool} (h : unitBits y n = settled busy (if back then (true, true) else unitBits x n)) :
    let g := (x.gate.getLsbD n, x.table.getLsbD n)
    (back = true → y.gate.getLsbD n = true ∧ y.table.getLsbD n = true) ∧
    (back = false → g = (true, true) ∨ g = (false, false) → (y.gate.getLsbD n, y.table.getLsbD n) = g) ∧
    (back = false → g = (false, true) → y.gate.getLsbD n = false ∧ y.table.getLsbD n = false) ∧
    (back = false → g = (true, false) → y.table.getLsbD n = false ∧ y.gate.getLsbD n = busy) := by
  unfold unitBits at h
  dsimp only
  cases back with
  | true =>
    rw [if_pos rfl] at h
    obtain ⟨hg, ht⟩ := Prod.mk.inj h
    exact ⟨fun _ => ⟨hg, ht⟩, nofun, nofun, nofun⟩
  | false =>
    rw [if_neg Bool.false_ne_true] at h
    refine ⟨nofun, fun _ hx => ?_, fun _ hx => ?_, fun _ hx => ?_⟩
    · rcases hx with hx | hx
      · rw [h, hx]
        rfl
      · rw [h, hx]
        rfl
    · rw [hx] at h
      exact Prod.mk.inj h
    · rw [hx] at h
      exact (Prod.mk.inj h).symm

theorem exec_drainTimeout_due {die : BitVec 11} {unit : BitVec 9} {since : Nat} (h : s.dieUp die.toNat = true)
    (hd : tget? (s.die die.toNat).drains unit.toNat = some since) (hu : unit.toNat < 64) (ht : since + 200000 ≤ (s.pkg (die.toNat / 8)).tick) :
    ∃ t, exec (.drainTimeout die unit) s = .next t ∧ (t.die die.toNat).gate.getLsbD unit.toNat = false ∧ tget? (t.die die.toNat).drains unit.toNat = none := by
  obtain ⟨m, e⟩ := execDrainTimeout_due h hd ht
  exact ⟨_, e, m.closeGate_closed die.toNat hu⟩

end

/-- Settles O60: each command by the lemma on what it leaves; the frames by `Standing` and `Steady`, the section tables by blocks of bytes that lie
apart, and a pass by what it makes of a unit's two bits. -/
theorem resetsAndReconciliation : Obligations.ResetsAndReconciliation := by
  unfold Obligations.ResetsAndReconciliation
  refine ⟨fun s die => ⟨exec_dieReset, exec_dieReset_head, fun hp hx => ⟨exec_dieResetTimeout hp hx, exec_dieResetComplete hp hx⟩⟩,
    fun s pkg hp => ⟨exec_packageResetComplete hp, exec_packageResetTimeout hp⟩,
    fun s die failed unit hup => ⟨exec_reconcilePass_early failed, fun hw ht => ?_, fun since hd hu =>
      ⟨execDrainTimeout_idle hup hd, exec_drainTimeout_due hup hd hu⟩⟩⟩
  obtain ⟨t, e, hkept, hreturns, hlast, hcheckin, hbits⟩ := exec_reconcilePass failed hup hw ht
  exact ⟨t, e, hkept, hreturns, hlast, hcheckin, fun n hn => settled_cases (hbits n hn)⟩

end Sys2Proof.Machine
end
